-- ==== Sys2Proof/Word.lean ====
section
/-! DEFINITION. The word types of the P36 (R37: little-endian, two's complement) and the sparse map in which the
state keeps data by key: a list of (key, value) pairs with strictly rising keys and no entry equal to the default. -/

namespace Sys2Proof

abbrev Word := BitVec 64
abbrev Byte := BitVec 8
/-- Sparse data by key. Keys that are not listed hold the map's default value. -/
abbrev FMap (α : Type) := List (Nat × α)

/-- Tile index, ty × 6 + tx (R9). -/
abbrev Tile := Fin 36
/-- Physical die site (R15). -/
abbrev PSite := Fin 7
/-- Command queue 0 = M0, 1 = M1, 2 = V0, 3 = V1 (R131). -/
abbrev Queue := Fin 4

end Sys2Proof
end

