-- ==== Sys2Proof/Syntax.lean ====
section
/-! DEFINITION. The commands of the P36 block: one constructor per row of spec/opcode_table.json, and the operand
types they carry. A scalar instruction carries the fields of its 64-bit word (Table 5.2), reserved bits included,
so that R122 and R124 can be judged on it. -/

namespace Sys2Proof

/-- A cluster, by physical site (Table 1.3). -/
structure Clu where
  tile : Tile
  site : PSite
  cl : Fin 4
  deriving DecidableEq, Repr

/-- A core, by physical site; slot 0 = M0, 1 = M1, 2 = V0, 3 = V1, 4 = S (Table 1.4). -/
structure Core where
  tile : Tile
  site : PSite
  cl : Fin 4
  slot : Fin 5
  deriving DecidableEq, Repr

/-- Format R, bits 51:0 (Table 5.2). -/
structure FmtR where
  rd : BitVec 5
  rs1 : BitVec 5
  rs2 : BitVec 5
  rs3 : BitVec 5
  rm : BitVec 3
  rsv : BitVec 29
  deriving DecidableEq, Repr

/-- Format I. -/
structure FmtI where
  rd : BitVec 5
  rs1 : BitVec 5
  imm : BitVec 42
  deriving DecidableEq, Repr

/-- Format M. -/
structure FmtM where
  rd : BitVec 5
  rs1 : BitVec 5
  space : Bool
  rsv : BitVec 9
  imm : BitVec 32
  deriving DecidableEq, Repr

/-- Format B. -/
structure FmtB where
  rs1 : BitVec 5
  rs2 : BitVec 5
  rd : BitVec 5
  rsv : BitVec 5
  off : BitVec 32
  deriving DecidableEq, Repr

/-- Format Q. -/
structure FmtQ where
  rs : BitVec 5
  queue : BitVec 2
  rsvA : BitVec 3
  dpail : BitVec 6
  rsvB : BitVec 4
  doff : BitVec 32
  deriving DecidableEq, Repr

/-- Format P. -/
structure FmtP where
  rs1 : BitVec 5
  rs2 : BitVec 5
  rs3 : BitVec 5
  slot : BitVec 3
  pail : BitVec 6
  sigCtr : BitVec 4
  sigEn : Bool
  rsv : BitVec 23
  deriving DecidableEq, Repr

/-- Format F. -/
structure FmtF where
  rr : BitVec 5
  rs1 : BitVec 5
  rs2 : BitVec 5
  rs3 : BitVec 5
  sigCtr : BitVec 4
  sigEn : Bool
  route : BitVec 2
  rsv : BitVec 25
  deriving DecidableEq, Repr

/-- Where a register write goes: CSR space (a PA with selector 0xE) or BAR0 of a function (0 = PF0, 1 = PF1,
1 + n = VF n). -/
inductive RegSpace where
  | csr
  | bar (fn : BitVec 7)
  deriving DecidableEq, Repr

/-- How the steps of a substitution turn out (R406, R409). -/
inductive SubstOut where
  | ok | rampFails | trainingFails | cultureFails
  deriving DecidableEq, Repr

/-- Why a die is lost (R401, R411, R231, R319, R446). -/
inductive LossWhy where
  | arrayCheck | router | link | training | culture | test
  deriving DecidableEq, Repr

/-- What a BIST found (R415, R422 to R424): the tests' verdict, its duration, units bad by fuse that passed,
whether a condemned unit was good by fuse, and the bad lanes and lane groups of the die's link, as keys (receiving
at the tile × 8 + group) × 2048 + lane and receiving × 8 + group. -/
structure BistResult where
  pass : Bool
  ms : Nat
  fuseBadPassed : Nat
  condemnedFuseGood : Bool
  badLanes : List Nat
  badGroups : List Nat
  deriving DecidableEq, Repr

/-- Reasons of a Spill (Table 3.5). -/
inductive SpillReason where
  | preempt | servicePause | faultHold
  deriving DecidableEq, Repr

/-- Sources of a check failure (Table 3.7 SOURCE, codes 1 to 5). -/
inductive CheckSource where
  | columnResidue | accResidue | weightParity | accParity | twin
  deriving DecidableEq, Repr

/-- One end of a link: a die-to-base or tile-edge link at its tile (Table 11.8), the die's end of a die-to-base link, an
express port (Table 11.9), a reach port. -/
inductive LinkEnd where
  | link (t : Tile) (l : Fin 11)
  | die (t : Tile) (s : PSite)
  | express (t : Tile) (p : Fin 4)
  | reach (p : Fin 32)
  deriving DecidableEq, Repr

/-- A class buffer whose ON/OFF state is judged (R241, R263): of a base router's input port (Table 8.2), of a cluster router, of
the reach stage of a port, or of the stage at the far end of a port's fibre. -/
inductive BufRef where
  | base (t : Tile) (port : BitVec 4)
  | cluster (c : Clu)
  | stage (p : Fin 32)
  | far (p : Fin 32)
  deriving DecidableEq, Repr

/-- A cartridge that is inserted (R328): its serial number; have its wavelengths locked? -/
structure CartIn where
  serial : BitVec 32
  locked : Bool
  deriving DecidableEq, Repr

/-- A VAT_CREATE (R470): the command, and the reservations for vat 0 that the resident manager changes before it (R120). -/
structure CreateIn where
  id : Nat
  reserve : List (Tile × Fin 5)
  deriving DecidableEq, Repr

/-- The end of a formation (R474, R475): the modules whose host port is cabled; the lead of a system that had formed before. -/
structure FormIn where
  cabled : List Nat
  joined : Option (BitVec 6)
  deriving DecidableEq, Repr

/-- What an injector's timer runs for (R252): an F operation, or a numbered access of the S-core. -/
inductive OpRef where
  | fop (opid : BitVec 4)
  | smem (stream seq : Nat)
  deriving DecidableEq, Repr

/-- A training proposal (Table 11.3), from the end that sends it; bad lanes are group × 2048 + lane. -/
structure Proposal where
  linkId : BitVec 32
  reset : Bool
  attempt : BitVec 2
  widthTx : BitVec 4
  widthRx : BitVec 4
  groupsTx : BitVec 8
  groupsRx : BitVec 8
  badTx : List Nat
  badRx : List Nat
  crc : BitVec 32
  deriving DecidableEq, Repr

/-- What a training attempt meets at this end (R317, R318): whether this end has lost its link state, the lanes it finds bad in
its receiving direction, the peer's proposal where one arrives within 20 µs, and whether the test flits pass. -/
structure TrainIn where
  ownReset : Bool
  ownBad : List Nat
  peer : Option Proposal
  flitsOk : Bool
  deriving DecidableEq, Repr

/-- What a reach port's training attempt meets (R332): a peer, its module, port and torus size, the lanes that each end finds good,
and the test flits. -/
structure ReachIn where
  peer : Bool
  peerModule : BitVec 6
  peerPort : BitVec 5
  peerZ : BitVec 3
  ownGood : BitVec 8
  peerGood : BitVec 8
  flitsOk : Bool
  deriving DecidableEq, Repr

/-- What retires a reach port (R333): its symbols, corrected symbols and uncorrectable codewords of the last second, with the flits
those overlap, or the loss of its peer. -/
inductive ReachLoss where
  | fec (symbols corrected uncorr flits : Nat)
  | peerLost
  deriving DecidableEq, Repr

/-- A reducing point of a tile (R298): a node entry or a sink entry. -/
inductive ReducePoint where
  | node (n : BitVec 6)
  | sink (k : BitVec 4)
  deriving DecidableEq, Repr

/-- Activity of one cluster in a metering interval (R358). -/
structure Activity where
  macs : Nat
  lanes : Nat
  lines : Nat
  deriving DecidableEq, Repr

/-- What the meter of a tile reads in one microsecond (R357): the cell and the seven die sites, in µJ, with the
activity of the clusters of each die. -/
structure EnergySample where
  tile : Tile
  cell : Nat
  dies : List Nat
  acts : List (List Activity)
  deriving DecidableEq, Repr

/-- Device DMA of an NVMe controller (R187). -/
inductive DmaDir where
  | read (n : Nat)
  | write (data : List Byte)
  deriving DecidableEq, Repr

/-- Verdicts of the two signature checks of an envelope, command or token (R489, R496). -/
structure Sigs where
  ecdsa : Bool
  mldsa : Bool
  deriving DecidableEq, Repr

/-- Which slots of the flash verify at SVC_BOOT as to their signatures (R441, R489). -/
structure BootIn where
  svcA : Sigs
  svcB : Sigs
  culA : Sigs
  culB : Sigs
  deriving DecidableEq, Repr

/-- A die at TILE_POWER (R431): is it present, and does its ramp reach regulation (R356). -/
structure DiePower where
  tile : Tile
  site : PSite
  rampOk : Bool
  deriving DecidableEq, Repr

/-- A unit under neighbour test (Table 15.2). -/
inductive UnitRef where
  | scratch (c : Core)
  | router (c : Clu)
  | link (t : Tile) (s : PSite)
  deriving DecidableEq, Repr

/-- Results of SELF_TEST (R433): dies (tile × 8 + site) whose BIST fails, dies with a unit bad by fuse, dies whose
fuse block fails its CRC-16, tiles whose base die fails, the SHA-384 of all fuse blocks (R437), and the bad lanes and lane
groups of any link (R423), as keys of the lane history (direction × 16384 + group × 2048 + lane, direction × 8 + group). -/
structure SelfTestIn where
  bistFail : List Nat
  fuseBad : List Nat
  fuseCrcBad : List Nat
  baseFail : List Nat
  digest : Nat
  badLanes : List Nat
  badGroups : List Nat
  deriving DecidableEq, Repr

/-- Results of NEIGHBOUR_TEST (R434, R435): the units that tester 1, tester 2 and the next further tester accuse, the
units whose single accuser fails its retest, and the units that fail their own rerun. -/
structure NeighbourIn where
  accuse1 : List UnitRef
  accuse2 : List UnitRef
  accuse3 : List UnitRef
  accuserFails : List UnitRef
  ownFails : List UnitRef
  deriving DecidableEq, Repr

/-- A T3 port at MEM_TRAIN or MEM_RESTORE (R185, R186): trained or not, speed and width, the device's capacity in
256 MiB units. -/
structure T3In where
  port : Fin 8
  up : Bool
  speed : BitVec 3
  width : BitVec 5
  capacity : Nat
  deriving DecidableEq, Repr

/-- Results of memory training (R439, R452). -/
structure MemTrainIn where
  stackFail : List Nat
  pkgFail : List Nat
  ports : List T3In
  deriving DecidableEq, Repr

/-- A culture unit (R442): one per cluster router, one per base die. -/
inductive CulUnit where
  | clu (c : Clu)
  | base (t : Tile)
  deriving DecidableEq, Repr

/-- A management interface (Table 17.1). -/
inductive MgmtIf where
  | redfish | mctp
  deriving DecidableEq, Repr

/-- A firmware update (R489, R490): component 1 = service firmware, 2 = culture, the image, its envelope, the
signature verdicts, and whether the update is interrupted. -/
structure UpdateIn where
  culture : Bool
  data : List Byte
  svn : BitVec 16
  keyIndex : BitVec 2
  release : BitVec 32
  sigs : Sigs
  interrupted : Bool
  deriving DecidableEq, Repr

/-- A replica path's report (R383): site (7 = base die), path, slack in 5 ps steps, and whether the path has reported 0 in
every cycle of the last millisecond while the other paths of its die reported 8 or more. -/
structure PathReport where
  site : Fin 8
  path : Fin 16
  slack : BitVec 6
  broken : Bool
  deriving DecidableEq, Repr

/-- What telemetry can be asked for (Table 17.4): a PLDM sensor id, the state of a link, an express port or a reach port,
the newest congestion record, and the means of an output port over the last second. -/
inductive TelItem where
  | sensor (id : BitVec 16)
  | link (t : Tile) (l : Fin 11)
  | express (t : Tile) (p : Fin 4)
  | reach (p : Fin 32)
  | congestion
  | portMeans (t : Tile) (p : Fin 7)
  deriving DecidableEq, Repr

/-- The SPDM requests the responder answers (R488). -/
inductive SpdmReq where
  | getVersion | getCapabilities | negotiateAlgorithms | getDigests | getCertificate | challenge
  | getMeasurements (index : Nat)
  deriving DecidableEq, Repr

/-- A re-grade record (R495): the fuse revision row it writes (is the die bad by it, is its CRC valid), the lane history
entries it clears: lanes, retired groups and skew edges, and the SHA-384 of all fuse blocks after it (Table 17.3). -/
structure Grade where
  bad : Bool
  crcOk : Bool
  clearLanes : List Nat
  clearGroups : List Nat
  clearEdges : List Nat
  digest : Nat
  deriving DecidableEq, Repr

/-- Temperatures of a tile's sensors in one millisecond, °C (R493): reading 4 s + k is of sensor k of the die at physical
site s, readings from 28 on are of the base die. -/
structure TempSample where
  tile : Tile
  readings : List Nat
  deriving DecidableEq, Repr

/-- The commands, in the order of spec/opcode_table.json. -/
inductive Instr where
  /-- REGISTER_WRITE (R7). -/
  | registerWrite (sp : RegSpace) (addr : Nat) (v : Word)
  /-- MIGRATE (R413). -/
  | migrate (t : Tile) (lsite : BitVec 3)
  /-- MIGRATE_PREEMPT (R414). -/
  | migratePreempt (t : Tile) (lsite : BitVec 3)
  /-- SUBSTITUTE (R412). -/
  | substitute (t : Tile) (lsite : BitVec 3) (out : SubstOut)
  /-- MIGRATE_DRAIN_TIMEOUT (R413). -/
  | migrateDrainTimeout (t : Tile)
  /-- DIE_LOSS (R405). -/
  | dieLoss (t : Tile) (ps : PSite) (why : LossWhy) (out : SubstOut)
  /-- SUBSTITUTE_FAILED (R409). -/
  | substituteFailed (t : Tile)
  /-- BIST_COMPLETE (R415). -/
  | bistComplete (t : Tile) (ps : PSite) (r : BistResult)
  /-- TEST_DRY (R419). -/
  | testDry (t : Tile)
  /-- DRY_SITE_ROTATION (R417). -/
  | drySiteRotation (t : Tile)
  /-- SCRATCH_UE_REPORT (R154). -/
  | scratchUeReport (c : Core) (word : BitVec 21) (src : BitVec 3) (kept : Bool)
  /-- VF_DISABLE (R420). -/
  | vfDisable (vf : BitVec 6)
  /-- VAT_ID_DRAIN_TIMEOUT (R420). -/
  | vatIdDrainTimeout (vat : BitVec 8)
  /-- HEARTBEAT (R400). -/
  | heartbeat (t : Tile)
  /-- HEARTBEAT_LOSS (R400). -/
  | heartbeatLoss (t : Tile)
  /-- CMD_ENTRY_CREATE (R131). -/
  | cmdEntryCreate (c : Clu) (isM : Bool) (op : BitVec 8) (f : FmtQ)
  /-- QUEUE_DISPATCH (R114). -/
  | queueDispatch (c : Clu) (q : Queue)
  /-- M_MMA (R76). -/
  | mMma (c : Clu) (q : Queue) (folds : Nat)
  /-- M_SIG (R114). -/
  | mSig (c : Clu) (q : Queue)
  /-- M_LDW (R149). -/
  | mLdw (c : Clu) (q : Queue)
  /-- SPILL_REQUEST (R79). -/
  | spillRequest (c : Core) (reason : SpillReason)
  /-- SPILL_STOP_POINT (R81). -/
  | spillStopPoint (c : Core)
  /-- HOLD_REQUEST (R79). -/
  | holdRequest (c : Core)
  /-- HOLD_LIFT (R79). -/
  | holdLift (c : Core)
  /-- ABANDON (R79). -/
  | abandon (c : Core)
  /-- SPILL_RESUME (R83). -/
  | spillResume (c : Core)
  /-- ARRAY_CHECK_FAILURE (R87). -/
  | arrayCheckFailure (c : Core) (src : CheckSource) (col : BitVec 7) (row : BitVec 8)
  /-- COMMAND_COMPLETION (R135). -/
  | commandCompletion (c : Clu) (q : Queue)
  /-- COMMAND_FAILURE (R117). -/
  | commandFailure (c : Clu) (q : Queue)
  /-- RETRY (R117). -/
  | retry (c : Clu) (q : Queue)
  /-- SKIP (R117). -/
  | skip (c : Clu) (q : Queue)
  /-- FLUSH (R117). -/
  | flush (c : Clu) (q : Queue)
  /-- V_SIG (R114). -/
  | vSig (c : Clu) (q : Queue)
  /-- V_ADD (R94). -/
  | vAdd (c : Clu) (q : Queue)
  /-- V_SUB (R94). -/
  | vSub (c : Clu) (q : Queue)
  /-- V_MUL (R94). -/
  | vMul (c : Clu) (q : Queue)
  /-- V_MIN (R94). -/
  | vMin (c : Clu) (q : Queue)
  /-- V_MAX (R94). -/
  | vMax (c : Clu) (q : Queue)
  /-- V_FMA (R94). -/
  | vFma (c : Clu) (q : Queue)
  /-- V_CMP (R94). -/
  | vCmp (c : Clu) (q : Queue)
  /-- V_AND (R133). -/
  | vAnd (c : Clu) (q : Queue)
  /-- V_OR (R133). -/
  | vOr (c : Clu) (q : Queue)
  /-- V_XOR (R133). -/
  | vXor (c : Clu) (q : Queue)
  /-- V_SHL (R133). -/
  | vShl (c : Clu) (q : Queue)
  /-- V_SHR (R133). -/
  | vShr (c : Clu) (q : Queue)
  /-- V_CVT (R63). -/
  | vCvt (c : Clu) (q : Queue)
  /-- V_EXP2 (R95). -/
  | vExp2 (c : Clu) (q : Queue)
  /-- V_LOG2 (R95). -/
  | vLog2 (c : Clu) (q : Queue)
  /-- V_RCP (R95). -/
  | vRcp (c : Clu) (q : Queue)
  /-- V_RSQRT (R95). -/
  | vRsqrt (c : Clu) (q : Queue)
  /-- V_RSUM (R94). -/
  | vRsum (c : Clu) (q : Queue)
  /-- V_RMAX (R94). -/
  | vRmax (c : Clu) (q : Queue)
  /-- V_RMIN (R94). -/
  | vRmin (c : Clu) (q : Queue)
  /-- SMX_STEP (R98). -/
  | smxStep (c : Clu) (q : Queue)
  /-- SMX_RESCALE (R100). -/
  | smxRescale (c : Clu) (q : Queue)
  /-- SMX_FINAL (R100). -/
  | smxFinal (c : Clu) (q : Queue)
  /-- ROPE (R103). -/
  | rope (c : Clu) (q : Queue)
  /-- GATHER (R104). -/
  | gather (c : Clu) (q : Queue)
  /-- SCATTER (R105). -/
  | scatter (c : Clu) (q : Queue)
  /-- TOPK (R106). -/
  | topk (c : Clu) (q : Queue)
  /-- V_CORE_SPILL (R107). -/
  | vCoreSpill (c : Core)
  /-- V_OPERAND_ECC (R108). -/
  | vOperandEcc (c : Core)
  /-- S_CORE_SPILL (R112). -/
  | sCoreSpill (c : Clu)
  /-- S_CORE_RESUME (R112). -/
  | sCoreResume (c : Clu)
  /-- EXCEPTION_ENTRY (R144). -/
  | exceptionEntry (c : Clu)
  /-- WAIT_CONDITION_MET (R127). -/
  | waitConditionMet (c : Clu)
  /-- WAIT_TIMEOUT (R141). -/
  | waitTimeout (c : Clu)
  /-- NOP (R122). -/
  | nop (c : Clu) (f : FmtR)
  /-- ADD (R125). -/
  | add (c : Clu) (f : FmtR)
  /-- SUB (R125). -/
  | sub (c : Clu) (f : FmtR)
  /-- AND (R125). -/
  | andR (c : Clu) (f : FmtR)
  /-- OR (R125). -/
  | orR (c : Clu) (f : FmtR)
  /-- XOR (R125). -/
  | xorR (c : Clu) (f : FmtR)
  /-- SHL (R125). -/
  | shl (c : Clu) (f : FmtR)
  /-- SHR (R125). -/
  | shr (c : Clu) (f : FmtR)
  /-- SRA (R125). -/
  | sra (c : Clu) (f : FmtR)
  /-- SLT (R125). -/
  | slt (c : Clu) (f : FmtR)
  /-- SLTU (R125). -/
  | sltu (c : Clu) (f : FmtR)
  /-- ADDI (R125). -/
  | addi (c : Clu) (f : FmtI)
  /-- ANDI (R125). -/
  | andi (c : Clu) (f : FmtI)
  /-- ORI (R125). -/
  | ori (c : Clu) (f : FmtI)
  /-- XORI (R125). -/
  | xori (c : Clu) (f : FmtI)
  /-- SHLI (R125). -/
  | shli (c : Clu) (f : FmtI)
  /-- SHRI (R125). -/
  | shri (c : Clu) (f : FmtI)
  /-- SRAI (R125). -/
  | srai (c : Clu) (f : FmtI)
  /-- LI (R124). -/
  | li (c : Clu) (f : FmtI)
  /-- LIH (R124). -/
  | lih (c : Clu) (f : FmtI)
  /-- MUL (R125). -/
  | mul (c : Clu) (f : FmtR)
  /-- MULH (R125). -/
  | mulh (c : Clu) (f : FmtR)
  /-- MULHU (R125). -/
  | mulhu (c : Clu) (f : FmtR)
  /-- DIV (R125). -/
  | div (c : Clu) (f : FmtR)
  /-- DIVU (R125). -/
  | divu (c : Clu) (f : FmtR)
  /-- REM (R125). -/
  | rem (c : Clu) (f : FmtR)
  /-- REMU (R125). -/
  | remu (c : Clu) (f : FmtR)
  /-- FADD_S (R126). -/
  | faddS (c : Clu) (f : FmtR)
  /-- FSUB_S (R126). -/
  | fsubS (c : Clu) (f : FmtR)
  /-- FMUL_S (R126). -/
  | fmulS (c : Clu) (f : FmtR)
  /-- FMA_S (R126). -/
  | fmaS (c : Clu) (f : FmtR)
  /-- FDIV_S (R126). -/
  | fdivS (c : Clu) (f : FmtR)
  /-- FSQRT_S (R126). -/
  | fsqrtS (c : Clu) (f : FmtR)
  /-- FMIN_S (R126). -/
  | fminS (c : Clu) (f : FmtR)
  /-- FMAX_S (R126). -/
  | fmaxS (c : Clu) (f : FmtR)
  /-- FADD_D (R126). -/
  | faddD (c : Clu) (f : FmtR)
  /-- FSUB_D (R126). -/
  | fsubD (c : Clu) (f : FmtR)
  /-- FMUL_D (R126). -/
  | fmulD (c : Clu) (f : FmtR)
  /-- FMA_D (R126). -/
  | fmaD (c : Clu) (f : FmtR)
  /-- FDIV_D (R126). -/
  | fdivD (c : Clu) (f : FmtR)
  /-- FSQRT_D (R126). -/
  | fsqrtD (c : Clu) (f : FmtR)
  /-- FMIN_D (R126). -/
  | fminD (c : Clu) (f : FmtR)
  /-- FMAX_D (R126). -/
  | fmaxD (c : Clu) (f : FmtR)
  /-- FCVT_S_D (R126). -/
  | fcvtSD (c : Clu) (f : FmtR)
  /-- FCVT_D_S (R126). -/
  | fcvtDS (c : Clu) (f : FmtR)
  /-- FCVT_S_X (R126). -/
  | fcvtSX (c : Clu) (f : FmtR)
  /-- FCVT_D_X (R126). -/
  | fcvtDX (c : Clu) (f : FmtR)
  /-- FCVT_X_S (R126). -/
  | fcvtXS (c : Clu) (f : FmtR)
  /-- FCVT_X_D (R126). -/
  | fcvtXD (c : Clu) (f : FmtR)
  /-- FMV_X_F (R124). -/
  | fmvXF (c : Clu) (f : FmtR)
  /-- FMV_F_X (R124). -/
  | fmvFX (c : Clu) (f : FmtR)
  /-- FEQ_S (R126). -/
  | feqS (c : Clu) (f : FmtR)
  /-- FLT_S (R126). -/
  | fltS (c : Clu) (f : FmtR)
  /-- FEQ_D (R126). -/
  | feqD (c : Clu) (f : FmtR)
  /-- FLT_D (R126). -/
  | fltD (c : Clu) (f : FmtR)
  /-- CMD_TAG (R113). -/
  | cmdTag (c : Clu) (f : FmtR)
  /-- CMD_WAIT (R113). -/
  | cmdWait (c : Clu) (f : FmtR)
  /-- CMD_SIG (R113). -/
  | cmdSig (c : Clu) (f : FmtR)
  /-- CTR_RD (R115). -/
  | ctrRd (c : Clu) (f : FmtI)
  /-- CTR_WR (R115). -/
  | ctrWr (c : Clu) (f : FmtI)
  /-- CTR_ADD (R126). -/
  | ctrAdd (c : Clu) (f : FmtI)
  /-- XRD (R142). -/
  | xrd (c : Clu) (f : FmtI)
  /-- XWR (R142). -/
  | xwr (c : Clu) (f : FmtI)
  /-- BEQ (R123). -/
  | beq (c : Clu) (f : FmtB)
  /-- BNE (R123). -/
  | bne (c : Clu) (f : FmtB)
  /-- BLT (R123). -/
  | blt (c : Clu) (f : FmtB)
  /-- BGE (R123). -/
  | bge (c : Clu) (f : FmtB)
  /-- BLTU (R123). -/
  | bltu (c : Clu) (f : FmtB)
  /-- BGEU (R123). -/
  | bgeu (c : Clu) (f : FmtB)
  /-- JAL (R123). -/
  | jal (c : Clu) (f : FmtB)
  /-- JALR (R123). -/
  | jalr (c : Clu) (f : FmtB)
  /-- WAITC (R127). -/
  | waitc (c : Clu) (f : FmtB)
  /-- RETX (R147). -/
  | retx (c : Clu) (f : FmtB)
  /-- LB (R128). -/
  | lb (c : Clu) (f : FmtM)
  /-- LH (R128). -/
  | lh (c : Clu) (f : FmtM)
  /-- LW (R128). -/
  | lw (c : Clu) (f : FmtM)
  /-- LD (R128). -/
  | ld (c : Clu) (f : FmtM)
  /-- LBU (R128). -/
  | lbu (c : Clu) (f : FmtM)
  /-- LHU (R128). -/
  | lhu (c : Clu) (f : FmtM)
  /-- LWU (R128). -/
  | lwu (c : Clu) (f : FmtM)
  /-- SB (R128). -/
  | sb (c : Clu) (f : FmtM)
  /-- SH (R128). -/
  | sh (c : Clu) (f : FmtM)
  /-- SW (R128). -/
  | sw (c : Clu) (f : FmtM)
  /-- SD (R128). -/
  | sd (c : Clu) (f : FmtM)
  /-- FLW (R128). -/
  | flw (c : Clu) (f : FmtM)
  /-- FLD (R128). -/
  | fld (c : Clu) (f : FmtM)
  /-- FSW (R128). -/
  | fsw (c : Clu) (f : FmtM)
  /-- FSD (R128). -/
  | fsd (c : Clu) (f : FmtM)
  /-- AMOADD_D (R129). -/
  | amoaddD (c : Clu) (f : FmtM)
  /-- AMOSWAP_D (R129). -/
  | amoswapD (c : Clu) (f : FmtM)
  /-- MFENCE (R128). -/
  | mfence (c : Clu) (f : FmtM)
  /-- P_SET (R159). -/
  | pSet (c : Clu) (f : FmtP)
  /-- P_FREE (R160). -/
  | pFree (c : Clu) (f : FmtP)
  /-- P_FILL (R136). -/
  | pFill (c : Clu) (f : FmtP)
  /-- P_COPY (R136). -/
  | pCopy (c : Clu) (f : FmtP)
  /-- MSE_COMPLETION (R137). -/
  | mseCompletion (c : Core)
  /-- F_PUT (R139). -/
  | fPut (c : Clu) (f : FmtF)
  /-- F_GET (R139). -/
  | fGet (c : Clu) (f : FmtF)
  /-- F_CHURN (R284). -/
  | fChurn (c : Clu) (f : FmtF)
  /-- F_WAIT (R140). -/
  | fWait (c : Clu) (f : FmtF)
  /-- F_OPERATION_COMPLETE (R140). -/
  | fOperationComplete (c : Clu) (opid : BitVec 4)
  /-- F_SLOAD (R222). -/
  | fSload (c : Clu) (f : FmtF)
  /-- F_SARM (R223). -/
  | fSarm (c : Clu) (f : FmtF)
  /-- SCHEDULE_ARM (R223). -/
  | scheduleArm
  /-- F_IPAUSE (R267). -/
  | fIpause (c : Clu) (f : FmtF)
  /-- F_IRESUME (R269). -/
  | fIresume (c : Clu) (f : FmtF)
  /-- F_EPOCH (R268). -/
  | fEpoch (c : Clu) (f : FmtF)
  /-- EPOCH_COMMIT (R268). -/
  | epochCommit
  /-- EPOCH_DRAIN_TIMEOUT (R268). -/
  | epochDrainTimeout
  /-- Y_SET (R278). -/
  | ySet (c : Clu) (f : FmtI)
  /-- Y_CLR (R278). -/
  | yClr (c : Clu) (f : FmtI)
  /-- Y_RD (R279). -/
  | yRd (c : Clu) (f : FmtI)
  /-- Y_WAITOR (R279). -/
  | yWaitor (c : Clu) (f : FmtI)
  /-- Y_WAITAND (R279). -/
  | yWaitand (c : Clu) (f : FmtI)
  /-- Y_BAR (R280). -/
  | yBar (c : Clu) (f : FmtI)
  /-- BARRIER_COMPLETION (R280). -/
  | barrierCompletion (vat : BitVec 8)
  /-- E_CLAIM (R360). -/
  | eClaim (c : Clu) (f : FmtI)
  /-- E_STEP (R361). -/
  | eStep (c : Clu) (f : FmtI)
  /-- E_RD (R362). -/
  | eRd (c : Clu) (f : FmtI)
  /-- ADMISSION_EVALUATION (R362). -/
  | admissionEvaluation
  /-- C_SVC (R143). -/
  | cSvc (c : Clu) (f : FmtI)
  /-- C_ENTER (R142). -/
  | cEnter (c : Clu) (f : FmtR)
  /-- C_FENCE (R401). -/
  | cFence (c : Clu) (f : FmtR)
  /-- PATROL_SCRUB (R156). -/
  | patrolScrub (c : Core)
  /-- CORRECTED_WRITE_BACK (R153). -/
  | correctedWriteBack (c : Core) (word : BitVec 21)
  /-- TIER_MOVER_DESCRIPTOR_START (R197). -/
  | tierMoverDescriptorStart (t : Tile) (mv : Fin 4)
  /-- TIER_MOVER_COPY (R195). -/
  | tierMoverCopy (t : Tile) (mv : Fin 4)
  /-- TRANSPOSE (R195). -/
  | transpose (t : Tile) (mv : Fin 4)
  /-- KV_READ (R203). -/
  | kvRead (t : Tile) (mv : Fin 4)
  /-- KV_WRITE (R203). -/
  | kvWrite (t : Tile) (mv : Fin 4)
  /-- ZERO (R195). -/
  | zero (t : Tile) (mv : Fin 4)
  /-- TIER_MOVER_DESCRIPTOR_END (R198). -/
  | tierMoverDescriptorEnd (t : Tile) (mv : Fin 4)
  /-- TIER_GRANT_WRITE (R190). -/
  | tierGrantWrite (vat : BitVec 8) (win : BitVec 4) (v : Word)
  /-- T3_LINK_DOWN (R188). -/
  | t3LinkDown (port : Fin 8)
  /-- T3_READ_TIMEOUT (R188). -/
  | t3ReadTimeout (port : Fin 8) (pid : Nat)
  /-- NVME_INBOUND_DMA (R187). -/
  | nvmeInboundDma (port : Fin 8) (busAddr : Word) (dir : DmaDir)
  /-- SCHEDULED_INJECTION (R216). -/
  | scheduledInjection (c : Core)
  /-- SCHEDULED_HOP (R213). -/
  | scheduledHop (t : Tile)
  /-- SCHEDULED_DELIVERY (R225); the bits that link errors have flipped on the transfer's way, counted from the first bit of each part:
  of the header, of the payload and its padding, of the header's copy and what follows it (Table 8.6). -/
  | scheduledDelivery (t : Tile) (lsite : BitVec 3) (lg : BitVec 3) (hdr : List Nat) (body : List Nat) (copy : List Nat)
  /-- REPAIR_TIMEOUT (R226). -/
  | repairTimeout (rid : Nat)
  /-- SLOT_BOUNDARY (R235). -/
  | slotBoundary
  /-- STRETCH_EVENT (R384). -/
  | stretchEvent (t : Tile) (reports : List PathReport)
  /-- HELD_SLOT (R237). -/
  | heldSlot
  /-- LANE_GROUP_RETIREMENT (R229). -/
  | laneGroupRetirement (t : Tile) (link : Fin 11) (rx : Bool) (group : BitVec 3)
  /-- WHEY_SLOT_PRBS (R312). -/
  | wheySlotPrbs (e : LinkEnd) (group : BitVec 3) (lane : Nat) (errs : Nat)
  /-- WRITE (R249). -/
  | write (pid : Nat)
  /-- READ_REQ (R249). -/
  | readReq (pid : Nat)
  /-- LOAD (R251). -/
  | load (pid : Nat)
  /-- STORE (R251). -/
  | store (pid : Nat)
  /-- AMO (R129). -/
  | amo (pid : Nat)
  /-- ACK (R250). -/
  | ack (pid : Nat)
  /-- NACK (R250). -/
  | nack (pid : Nat)
  /-- READ_RESP (R249). -/
  | readResp (pid : Nat)
  /-- LOAD_RESP (R250). -/
  | loadResp (pid : Nat)
  /-- RESEND (R250). -/
  | resend (pid : Nat)
  /-- RETRY_PACKET (R250). -/
  | retryPacket (pid : Nat)
  /-- RETRY_RESEND_TIMER (R251). -/
  | retryResendTimer (pid : Nat)
  /-- REPAIR_REQ (R226). -/
  | repairReq (pid : Nat)
  /-- REPAIR_DATA (R226). -/
  | repairData (pid : Nat)
  /-- REPAIR_LATE (R226). -/
  | repairLate (pid : Nat)
  /-- PACKET_HOP_SOURCE_ROUTE (R255). -/
  | packetHopSourceRoute (pid : Nat)
  /-- PACKET_HOP_BURBOID (R258). -/
  | packetHopBurboid (pid : Nat)
  /-- OP_TIMEOUT (R252). -/
  | opTimeout (c : Clu) (o : OpRef)
  /-- PACKET_TRUNCATION (R272). -/
  | packetTruncation (pid : Nat)
  /-- DYN_BUF_WRITE (R262). -/
  | dynBufWrite (t : Tile) (v : Word)
  /-- FLIT_RECEIVE (R310): a flit's 252 bytes and the CRC-32C that came with them (R309). -/
  | flitReceive (l : LinkEnd) (group : BitVec 3) (seq : Nat) (cls : BitVec 2) (crc : BitVec 32) (data : List Byte)
  /-- REPLAY_REQUEST (R310). -/
  | replayRequest (l : LinkEnd) (seq : Nat)
  /-- FLIT_ACK (R310). -/
  | flitAck (l : LinkEnd) (seq : Nat)
  /-- CREDIT_RETURN (R311). -/
  | creditReturn (l : LinkEnd) (cls : BitVec 2) (pool : Bool)
  /-- CLASS_ON_OFF (R263); `off` is what the message of a far stage says, the other buffers are judged. -/
  | classOnOff (b : BufRef) (cls : BitVec 2) (off : Bool)
  /-- CONTROL_PAIR_FAILURE (R308). -/
  | controlPairFailure (t : Tile) (link : Fin 11) (rx : Bool)
  /-- TRAINING_ATTEMPT (R317). -/
  | trainingAttempt (t : Tile) (link : Fin 11) (p : TrainIn)
  /-- EXPRESS_RETRAIN (R323). -/
  | expressRetrain (t : Tile) (col : Bool) (liveTx : BitVec 32) (liveRx : BitVec 32)
  /-- CARTRIDGE_FAULT (R325). -/
  | cartridgeFault (cart : Fin 4)
  /-- INTERLOCK_OPEN (R326). -/
  | interlockOpen (cart : Fin 4)
  /-- CARTRIDGE_RELEASE (R328). -/
  | cartridgeRelease (cart : Fin 4)
  /-- CARTRIDGE_INSERT (R328). -/
  | cartridgeInsert (cart : Fin 4) (x : CartIn)
  /-- REACH_TRAINING (R332). -/
  | reachTraining (port : Fin 32) (p : ReachIn)
  /-- REACH_RETIREMENT (R333). -/
  | reachRetirement (port : Fin 32) (why : ReachLoss)
  /-- REACH_ENABLE (R333). -/
  | reachEnable (port : Fin 32)
  /-- INJECTION_ARM (R340). -/
  | injectionArm (t : Tile) (v : Word)
  /-- INJECTION_EVENT (R334). -/
  | injectionEvent (t : Tile)
  /-- CH_VAT_WRITE (R283). -/
  | chVatWrite (vat : BitVec 8) (v : Word)
  /-- CHURN_STAGE (R289). -/
  | churnStage (pid : Nat)
  /-- NODE_HOLD_EXPIRY (R288). -/
  | nodeHoldExpiry (t : Tile) (node : BitVec 6)
  /-- CHURN_SINK_APPLY (R291). -/
  | churnSinkApply (pid : Nat)
  /-- WINDOW_DEADLINE (R300). -/
  | windowDeadline (t : Tile) (p : ReducePoint)
  /-- WINDOW_TAIL_LIMIT (R300). -/
  | windowTailLimit (t : Tile) (p : ReducePoint)
  /-- EXP_LOCAL_WRITE (R294). -/
  | expLocalWrite (m : BitVec 6) (lane : BitVec 6) (exp : BitVec 16) (tag : BitVec 16)
  /-- SEAL (R294). -/
  | seal (m : BitVec 6) (lane : BitVec 6)
  /-- STEP_LOOP_STEP (R479). -/
  | stepLoopStep (vat : BitVec 8)
  /-- BUSBAR_MATE (R369). -/
  | busbarMate
  /-- ENABLE_PIN_MATE (R504). -/
  | enablePinMate
  /-- ENABLE_PIN_BREAK (R504). -/
  | enablePinBreak
  /-- PRECHARGE (R345). -/
  | precharge (vin : Nat) (vbulk : Nat) (flow : Nat) (inlet : Nat)
  /-- PRECHARGE_TIMEOUT (R345). -/
  | prechargeTimeout
  /-- COOLANT_WAIT_END (R369). -/
  | coolantWaitEnd (flow : Nat) (inlet : Nat)
  /-- INPUT_DIP (R346). -/
  | inputDip
  /-- INPUT_LOSS (R346). -/
  | inputLoss
  /-- INPUT_LOSS_CELL_OFF (R346). -/
  | inputLossCellOff
  /-- OVERCURRENT_TRIP (R343). -/
  | overcurrentTrip
  /-- OVERVOLTAGE_TRIP (R343). -/
  | overvoltageTrip
  /-- OVERVOLTAGE_RECOVERY (R343). -/
  | overvoltageRecovery
  /-- CELL_SHORT (R351). -/
  | cellShort (t : Tile) (under : Bool)
  /-- VLNK_LOSS (R352). -/
  | vlnkLoss (t : Tile) (under : Bool)
  /-- VLNK_FEED_LOSS (R349). -/
  | vlnkFeedLoss (t : Tile) (own : Bool)
  /-- SENSOR_EXCLUSION (R350). -/
  | sensorExclusion (t : Tile) (dom : Fin 5) (mv : List Nat)
  /-- POWER_UP_RESERVATION (R354). -/
  | powerUpReservation (t : Tile) (ps : PSite)
  /-- RESERVATION_GRANT (R354). -/
  | reservationGrant (t : Tile)
  /-- RESERVATION_TIMEOUT (R354). -/
  | reservationTimeout (t : Tile)
  /-- RAMP_CHECK_POLL (R355). -/
  | rampCheckPoll (t : Tile)
  /-- RAMP_FAILURE (R356). -/
  | rampFailure (t : Tile)
  /-- METER_TICK (R357). -/
  | meterTick (es : List EnergySample)
  /-- CAP_W_WRITE (R359). -/
  | capWWrite (w : BitVec 15)
  /-- ENERGY_WINDOW_START (R359). -/
  | energyWindowStart
  /-- THROTTLE_FRAME (R365). -/
  | throttleFrame
  /-- OVER_CLAIM (R366). -/
  | overClaim (vat : BitVec 8)
  /-- MODULE_THROTTLE (R367): the means of module power over 500 µs and of input power over 10 ms; the input's voltage and current. -/
  | moduleThrottle (power : Nat × Nat) (input : Nat × Nat)
  /-- TILE_LIMITER (R368). -/
  | tileLimiter (t : Tile) (inst : Nat) (mean10 : Nat) (mean1 : Nat)
  /-- POWER_FORECAST (R364). -/
  | powerForecast
  /-- REMOVE_REQUEST (R370). -/
  | removeRequest
  /-- DRAIN_DONE (R370). -/
  | drainDone
  /-- DRAIN_TIMEOUT (R370). -/
  | drainTimeout
  /-- LATCH_RELEASE (R371). -/
  | latchRelease (vbulk : Nat)
  /-- DISCHARGE_FAILURE (R371). -/
  | dischargeFailure (vbulk : Nat)
  /-- REFERENCE_SWITCH (R375). -/
  | referenceSwitch
  /-- REFERENCE_BOTH_FAIL (R375). -/
  | referenceBothFail
  /-- PLL_LOSS_OF_LOCK (R378). -/
  | pllLossOfLock (t : Tile)
  /-- PLL_RETURN (R379). -/
  | pllReturn (t : Tile)
  /-- NO_CLOCK_SOURCE (R380). -/
  | noClockSource (t : Tile)
  /-- SKEW_TRIM (R381). -/
  | skewTrim (t : Tile) (e : Fin 4) (measured : Int)
  /-- SKEW_ALARM (R382). -/
  | skewAlarm (t : Tile) (e : Fin 4) (detFailed : Bool)
  /-- MARGIN_WARNING (R385). -/
  | marginWarning (t : Tile) (lowCycles : Nat) (stretches : Nat)
  /-- VLOG_TRIM (R386). -/
  | vlogTrim (t : Tile)
  /-- DIV_REQ (R389). -/
  | divReq (t : Tile) (setting : BitVec 2)
  /-- TIME_EXCHANGE (R392). -/
  | timeExchange (offset : Int) (rate : Int)
  /-- TIME_MASTER_CHANGE (R393). -/
  | timeMasterChange (up : List Nat)
  /-- TIME_HOLDOVER (R393). -/
  | timeHoldover
  /-- SVC_BOOT (R441). -/
  | svcBoot (b : BootIn)
  /-- TILE_POWER (R431). -/
  | tilePower (dies : List DiePower)
  /-- CLOCK_FWD (R376). -/
  | clockFwd
  /-- LINK_TRAIN (R432). -/
  | linkTrain
  /-- SELF_TEST (R433). -/
  | selfTest (r : SelfTestIn)
  /-- NEIGHBOUR_TEST (R435). -/
  | neighbourTest (r : NeighbourIn)
  /-- MAP_RECONCILE (R436). -/
  | mapReconcile
  /-- CLOCK_MESH (R438). -/
  | clockMesh
  /-- MEM_TRAIN (R439). -/
  | memTrain (r : MemTrainIn)
  /-- CULTURE (R443). -/
  | culture
  /-- CHUNK (R443). -/
  | chunk (u : CulUnit) (idx : BitVec 12) (crcOk : Bool)
  /-- MISSING_BITMAP_OR (R444). -/
  | missingBitmapOr
  /-- CHUNK_FETCH (R445). -/
  | chunkFetch (u : CulUnit) (tgt : Fin 6)
  /-- CULTURE_CONFIRM_DEADLINE (R446). -/
  | cultureConfirmDeadline
  /-- CULTURE_RELOAD (R448). -/
  | cultureReload (c : Core)
  /-- READY (R449). -/
  | ready
  /-- BRINGUP_STATE_TIMEOUT (R430). -/
  | bringupStateTimeout
  /-- CORE_RESET (R456). -/
  | coreReset (c : Core)
  /-- DIE_COMPUTE_RESET (R456). -/
  | dieComputeReset (t : Tile) (ps : PSite)
  /-- TILE_COMPUTE_RESET (R456). -/
  | tileComputeReset (t : Tile)
  /-- PANEL_COMPUTE_RESET (R456). -/
  | panelComputeReset
  /-- WARM_MODULE_RESET (R452). -/
  | warmModuleReset
  /-- COLD_RESET (R455). -/
  | coldReset
  /-- LINK_RESUME (R321). -/
  | linkResume (disagree : List Nat)
  /-- MAP_RESTORE (R452). -/
  | mapRestore (digest : Nat)
  /-- MEM_RESTORE (R452). -/
  | memRestore (r : MemTrainIn)
  /-- WARM_FALLBACK (R454). -/
  | warmFallback (code : BitVec 3)
  /-- QUEUE_ENABLE (R465). -/
  | queueEnable (fn : BitVec 7) (q : BitVec 5)
  /-- QUEUE_DISABLE (R465). -/
  | queueDisable (fn : BitVec 7) (q : BitVec 5)
  /-- SQ_TAIL_DOORBELL (R466). -/
  | sqTailDoorbell (fn : BitVec 7) (q : BitVec 5) (tail : Nat)
  /-- CQ_HEAD_DOORBELL (R466). -/
  | cqHeadDoorbell (fn : BitVec 7) (q : BitVec 5) (head : Nat)
  /-- CSR_DATA_ACCESS (R464). -/
  | csrDataAccess (write : Bool) (v : Word)
  /-- VAT_CREATE (R470). -/
  | vatCreate (x : CreateIn)
  /-- VAT_RELEASE (R469). -/
  | vatRelease (id : Nat)
  /-- VF_BIND (R469). -/
  | vfBind (id : Nat)
  /-- WINDOW_GRANT (R469). -/
  | windowGrant (id : Nat)
  /-- RESET (R469). -/
  | reset (id : Nat)
  /-- LOG_READ (R469). -/
  | logRead (id : Nat)
  /-- EVENT_WAIT (R472). -/
  | eventWait (id : Nat)
  /-- COPY (R469). -/
  | copy (id : Nat)
  /-- START (R469). -/
  | start (id : Nat)
  /-- RUN_STEPS (R479). -/
  | runSteps (id : Nat)
  /-- LOAD_DATA (R478). -/
  | loadData (id : Nat)
  /-- CHECKPOINT (R480). -/
  | checkpoint (id : Nat)
  /-- RESTORE (R480). -/
  | restore (id : Nat)
  /-- SERVE (R481). -/
  | serve (id : Nat)
  /-- SEQ_RELEASE (R481). -/
  | seqRelease (id : Nat)
  /-- PAUSE (R483). -/
  | pause (id : Nat)
  /-- RESUME (R476). -/
  | resume (id : Nat)
  /-- BATCH_ROUND (R482). -/
  | batchRound (vat : BitVec 8)
  /-- HOST_LINK_DOWN (R461). -/
  | hostLinkDown
  /-- MODULE_ANNOUNCE (R474). -/
  | moduleAnnounce (m : BitVec 6)
  /-- FORMATION_END (R474). -/
  | formationEnd (x : FormIn)
  /-- MODULE_JOIN (R475). -/
  | moduleJoin (m : BitVec 6)
  /-- MODULE_LOST (R399). -/
  | moduleLost (m : BitVec 6)
  /-- LEAD_LOST (R476). -/
  | leadLost
  /-- LEAD_REFORM_TIMEOUT (R476). -/
  | leadReformTimeout
  /-- READ_SENSORS (R485). -/
  | readSensors (ifc : MgmtIf) (item : TelItem)
  /-- SET_POWER_CAP (R359). -/
  | setPowerCap (ifc : MgmtIf) (w : Nat)
  /-- SET_TORUS_POSITION (R473). -/
  | setTorusPosition (ifc : MgmtIf) (x : BitVec 2) (y : BitVec 2) (z : BitVec 2) (depth : BitVec 3)
  /-- FIRMWARE_UPDATE (R490). -/
  | firmwareUpdate (ifc : MgmtIf) (u : UpdateIn)
  /-- ATTESTATION (R488). -/
  | attestation (ifc : MgmtIf) (req : SpdmReq)
  /-- READ_FIELD_LOG (R485). -/
  | readFieldLog (ifc : MgmtIf) (area : BitVec 2) (idx : Nat)
  /-- SHIP (R495). -/
  | ship (ifc : MgmtIf) (sig : Sigs)
  /-- RETURN (R497). -/
  | returnCmd (ifc : MgmtIf) (sig : Sigs)
  /-- SCRAP (R495). -/
  | scrap (ifc : MgmtIf) (byOwner : Bool) (sig : Sigs)
  /-- OWNER_CLAIM (R496). -/
  | ownerClaim (ifc : MgmtIf) (key : Nat)
  /-- OWNER_KEY_REPLACE (R496). -/
  | ownerKeyReplace (ifc : MgmtIf) (key : Nat) (sig : Sigs)
  /-- COMMIT_SVN (R491). -/
  | commitSvn (ifc : MgmtIf) (culture : Bool) (sig : Sigs)
  /-- KEY_REVOCATION (R491). -/
  | keyRevocation (ifc : MgmtIf) (signer : BitVec 2) (slot : BitVec 2) (sig : Sigs)
  /-- REGRADE (R495). -/
  | regrade (ifc : MgmtIf) (t : Tile) (ps : PSite) (g : Grade) (sig : Sigs)
  /-- GET_NONCE (R498). -/
  | getNonce (ifc : MgmtIf)
  /-- TOKEN_INSTALL (R499). -/
  | tokenInstall (ifc : MgmtIf) (body : BitVec 384) (sig : Sigs)
  /-- REVOKE_TOKEN (R499). -/
  | revokeToken (ifc : MgmtIf)
  /-- TOKEN_LAPSE (R499). -/
  | tokenLapse
  /-- CONGESTION_RECORD (R492). -/
  | congestionRecord
  /-- THERMAL_SAMPLE (R493). -/
  | thermalSample (temps : List TempSample)
  /-- LIFE_COUNTER_SAVE (R494). -/
  | lifeCounterSave
  /-- THERMAL_FORECAST (R509). -/
  | thermalForecast (inlet : Nat) (outlet : Nat) (flow : Nat)
  /-- DIE_TEMP_THROTTLE (R510). -/
  | dieTempThrottle (t : Tile) (maxTemp : Nat)
  /-- SENSOR_DISAGREEMENT (R508). -/
  | sensorDisagreement (flow : Bool)
  /-- COMPARATOR_TRIP (R511). -/
  | comparatorTrip (junction : Bool) (outlet : Bool) (flow : Bool)
  /-- COMPARATOR_RESTART (R512). -/
  | comparatorRestart (outlet : Nat) (flowOk10s : Bool)
  /-- BUTTON_RELEASE (R513). -/
  | buttonRelease (heldMs : Nat)
  /-- INPUT_RETURN (R346). -/
  | inputReturn
  /-- HOST_LINK_UP (R461). -/
  | hostLinkUp
  /-- HOST_READ_TIMEOUT (R461). -/
  | hostReadTimeout (pid : Nat)
  /-- PF_FLR (R472). -/
  | pfFlr (pf1 : Bool)
  /-- PRESENCE_WINDOW_EXPIRY (R496). -/
  | presenceWindowExpiry
  /-- DYN_TMO_WRITE (R273). -/
  | dynTmoWrite (t : Tile) (v : Word)
  /-- CH_NODE_WRITE (R305). -/
  | chNodeWrite (t : Tile) (node : BitVec 6) (v : Word)
  deriving DecidableEq, Repr

end Sys2Proof
end

