-- ==== Sys2Proof/Decode.lean ====
section
/-! DEFINITION. The words of Assyn (5.1 to 5.5), as an S-core fetches them, and the words of the opcode table, which gives no row
any bits: commands come from outside as terms of `Instr`. -/

namespace Sys2Proof

/-- The command that a word of the table spells: "fields" is empty in every row, so none of them does (log 4). -/
def decodeTableWord (_nbits _w : Nat) : Option Instr := none

/-! ### Formats (Table 5.2) -/

def wordR (w : Word) : FmtR :=
  ⟨w.extractLsb' 47 5, w.extractLsb' 42 5, w.extractLsb' 37 5, w.extractLsb' 32 5, w.extractLsb' 29 3, w.extractLsb' 0 29⟩
def wordI (w : Word) : FmtI := ⟨w.extractLsb' 47 5, w.extractLsb' 42 5, w.extractLsb' 0 42⟩
def wordM (w : Word) : FmtM := ⟨w.extractLsb' 47 5, w.extractLsb' 42 5, w.getLsbD 41, w.extractLsb' 32 9, w.extractLsb' 0 32⟩
def wordB (w : Word) : FmtB :=
  ⟨w.extractLsb' 47 5, w.extractLsb' 42 5, w.extractLsb' 37 5, w.extractLsb' 32 5, w.extractLsb' 0 32⟩
def wordQ (w : Word) : FmtQ :=
  ⟨w.extractLsb' 47 5, w.extractLsb' 45 2, w.extractLsb' 42 3, w.extractLsb' 36 6, w.extractLsb' 32 4, w.extractLsb' 0 32⟩
def wordP (w : Word) : FmtP :=
  ⟨w.extractLsb' 47 5, w.extractLsb' 42 5, w.extractLsb' 37 5, w.extractLsb' 34 3, w.extractLsb' 28 6, w.extractLsb' 24 4,
    w.getLsbD 23, w.extractLsb' 0 23⟩
def wordF (w : Word) : FmtF :=
  ⟨w.extractLsb' 47 5, w.extractLsb' 42 5, w.extractLsb' 37 5, w.extractLsb' 32 5, w.extractLsb' 28 4, w.getLsbD 27,
    w.extractLsb' 25 2, w.extractLsb' 0 25⟩

/-! ### Opcodes (R122, R124) -/

/-- An opcode: its class, its number, the bits of a word that must be 0 (reserved bits, unused fields, the top bit of a field that
names f0 to f15, RM above 3), and the instruction. -/
structure AssynRow where
  cls : Nat
  op : Nat
  zero : Word
  form : Clu → Word → Instr
  ok : Word → Bool := fun _ => true

/-- SLOT is 0 to 4 (R136). -/
def slotWord (w : Word) : Bool := decide ((wordP w).slot.toNat ≤ 4)
/-- ROUTE = 0 names x0 in RR (R139). -/
def routeWord (w : Word) : Bool := (wordF w).route == 1 || (wordF w).rr == 0
/-- A special register of Table 5.16. -/
def xregWord (w : Word) : Bool := [1, 2, 3, 4, 5, 6, 0x11, 0x12, 0x13, 0x14, 0x15].contains (wordI w).imm.toNat

/-- S-ALU (Table 5.3). -/
def aluWords0 : List AssynRow :=
  [⟨0, 0x01, 0xFFFFFFFFFFFFF, fun c w => .nop c (wordR w), fun _ => true⟩,
   ⟨0, 0x02, 0x1FFFFFFFFF, fun c w => .add c (wordR w), fun _ => true⟩,
   ⟨0, 0x03, 0x1FFFFFFFFF, fun c w => .sub c (wordR w), fun _ => true⟩,
   ⟨0, 0x04, 0x1FFFFFFFFF, fun c w => .andR c (wordR w), fun _ => true⟩,
   ⟨0, 0x05, 0x1FFFFFFFFF, fun c w => .orR c (wordR w), fun _ => true⟩,
   ⟨0, 0x06, 0x1FFFFFFFFF, fun c w => .xorR c (wordR w), fun _ => true⟩,
   ⟨0, 0x07, 0x1FFFFFFFFF, fun c w => .shl c (wordR w), fun _ => true⟩,
   ⟨0, 0x08, 0x1FFFFFFFFF, fun c w => .shr c (wordR w), fun _ => true⟩,
   ⟨0, 0x09, 0x1FFFFFFFFF, fun c w => .sra c (wordR w), fun _ => true⟩,
   ⟨0, 0x0A, 0x1FFFFFFFFF, fun c w => .slt c (wordR w), fun _ => true⟩,
   ⟨0, 0x0B, 0x1FFFFFFFFF, fun c w => .sltu c (wordR w), fun _ => true⟩,
   ⟨0, 0x10, 0x0, fun c w => .addi c (wordI w), fun _ => true⟩,
   ⟨0, 0x11, 0x0, fun c w => .andi c (wordI w), fun _ => true⟩,
   ⟨0, 0x12, 0x0, fun c w => .ori c (wordI w), fun _ => true⟩,
   ⟨0, 0x13, 0x0, fun c w => .xori c (wordI w), fun _ => true⟩,
   ⟨0, 0x14, 0x0, fun c w => .shli c (wordI w), fun _ => true⟩,
   ⟨0, 0x15, 0x0, fun c w => .shri c (wordI w), fun _ => true⟩,
   ⟨0, 0x16, 0x0, fun c w => .srai c (wordI w), fun _ => true⟩,
   ⟨0, 0x17, 0x7C0000000000, fun c w => .li c (wordI w), fun _ => true⟩,
   ⟨0, 0x18, 0x3FFFFC00000, fun c w => .lih c (wordI w), fun _ => true⟩,
   ⟨0, 0x20, 0x1FFFFFFFFF, fun c w => .mul c (wordR w), fun _ => true⟩,
   ⟨0, 0x21, 0x1FFFFFFFFF, fun c w => .mulh c (wordR w), fun _ => true⟩,
   ⟨0, 0x22, 0x1FFFFFFFFF, fun c w => .mulhu c (wordR w), fun _ => true⟩,
   ⟨0, 0x23, 0x1FFFFFFFFF, fun c w => .div c (wordR w), fun _ => true⟩]

/-- S-ALU (Table 5.3). -/
def aluWords1 : List AssynRow :=
  [⟨0, 0x24, 0x1FFFFFFFFF, fun c w => .divu c (wordR w), fun _ => true⟩,
   ⟨0, 0x25, 0x1FFFFFFFFF, fun c w => .rem c (wordR w), fun _ => true⟩,
   ⟨0, 0x26, 0x1FFFFFFFFF, fun c w => .remu c (wordR w), fun _ => true⟩,
   ⟨0, 0x30, 0x8421F9FFFFFFF, fun c w => .faddS c (wordR w), fun _ => true⟩,
   ⟨0, 0x31, 0x8421F9FFFFFFF, fun c w => .fsubS c (wordR w), fun _ => true⟩,
   ⟨0, 0x32, 0x8421F9FFFFFFF, fun c w => .fmulS c (wordR w), fun _ => true⟩,
   ⟨0, 0x33, 0x842109FFFFFFF, fun c w => .fmaS c (wordR w), fun _ => true⟩,
   ⟨0, 0x34, 0x8421F9FFFFFFF, fun c w => .fdivS c (wordR w), fun _ => true⟩,
   ⟨0, 0x35, 0x843FF9FFFFFFF, fun c w => .fsqrtS c (wordR w), fun _ => true⟩,
   ⟨0, 0x36, 0x8421FFFFFFFFF, fun c w => .fminS c (wordR w), fun _ => true⟩,
   ⟨0, 0x37, 0x8421FFFFFFFFF, fun c w => .fmaxS c (wordR w), fun _ => true⟩,
   ⟨0, 0x38, 0x8421F9FFFFFFF, fun c w => .faddD c (wordR w), fun _ => true⟩,
   ⟨0, 0x39, 0x8421F9FFFFFFF, fun c w => .fsubD c (wordR w), fun _ => true⟩,
   ⟨0, 0x3A, 0x8421F9FFFFFFF, fun c w => .fmulD c (wordR w), fun _ => true⟩,
   ⟨0, 0x3B, 0x842109FFFFFFF, fun c w => .fmaD c (wordR w), fun _ => true⟩,
   ⟨0, 0x3C, 0x8421F9FFFFFFF, fun c w => .fdivD c (wordR w), fun _ => true⟩,
   ⟨0, 0x3D, 0x843FF9FFFFFFF, fun c w => .fsqrtD c (wordR w), fun _ => true⟩,
   ⟨0, 0x3E, 0x8421FFFFFFFFF, fun c w => .fminD c (wordR w), fun _ => true⟩,
   ⟨0, 0x3F, 0x8421FFFFFFFFF, fun c w => .fmaxD c (wordR w), fun _ => true⟩,
   ⟨0, 0x40, 0x843FF9FFFFFFF, fun c w => .fcvtSD c (wordR w), fun _ => true⟩,
   ⟨0, 0x41, 0x843FF9FFFFFFF, fun c w => .fcvtDS c (wordR w), fun _ => true⟩,
   ⟨0, 0x42, 0x803FF9FFFFFFF, fun c w => .fcvtSX c (wordR w), fun _ => true⟩,
   ⟨0, 0x43, 0x803FF9FFFFFFF, fun c w => .fcvtDX c (wordR w), fun _ => true⟩,
   ⟨0, 0x44, 0x43FF9FFFFFFF, fun c w => .fcvtXS c (wordR w), fun _ => true⟩]

/-- S-ALU (Table 5.3). -/
def aluWords2 : List AssynRow :=
  [⟨0, 0x45, 0x43FF9FFFFFFF, fun c w => .fcvtXD c (wordR w), fun _ => true⟩,
   ⟨0, 0x46, 0x43FFFFFFFFFF, fun c w => .fmvXF c (wordR w), fun _ => true⟩,
   ⟨0, 0x47, 0x803FFFFFFFFFF, fun c w => .fmvFX c (wordR w), fun _ => true⟩,
   ⟨0, 0x48, 0x421FFFFFFFFF, fun c w => .feqS c (wordR w), fun _ => true⟩,
   ⟨0, 0x49, 0x421FFFFFFFFF, fun c w => .fltS c (wordR w), fun _ => true⟩,
   ⟨0, 0x4A, 0x421FFFFFFFFF, fun c w => .feqD c (wordR w), fun _ => true⟩,
   ⟨0, 0x4B, 0x421FFFFFFFFF, fun c w => .fltD c (wordR w), fun _ => true⟩,
   ⟨0, 0x50, 0xF83FFFFFFFFFF, fun c w => .cmdTag c (wordR w), fun _ => true⟩,
   ⟨0, 0x51, 0xF83FFFFFFFFFF, fun c w => .cmdWait c (wordR w), fun _ => true⟩,
   ⟨0, 0x52, 0xF83FFFFFFFFFF, fun c w => .cmdSig c (wordR w), fun _ => true⟩,
   ⟨0, 0x58, 0x7FFFFFFFFFF0, fun c w => .ctrRd c (wordI w), fun _ => true⟩,
   ⟨0, 0x59, 0xF83FFFFFFFFF0, fun c w => .ctrWr c (wordI w), fun _ => true⟩,
   ⟨0, 0x5A, 0xF83FFFFFFFFF0, fun c w => .ctrAdd c (wordI w), fun _ => true⟩,
   ⟨0, 0x60, 0x7C0000000000, fun c w => .xrd c (wordI w), xregWord⟩,
   ⟨0, 0x61, 0xF800000000000, fun c w => .xwr c (wordI w), xregWord⟩]

/-- S-BR (Table 5.4). -/
def brWords : List AssynRow :=
  [⟨1, 0x01, 0x3FF00000000, fun c w => .beq c (wordB w), fun _ => true⟩,
   ⟨1, 0x02, 0x3FF00000000, fun c w => .bne c (wordB w), fun _ => true⟩,
   ⟨1, 0x03, 0x3FF00000000, fun c w => .blt c (wordB w), fun _ => true⟩,
   ⟨1, 0x04, 0x3FF00000000, fun c w => .bge c (wordB w), fun _ => true⟩,
   ⟨1, 0x05, 0x3FF00000000, fun c w => .bltu c (wordB w), fun _ => true⟩,
   ⟨1, 0x06, 0x3FF00000000, fun c w => .bgeu c (wordB w), fun _ => true⟩,
   ⟨1, 0x08, 0xFFC1F00000000, fun c w => .jal c (wordB w), fun _ => true⟩,
   ⟨1, 0x09, 0x7C1F00000000, fun c w => .jalr c (wordB w), fun _ => true⟩,
   ⟨1, 0x0A, 0x7FFFFFFFFFF0, fun c w => .waitc c (wordB w), fun _ => true⟩,
   ⟨1, 0x0B, 0xFFFFFFFFFFFFF, fun c w => .retx c (wordB w), fun _ => true⟩]

/-- S-MEM (Table 5.5). -/
def memWords : List AssynRow :=
  [⟨2, 0x01, 0x1FF00000000, fun c w => .lb c (wordM w), fun _ => true⟩,
   ⟨2, 0x02, 0x1FF00000000, fun c w => .lh c (wordM w), fun _ => true⟩,
   ⟨2, 0x03, 0x1FF00000000, fun c w => .lw c (wordM w), fun _ => true⟩,
   ⟨2, 0x04, 0x1FF00000000, fun c w => .ld c (wordM w), fun _ => true⟩,
   ⟨2, 0x05, 0x1FF00000000, fun c w => .lbu c (wordM w), fun _ => true⟩,
   ⟨2, 0x06, 0x1FF00000000, fun c w => .lhu c (wordM w), fun _ => true⟩,
   ⟨2, 0x07, 0x1FF00000000, fun c w => .lwu c (wordM w), fun _ => true⟩,
   ⟨2, 0x08, 0x1FF00000000, fun c w => .sb c (wordM w), fun _ => true⟩,
   ⟨2, 0x09, 0x1FF00000000, fun c w => .sh c (wordM w), fun _ => true⟩,
   ⟨2, 0x0A, 0x1FF00000000, fun c w => .sw c (wordM w), fun _ => true⟩,
   ⟨2, 0x0B, 0x1FF00000000, fun c w => .sd c (wordM w), fun _ => true⟩,
   ⟨2, 0x0C, 0x801FF00000000, fun c w => .flw c (wordM w), fun _ => true⟩,
   ⟨2, 0x0D, 0x801FF00000000, fun c w => .fld c (wordM w), fun _ => true⟩,
   ⟨2, 0x0E, 0x801FF00000000, fun c w => .fsw c (wordM w), fun _ => true⟩,
   ⟨2, 0x0F, 0x801FF00000000, fun c w => .fsd c (wordM w), fun _ => true⟩,
   ⟨2, 0x10, 0x1FF00000000, fun c w => .amoaddD c (wordM w), fun _ => true⟩,
   ⟨2, 0x11, 0x1FF00000000, fun c w => .amoswapD c (wordM w), fun _ => true⟩,
   ⟨2, 0x18, 0xFFFFFFFFFFFFF, fun c w => .mfence c (wordM w), fun _ => true⟩]

/-- V (Table 5.9). -/
def vWords0 : List AssynRow :=
  [⟨3, 0x01, 0xF9FFFFFFFFFFF, fun c w => .cmdEntryCreate c false 0x01 (wordQ w), fun _ => true⟩,
   ⟨3, 0x10, 0x1C0F00000000, fun c w => .cmdEntryCreate c false 0x10 (wordQ w), fun _ => true⟩,
   ⟨3, 0x11, 0x1C0F00000000, fun c w => .cmdEntryCreate c false 0x11 (wordQ w), fun _ => true⟩,
   ⟨3, 0x12, 0x1C0F00000000, fun c w => .cmdEntryCreate c false 0x12 (wordQ w), fun _ => true⟩,
   ⟨3, 0x13, 0x1C0F00000000, fun c w => .cmdEntryCreate c false 0x13 (wordQ w), fun _ => true⟩,
   ⟨3, 0x14, 0x1C0F00000000, fun c w => .cmdEntryCreate c false 0x14 (wordQ w), fun _ => true⟩,
   ⟨3, 0x15, 0x1C0F00000000, fun c w => .cmdEntryCreate c false 0x15 (wordQ w), fun _ => true⟩,
   ⟨3, 0x16, 0x1C0F00000000, fun c w => .cmdEntryCreate c false 0x16 (wordQ w), fun _ => true⟩,
   ⟨3, 0x17, 0x1C0F00000000, fun c w => .cmdEntryCreate c false 0x17 (wordQ w), fun _ => true⟩,
   ⟨3, 0x18, 0x1C0F00000000, fun c w => .cmdEntryCreate c false 0x18 (wordQ w), fun _ => true⟩,
   ⟨3, 0x19, 0x1C0F00000000, fun c w => .cmdEntryCreate c false 0x19 (wordQ w), fun _ => true⟩,
   ⟨3, 0x1A, 0x1C0F00000000, fun c w => .cmdEntryCreate c false 0x1A (wordQ w), fun _ => true⟩,
   ⟨3, 0x1B, 0x1C0F00000000, fun c w => .cmdEntryCreate c false 0x1B (wordQ w), fun _ => true⟩,
   ⟨3, 0x20, 0x1C0F00000000, fun c w => .cmdEntryCreate c false 0x20 (wordQ w), fun _ => true⟩,
   ⟨3, 0x28, 0x1C0F00000000, fun c w => .cmdEntryCreate c false 0x28 (wordQ w), fun _ => true⟩,
   ⟨3, 0x29, 0x1C0F00000000, fun c w => .cmdEntryCreate c false 0x29 (wordQ w), fun _ => true⟩,
   ⟨3, 0x2A, 0x1C0F00000000, fun c w => .cmdEntryCreate c false 0x2A (wordQ w), fun _ => true⟩,
   ⟨3, 0x2B, 0x1C0F00000000, fun c w => .cmdEntryCreate c false 0x2B (wordQ w), fun _ => true⟩,
   ⟨3, 0x30, 0x1C0F00000000, fun c w => .cmdEntryCreate c false 0x30 (wordQ w), fun _ => true⟩,
   ⟨3, 0x31, 0x1C0F00000000, fun c w => .cmdEntryCreate c false 0x31 (wordQ w), fun _ => true⟩,
   ⟨3, 0x32, 0x1C0F00000000, fun c w => .cmdEntryCreate c false 0x32 (wordQ w), fun _ => true⟩,
   ⟨3, 0x38, 0x1C0F00000000, fun c w => .cmdEntryCreate c false 0x38 (wordQ w), fun _ => true⟩,
   ⟨3, 0x39, 0x1C0F00000000, fun c w => .cmdEntryCreate c false 0x39 (wordQ w), fun _ => true⟩,
   ⟨3, 0x3A, 0x1C0F00000000, fun c w => .cmdEntryCreate c false 0x3A (wordQ w), fun _ => true⟩]

/-- V (Table 5.9). -/
def vWords1 : List AssynRow :=
  [⟨3, 0x40, 0x1C0F00000000, fun c w => .cmdEntryCreate c false 0x40 (wordQ w), fun _ => true⟩,
   ⟨3, 0x48, 0x1C0F00000000, fun c w => .cmdEntryCreate c false 0x48 (wordQ w), fun _ => true⟩,
   ⟨3, 0x49, 0x1C0F00000000, fun c w => .cmdEntryCreate c false 0x49 (wordQ w), fun _ => true⟩,
   ⟨3, 0x4A, 0x1C0F00000000, fun c w => .cmdEntryCreate c false 0x4A (wordQ w), fun _ => true⟩]

/-- M (Table 5.6). -/
def mWords : List AssynRow :=
  [⟨4, 0x01, 0x1C0F00000000, fun c w => .cmdEntryCreate c true 0x01 (wordQ w), fun _ => true⟩,
   ⟨4, 0x02, 0xF9FFFFFFFFFFF, fun c w => .cmdEntryCreate c true 0x02 (wordQ w), fun _ => true⟩,
   ⟨4, 0x03, 0xF9FFFFFFFFFFF, fun c w => .cmdEntryCreate c true 0x03 (wordQ w), fun _ => true⟩]

/-- P (Table 5.11). -/
def pWords : List AssynRow :=
  [⟨5, 0x01, 0x3E00FFFFFFF, fun c w => .pSet c (wordP w), slotWord⟩,
   ⟨5, 0x02, 0xFFFE00FFFFFFF, fun c w => .pFree c (wordP w), slotWord⟩,
   ⟨5, 0x08, 0x7FFFFF, fun c w => .pFill c (wordP w), slotWord⟩,
   ⟨5, 0x09, 0x3E0007FFFFF, fun c w => .pCopy c (wordP w), slotWord⟩]

/-- F (Table 5.12). -/
def fWords : List AssynRow :=
  [⟨6, 0x01, 0x5FFFFFF, fun c w => .fPut c (wordF w), routeWord⟩,
   ⟨6, 0x02, 0x5FFFFFF, fun c w => .fGet c (wordF w), routeWord⟩,
   ⟨6, 0x03, 0x5FFFFFF, fun c w => .fChurn c (wordF w), routeWord⟩,
   ⟨6, 0x08, 0xFFFFFFFFFFFFF, fun c w => .fWait c (wordF w), fun _ => true⟩,
   ⟨6, 0x10, 0xF83FF07FFFFFF, fun c w => .fSload c (wordF w), fun _ => true⟩,
   ⟨6, 0x11, 0xF801FFFFFFFFF, fun c w => .fSarm c (wordF w), fun _ => true⟩,
   ⟨6, 0x12, 0xF83FFFFFFFFFF, fun c w => .fIpause c (wordF w), fun _ => true⟩,
   ⟨6, 0x13, 0xF83FFFFFFFFFF, fun c w => .fIresume c (wordF w), fun _ => true⟩,
   ⟨6, 0x14, 0xFFFFFFFFFFFFF, fun c w => .fEpoch c (wordF w), fun _ => true⟩]

/-- Y (Table 5.13). -/
def yWords : List AssynRow :=
  [⟨7, 0x01, 0xF800000000000, fun c w => .ySet c (wordI w), fun _ => true⟩,
   ⟨7, 0x02, 0xF800000000000, fun c w => .yClr c (wordI w), fun _ => true⟩,
   ⟨7, 0x03, 0x7CFFFFFFFFFE, fun c w => .yRd c (wordI w), fun _ => true⟩,
   ⟨7, 0x04, 0xF800000000000, fun c w => .yWaitor c (wordI w), fun _ => true⟩,
   ⟨7, 0x05, 0xF800000000000, fun c w => .yWaitand c (wordI w), fun _ => true⟩,
   ⟨7, 0x06, 0xFFC0000000000, fun c w => .yBar c (wordI w), fun _ => true⟩]

/-- E (Table 5.13). -/
def eWords : List AssynRow :=
  [⟨8, 0x01, 0xF83FFFFFFFFFF, fun c w => .eClaim c (wordI w), fun _ => true⟩,
   ⟨8, 0x02, 0x7C0000000000, fun c w => .eStep c (wordI w), fun _ => true⟩,
   ⟨8, 0x03, 0x7FFFFFFFFFFC, fun c w => .eRd c (wordI w), fun _ => true⟩]

/-- C (Table 5.14). -/
def cWords : List AssynRow :=
  [⟨9, 0x01, 0xFFFFFFFFF0000, fun c w => .cSvc c (wordI w), fun _ => true⟩,
   ⟨9, 0x04, 0xF83FFFFFFFFFF, fun c w => .cEnter c (wordR w), fun _ => true⟩,
   ⟨9, 0x05, 0xF83FFFFFFFFFF, fun c w => .cFence c (wordR w), fun _ => true⟩]

def assynRows : List AssynRow :=
  aluWords0 ++ aluWords1 ++ aluWords2 ++ brWords ++ memWords ++ vWords0 ++ vWords1 ++ mWords ++ pWords ++ fWords ++ yWords ++ eWords ++ cWords

/-- The instruction of a word: none where the class or the opcode is reserved, where a bit that must be 0 is not, or where a field
has a reserved value; each of these is ILLEGAL (R122). -/
def decodeAssyn (c : Clu) (w : Word) : Option Instr :=
  match assynRows.find? fun r => w.extractLsb' 60 4 == BitVec.ofNat 4 r.cls && w.extractLsb' 52 8 == BitVec.ofNat 8 r.op with
  | some r => if w &&& r.zero = 0 ∧ r.ok w = true then some (r.form c w) else none
  | none => none

end Sys2Proof
end

