-- ==== Sys2Proof/Config.lean ====
section
/-! DEFINITION. What the manual leaves to the part: the free values. None has a body, so no proof can rest on one. -/

namespace Sys2Proof.Config

/-- A value the manual leaves open, drawn with a counter of the state (log 5). -/
opaque freeValue : Nat → BitVec 64

/-- Energy attribution coefficients of R358 ("a fixed coefficient", value not given): MACs, vector lanes, scratch
lines (log 6). -/
opaque energyCoef : Nat → Nat

/-- Word n of the SHA-384 digest of a measurement block whose contents the manual gives in words only (Table 17.3): block,
contents. -/
opaque measure : Nat → List Nat → Nat → BitVec 64

/-- What the S-cores of the other modules contribute to the flags of a vat that spans modules: the OR and the AND of their
contributions, at a time (R277, R279, log 25). -/
opaque farOr : Nat → Nat → BitVec 64
opaque farAnd : Nat → Nat → BitVec 64

/-- Have the S-cores of the other modules arrived at barrier or step `gen` of a vat that spans modules, at a time (R280, log 25)?
Arguments: vat, 0 = barrier or 1 = step, gen, time. -/
opaque farArrived : Nat → Nat → Nat → Nat → Bool

/-- Have the ledgers of the other modules admitted step `gen` of a vat that spans modules, at a time (R363, log 25)? Arguments: vat,
gen, time. -/
opaque farAdmitted : Nat → Nat → Nat → Bool

/-- How many windows a tile has open at most (R290: "its maximum of open windows", value not given; log 68). -/
opaque maxWindows : Nat

/-- The lowest channel power that a receive port measures at a time, % of nominal (R337; log 35). -/
opaque rxPower : Nat → Nat → BitVec 8

/-- The SUM field of a WIDE word whose sum has left its range (R50: "sets NAN in that output's word"; the bits of SUM are not given):
a function of the exact sum's two parts, so that every run gives the same (R62, log 15). -/
opaque ovfSum : Int → Int → BitVec 112

/-- Does the CXL device at a T3 port answer a read of a line as poisoned (R186): port, line, time (log 71)? -/
opaque cxlPoison : Nat → Nat → Nat → Bool

/-- Does the host answer a read of a 64-byte line with an error or with poisoned data (R461): line, time (log 71)? -/
opaque hostPoison : Nat → Nat → Bool

/-- Does the NVMe device at a T3 port answer a read with an error (Table 16.7): port, first LBA, time (log 71)? -/
opaque nvmeError : Nat → Nat → Nat → Bool

/-- What the other modules of a vat that spans modules add to a command's byte or page count (R477): command (log 82). -/
opaque farPart : Nat → BitVec 48

/-- Where another module's sink of a vat's tree lies, as a remote address (R296: the fabric manager's plan): module, vat, tree
(log 74). -/
opaque sinkAt : Nat → Nat → Nat → BitVec 64

/-- The mapped range of a T3 port of another module (R30, R186), in bytes: module, port, time (log 14). -/
opaque farMapped : Nat → Nat → Nat → Nat

end Sys2Proof.Config
end

