-- ==== Sys2Proof/Machine/Maps.lean ====
section
/-! DEFINITION. The sparse map (Word.lean): read and write by key, in one canonical form: keys strictly rising, no
entry equal to the default `d`. -/

namespace Sys2Proof.Machine

/-- The value at a key; `d` where the key is not listed. -/
def mget {α : Type} (d : α) : FMap α → Nat → α
  | [], _ => d
  | (k', v) :: r, k => if k' = k then v else mget d r k

/-- Enters a value, keeping the keys strictly rising. -/
def minsert {α : Type} (k : Nat) (v : α) : FMap α → FMap α
  | [] => [(k, v)]
  | (k', v') :: r =>
    if k < k' then (k, v) :: (k', v') :: r else if k = k' then (k, v) :: r else (k', v') :: minsert k v r

/-- Removes a key. -/
def merase {α : Type} (k : Nat) : FMap α → FMap α
  | [] => []
  | (k', v') :: r => if k' = k then merase k r else (k', v') :: merase k r

/-- Writes a value; writing the default removes the entry. -/
def mset {α : Type} [DecidableEq α] (d : α) (m : FMap α) (k : Nat) (v : α) : FMap α :=
  if v = d then merase k m else minsert k v m

/-- Keys all above `lo`, strictly rising, and no entry equal to the default. -/
def mwfFrom {α : Type} [DecidableEq α] (d : α) : Nat → FMap α → Bool
  | _, [] => true
  | lo, (k, v) :: r => decide (lo ≤ k) && decide (v ≠ d) && mwfFrom d (k + 1) r

/-- The canonical form. -/
def mwf {α : Type} [DecidableEq α] (d : α) (m : FMap α) : Bool := mwfFrom d 0 m

/-- Keeps the entries whose key satisfies `p` (a range clear is `mkeep` of its complement). -/
def mkeep {α : Type} (p : Nat → Bool) (m : FMap α) : FMap α := m.filter fun e => p e.1

/-- Moves the entries of the key range of n keys at `src` to `dst`, whose own entries go. -/
def mmove {α : Type} (src dst n : Nat) (m : FMap α) : FMap α :=
  (m.filter fun e => decide (src ≤ e.1) && decide (e.1 < src + n)).foldl (fun a e => minsert (e.1 - src + dst) e.2 a)
    (m.filter fun e => (decide (e.1 < src) || decide (src + n ≤ e.1)) && (decide (e.1 < dst) || decide (dst + n ≤ e.1)))

/-- Enters all entries of a map into another. -/
def mmerge {α : Type} (a m : FMap α) : FMap α := a.foldl (fun m e => minsert e.1 e.2 m) m

end Sys2Proof.Machine
end

