-- ==== Sys2Proof/Machine/Flags.lean ====
section
/-! DEFINITION. The arithmetic-status flags that M- and V-class instructions set (Table 2.8; bit 8 is IDX_OOB of Table 4.7). The
P36 has no condition codes. -/

namespace Sys2Proof.Machine

/-- ARITH_STATUS flags (Table 2.8). -/
def aSpan : Nat := 1
def aNan : Nat := 2
def aInf : Nat := 4
def aSat : Nat := 8
def aInvalid : Nat := 16
def aOvf : Nat := 32

end Sys2Proof.Machine
end

