-- ==== Sys2Proof/Machine/Numeric.lean ====
section
/-! DEFINITION. Number formats, exact values, rounding, conversions and the correctly rounded functions (02, R95,
R103, R126). A value is formed exactly, or to hundreds of bits below its leading bit with the knowledge that it is
not exact, and rounded once. -/

namespace Sys2Proof.Machine

/-- A value. `fin neg m e st`: magnitude m·2^e where `st` is false; strictly between m·2^e and (m+1)·2^e where it is
true. -/
inductive Num where
  | nan
  | inf (neg : Bool)
  | fin (neg : Bool) (m : Nat) (e : Int) (st : Bool)
  deriving DecidableEq, Repr

/-- A floating-point format (Table 2.2): mantissa and exponent bits, bias, largest finite value n·2^e. -/
structure FpF where
  mb : Nat
  eb : Nat
  bias : Int
  maxN : Nat
  maxE : Int
  /-- 0: infinity and NaN as IEEE 754; 1: E4M3, one NaN and no infinity; 2: neither (the MX elements). -/
  kind : Nat
  nanBits : Nat
  deriving DecidableEq, Repr

/-- R39 lists no canonical NaN of FP64; the one of its family's form is taken (log 80). -/
def fp64 : FpF := ⟨52, 11, 1023, 2 ^ 53 - 1, 971, 0, 0x7FF8000000000000⟩
def fp32 : FpF := ⟨23, 8, 127, 2 ^ 24 - 1, 104, 0, 0x7FC00000⟩
def bf16 : FpF := ⟨7, 8, 127, 255, 120, 0, 0x7FC0⟩
def fp16 : FpF := ⟨10, 5, 15, 2047, 5, 0, 0x7E00⟩
def e4m3 : FpF := ⟨3, 4, 7, 14, 5, 1, 0x7F⟩
def e5m2 : FpF := ⟨2, 5, 15, 7, 13, 0, 0x7E⟩
def e2m3 : FpF := ⟨3, 2, 1, 15, -1, 2, 0⟩
def e3m2 : FpF := ⟨2, 3, 3, 7, 2, 2, 0⟩
def e2m1 : FpF := ⟨1, 2, 1, 3, 1, 2, 0⟩

/-- The floating-point element format of a format code (Table 2.1). -/
def fpOf (fmt : Nat) : Option FpF :=
  if fmt = 1 then some fp32 else if fmt = 2 then some bf16 else if fmt = 3 then some fp16
  else if fmt = 4 ∨ fmt = 8 then some e4m3 else if fmt = 5 ∨ fmt = 9 then some e5m2
  else if fmt = 0xA then some e2m3 else if fmt = 0xB then some e3m2 else if fmt = 0xC then some e2m1 else none

/-- Element bits of a format code (Table 2.1). -/
def elemBits (fmt : Nat) : Nat :=
  [8, 32, 16, 16, 8, 8, 8, 32, 8, 8, 6, 6, 4, 8, 4, 8, 128, 64].getD fmt 8

/-- Formats 0x08 to 0x0E carry block scales. -/
def isBlockFmt (fmt : Nat) : Bool := decide (8 ≤ fmt) && decide (fmt ≤ 0xE)

/-- Integer formats: INT8, INT32, INT64. -/
def isIntFmt (fmt : Nat) : Bool := fmt == 6 || fmt == 7 || fmt == 0x11

/-- The integer w-bit two's-complement value of a pattern. -/
def toSigned (w n : Nat) : Int := if n % 2 ^ w < 2 ^ (w - 1) then (n % 2 ^ w : Nat) else (n % 2 ^ w : Nat) - (2 ^ w : Nat)

/-- The w-bit two's-complement pattern of an integer. -/
def ofSigned (w : Nat) (i : Int) : Nat := (i % (2 ^ w : Nat)).toNat

/-- Number of significant bits. -/
def bitLen (n : Nat) : Nat := if n = 0 then 0 else Nat.log2 n + 1

/-- One bit of the integer square root per round, from the top. -/
def isqrtGo (n : Nat) : Nat → Nat → Nat
  | 0, r => r
  | i + 1, r =>
    let t := r + 2 ^ i
    isqrtGo n i (if t * t ≤ n then t else r)

/-- Integer square root. -/
def isqrt (n : Nat) : Nat := isqrtGo n (bitLen n / 2 + 1) 0

/-- An exact integer as a value. -/
def Num.ofInt (i : Int) : Num := .fin (decide (i < 0)) i.natAbs 0 false

/-- i·2^e. -/
def Num.ofScaled (i e : Int) : Num := .fin (decide (i < 0)) i.natAbs e false

def Num.isNan : Num → Bool
  | .nan => true
  | _ => false

def Num.isInf : Num → Bool
  | .inf _ => true
  | _ => false

/-- Exactly zero. -/
def Num.isZero : Num → Bool
  | .fin _ 0 _ false => true
  | _ => false

def Num.sign : Num → Bool
  | .nan => false
  | .inf b => b
  | .fin b _ _ _ => b

def Num.neg : Num → Num
  | .nan => .nan
  | .inf b => .inf !b
  | .fin b m e st => .fin (!b) m e st

def Num.abs : Num → Num
  | .nan => .nan
  | .inf _ => .inf false
  | .fin _ m e st => .fin false m e st

/-- x·2^k. -/
def Num.scale (k : Int) : Num → Num
  | .fin b m e st => .fin b m (e + k) st
  | x => x

/-- A floating-point pattern read as a value (R37, R38). -/
def fpDecode (f : FpF) (n : Nat) : Num :=
  let man := n % 2 ^ f.mb
  let ex := n / 2 ^ f.mb % 2 ^ f.eb
  let neg := decide (n / 2 ^ (f.mb + f.eb) % 2 = 1)
  if f.kind = 0 ∧ ex = 2 ^ f.eb - 1 then (if man = 0 then .inf neg else .nan)
  else if f.kind = 1 ∧ ex = 2 ^ f.eb - 1 ∧ man = 2 ^ f.mb - 1 then .nan
  else if ex = 0 then .fin neg man (1 - f.bias - f.mb) false
  else .fin neg (2 ^ f.mb + man) ((ex : Int) - f.bias - f.mb) false

/-- Rounds up in magnitude? `rem`/2^`sh` is the discarded part, `st` whether something lies below it (R57, R58). -/
def roundUp (rnd r : Nat) (neg : Bool) (n rem sh : Nat) (st : Bool) : Bool :=
  let half := if sh = 0 then 1 else 2 ^ (sh - 1)
  let frac := if sh = 0 then 0 else rem
  let inexact := decide (rem ≠ 0) || st
  if rnd = 0 then
    (decide (half < frac) || (decide (frac = half) && (st || decide (n % 2 = 1)))) && decide (sh ≠ 0)
  else if rnd = 1 then false
  else if rnd = 2 then inexact && !neg
  else if rnd = 3 then inexact && neg
  else inexact &&
    (if neg then !decide (r * 2 ^ sh < (2 ^ sh - rem) * 65536)
     else decide (r * 2 ^ sh < rem * 65536) || (st && decide (r * 2 ^ sh = rem * 65536)))

/-- m·2^e (and what lies below it) on the grid 2^q: the rounded count of grid steps. -/
def roundGrid (rnd r : Nat) (neg : Bool) (m : Nat) (e q : Int) (st : Bool) : Nat :=
  if q ≤ e then
    let n := m * 2 ^ (e - q).toNat
    if roundUp rnd r neg n 0 0 st then n + 1 else n
  else
    let sh := (q - e).toNat
    let n := m / 2 ^ sh
    if roundUp rnd r neg n (m % 2 ^ sh) sh st then n + 1 else n

/-- n·2^q above n'·2^q' for the largest finite value n'·2^q' of a format, both with the leading bit in place. -/
def beyondMax (f : FpF) (n : Nat) (q : Int) : Bool := decide (f.maxE < q) || (decide (q = f.maxE) && decide (f.maxN < n))

/-- The pattern of n·2^q, which the format holds. -/
def fpPack (f : FpF) (neg : Bool) (n : Nat) (q : Int) : Nat :=
  let s := if neg then 2 ^ (f.mb + f.eb) else 0
  if n < 2 ^ f.mb then s + n
  else s + ((q + f.mb + f.bias).toNat) * 2 ^ f.mb + (n - 2 ^ f.mb)

/-- What an infinite result is written as (R59). -/
def fpInf (f : FpF) (sat neg : Bool) : Nat × Nat :=
  if f.kind = 0 then (fpPack f neg (2 ^ f.mb) (2 ^ f.eb - 1 - f.bias - f.mb), aInf)
  else if f.kind = 2 ∨ sat then (fpPack f neg f.maxN f.maxE, aSat) else (f.nanBits, aNan)

/-- What a finite overflow is written as (R59). -/
def fpOverflow (f : FpF) (rnd : Nat) (sat neg : Bool) : Nat × Nat :=
  let toInf := rnd = 0 ∨ rnd = 4 ∨ (rnd = 2 ∧ neg = false) ∨ (rnd = 3 ∧ neg = true)
  if sat ∨ f.kind = 2 then (fpPack f neg f.maxN f.maxE, aSat)
  else if f.kind = 1 then (f.nanBits, aNan)
  else if toInf then fpInf f false neg
  else (fpPack f neg f.maxN f.maxE, aSat)

/-- Writes a value to a floating-point format, rounded once: pattern and flags (R56 to R59, R39). -/
def fpRound (f : FpF) (rnd r : Nat) (sat : Bool) : Num → Nat × Nat
  | .nan => (f.nanBits, aNan)
  | .inf neg => fpInf f sat neg
  | .fin neg m e st =>
    if m = 0 ∧ st = false then (fpPack f neg 0 0, 0)
    else
      let top : Int := (bitLen m : Int) - 1 + e
      let emin : Int := 1 - f.bias
      let q : Int := (if emin ≤ top then top else emin) - f.mb
      if rnd = 4 ∧ emin ≤ top ∧
          (f.maxE < q ∨ (q = f.maxE ∧ (f.maxN < roundGrid 1 0 neg m e q st ∨
            (f.maxN = roundGrid 1 0 neg m e q st ∧ roundGrid 2 0 false m e q st ≠ f.maxN)))) then
        fpOverflow f rnd sat neg
      else
        let n := roundGrid rnd r neg m e q st
        let (n, q) := if n = 2 ^ (f.mb + 1) then (2 ^ f.mb, q + 1) else (n, q)
        if emin ≤ q + f.mb ∧ 2 ^ f.mb ≤ n ∧ beyondMax f n q then fpOverflow f rnd sat neg
        else (fpPack f neg n q, 0)

/-- Writes a value to a w-bit integer, rounded by RND and saturated (R60, R63). -/
def intRound (w rnd r : Nat) : Num → Nat × Nat
  | .nan => (0, aInvalid)
  | .inf neg => if neg then (2 ^ (w - 1), aSat) else (2 ^ (w - 1) - 1, aSat)
  | .fin neg m e st =>
    let n := roundGrid rnd r neg m e 0 st
    if neg then (if 2 ^ (w - 1) < n then (2 ^ (w - 1), aSat) else (ofSigned w (-(n : Int)), 0))
    else if 2 ^ (w - 1) ≤ n then (2 ^ (w - 1) - 1, aSat) else (n, 0)

/-- Working precision of inexact values, bits below the point. -/
def prec : Nat := 448

/-- Exact sum. An exact zero of operands of different signs is −0 only toward −∞ (IEEE 754). A value that is not
exact (the √2 values of QL4, correctly rounded functions) is never added. -/
def Num.add (rnd : Nat) : Num → Num → Num
  | .nan, _ => .nan
  | _, .nan => .nan
  | .inf a, .inf b => if a = b then .inf a else .nan
  | .inf a, .fin .. => .inf a
  | .fin .., .inf b => .inf b
  | .fin a m e _, .fin b n g _ =>
    if m = 0 ∧ n = 0 then .fin (if a = b then a else decide (rnd = 3)) 0 0 false
    else
      let q := min e g
      let x : Int := (m : Int) * (2 ^ (e - q).toNat : Nat)
      let y : Int := (n : Int) * (2 ^ (g - q).toNat : Nat)
      let z := (if a then -x else x) + (if b then -y else y)
      if z = 0 then .fin (decide (rnd = 3)) 0 0 false else .ofScaled z q

/-- Exact product. -/
def Num.mul : Num → Num → Num
  | .nan, _ => .nan
  | _, .nan => .nan
  | .inf a, y => if y.isZero then .nan else .inf (a != y.sign)
  | x, .inf b => if x.isZero then .nan else .inf (x.sign != b)
  | .fin a m e _, .fin b n g _ => .fin (a != b) (m * n) (e + g) false

/-- Quotient, to `prec` bits and more. -/
def Num.div : Num → Num → Num
  | .nan, _ => .nan
  | _, .nan => .nan
  | .inf a, y => if y.isInf then .nan else .inf (a != y.sign)
  | x, .inf b => .fin (x.sign != b) 0 0 false
  | .fin a m e _, .fin b n g _ =>
    if n = 0 then (if m = 0 then .nan else .inf (a != b))
    else
      let k := prec + bitLen n
      .fin (a != b) (m * 2 ^ k / n) (e - g - k) (decide (m * 2 ^ k % n ≠ 0))

/-- Square root; −0 gives −0, other negative values NaN. -/
def Num.sqrt : Num → Num
  | .nan => .nan
  | .inf neg => if neg then .nan else .inf false
  | .fin neg m e _ =>
    if m = 0 then .fin neg 0 0 false
    else if neg then .nan
    else
      let k := prec + prec + (if (e % 2 = 0) then 0 else 1)
      let n := m * 2 ^ k
      let r := isqrt n
      .fin false r ((e - k) / 2) (decide (r * r ≠ n))

/-- 1/√x with the special cases of Table 4.2. -/
def Num.rsqrt : Num → Num
  | .nan => .nan
  | .inf neg => if neg then .nan else .fin false 0 0 false
  | .fin neg m e _ =>
    if m = 0 then .inf neg
    else if neg then .nan
    else
      let j : Nat := if (e % 2 = 0) then 0 else 1
      let m' := m * 2 ^ j
      let k := 2 * prec + 2 * bitLen m'
      let n := 2 ^ k / m'
      let r := isqrt n
      .fin false r ((-(k : Int) - (e - j)) / 2) (decide (r * r * m' ≠ 2 ^ k))

/-- 1/x with the special cases of Table 4.2. -/
def Num.rcp (x : Num) : Num := Num.div (.fin false 1 0 false) x

/-- Compares magnitudes and signs of numbers that are not NaN: −1, 0, 1, with −0 = +0. -/
def Num.cmp : Num → Num → Int
  | .nan, _ => 0
  | _, .nan => 0
  | .inf a, .inf b => if a = b then 0 else if a then -1 else 1
  | .inf a, .fin .. => if a then -1 else 1
  | .fin .., .inf b => if b then 1 else -1
  | .fin a m e _, .fin b n g _ =>
    let q := min e g
    let x : Int := (m : Int) * (2 ^ (e - q).toNat : Nat)
    let y : Int := (n : Int) * (2 ^ (g - q).toNat : Nat)
    let z := (if a then -x else x) - (if b then -y else y)
    if z < 0 then -1 else if z = 0 then 0 else 1

/-- Minimum of IEEE 754-2019: NaN if either is, −0 below +0 (R94). -/
def Num.min (x y : Num) : Num :=
  if x.isNan || y.isNan then .nan
  else if Num.cmp x y < 0 then x else if 0 < Num.cmp x y then y else if x.sign then x else y

/-- Maximum of IEEE 754-2019. -/
def Num.max (x y : Num) : Num :=
  if x.isNan || y.isNan then .nan
  else if Num.cmp x y < 0 then y else if 0 < Num.cmp x y then x else if x.sign then y else x

/-- The value P + √2·Q scaled by 2^e, exact or to `prec` bits (R56). -/
def Num.ofQuad (p q e : Int) : Num :=
  if q = 0 then .ofScaled p e
  else
    let k := prec
    let x := isqrt (2 * q.natAbs * q.natAbs * 2 ^ (2 * k))
    let y := p.natAbs * 2 ^ k
    if p = 0 ∨ (p < 0 ↔ q < 0) then .fin (decide (q < 0)) (y + x) (e - k) true
    else if x < y then .fin (decide (p < 0)) (y - x - 1) (e - k) true
    else .fin (decide (q < 0)) (x - y) (e - k) true

/-- Σ over odd j of z^j/j for z = a/b, fixed point with w fraction bits: atanh. -/
def atanhGo (w : Nat) (z2 : Nat) : Nat → Nat → Nat → Nat → Nat
  | 0, _, _, acc => acc
  | n + 1, j, t, acc => atanhGo w z2 n (j + 2) (t * z2 / 2 ^ w) (acc + t / j)

/-- atanh of z (fixed point, z ≤ 1/3). -/
def atanhFx (w z : Nat) : Nat := atanhGo w (z * z / 2 ^ w) (w / 3 + 8) 1 z 0

/-- ln 2 with w fraction bits. -/
def ln2Fx (w : Nat) : Nat := 2 * atanhFx w (2 ^ w / 3)

/-- e^y − Taylor, fixed point. -/
def expGo (w y : Nat) : Nat → Nat → Nat → Nat → Nat
  | 0, _, _, acc => acc
  | n + 1, j, t, acc => expGo w y n (j + 1) (t * y / 2 ^ w / j) (acc + t)

/-- e^y for 0 ≤ y < 1, w fraction bits. -/
def expFx (w y : Nat) : Nat := expGo w y (w / 4 + 8) 1 (2 ^ w) 0

/-- Guard bits that the fixed-point functions drop. -/
def guard : Nat := 64

/-- 2^x for an exact value x (Table 4.2): exact for an integer, else to `prec` bits. Values far beyond every format
stand for the whole range. -/
def Num.exp2 : Num → Num
  | .nan => .nan
  | .inf neg => if neg then .fin false 0 0 false else .inf false
  | .fin neg m e _ =>
    if m = 0 then .fin false 1 0 false
    else
      let top : Int := (bitLen m : Int) + e
      if 20 < top then (if neg then .fin false 1 (-100000) true else .fin false 1 100000 true)
      else
        let x : Int := if neg then -(m : Int) else m
        let w := prec + guard
        if 0 ≤ e then .fin false 1 (x * (2 ^ e.toNat : Nat)) false
        else
          let d : Nat := 2 ^ (-e).toNat
          let n := x / (d : Int)
          let fr := (x % (d : Int)).toNat
          if fr = 0 then .fin false 1 n false
          else
            let y := (fr * ln2Fx w) / d
            .fin false (expFx w y / 2 ^ guard) (n - prec) true

/-- log2 of an exact value (Table 4.2). -/
def Num.log2 : Num → Num
  | .nan => .nan
  | .inf neg => if neg then .nan else .inf false
  | .fin neg m e _ =>
    if m = 0 then .inf true
    else if neg then .nan
    else
      let k := bitLen m - 1
      let n : Int := e + k
      if m = 2 ^ k then .ofInt n
      else
        let w := prec + guard
        let z := (m - 2 ^ k) * 2 ^ w / (m + 2 ^ k)
        let l := 2 * atanhFx w z * 2 ^ w / ln2Fx w
        let v : Int := n * (2 ^ w : Nat) + l
        if v < 0 then .fin true ((-v).toNat / 2 ^ guard) (-(prec : Int)) true
        else .fin false (v.toNat / 2 ^ guard) (-(prec : Int)) true

/-- atan(1/n) with w fraction bits. -/
def atanGo (w n2 : Nat) : Nat → Nat → Nat → Bool → Int → Int
  | 0, _, _, _, acc => acc
  | i + 1, j, t, neg, acc =>
    atanGo w n2 i (j + 2) (t / n2) (!neg) (if neg then acc - (t / j : Nat) else acc + (t / j : Nat))

/-- π with w fraction bits (Machin). -/
def piFx (w : Nat) : Nat :=
  (16 * atanGo w 25 (w / 4 + 8) 1 (2 ^ w / 5) false 0 - 4 * atanGo w 57121 (w / 14 + 8) 1 (2 ^ w / 239) false 0).toNat

/-- Alternating Taylor sum with steps of two factorial factors. -/
def trigGo (w y2 : Nat) : Nat → Nat → Nat → Bool → Int → Int
  | 0, _, _, _, acc => acc
  | i + 1, j, t, neg, acc =>
    trigGo w y2 i (j + 2) (t * y2 / 2 ^ w / (j * (j + 1))) (!neg) (if neg then acc - (t : Int) else acc + (t : Int))

/-- sin y and cos y for 0 ≤ y ≤ π/4. -/
def sinFx (w y : Nat) : Nat := (trigGo w (y * y / 2 ^ w) (w / 6 + 8) 2 y false 0).toNat
def cosFx (w y : Nat) : Nat := (trigGo w (y * y / 2 ^ w) (w / 6 + 8) 1 (2 ^ w) false 0).toNat

/-- sin(2πt/2^48) for t in the first eighth of a turn, or cos where `c` is set. -/
def octant (c : Bool) (t : Nat) : Num :=
  let w := prec + guard
  if t = 0 then .fin false (if c then 1 else 0) 0 false
  else
    let y := t * 2 * piFx w / 2 ^ 48
    .fin false ((if c then cosFx w y else sinFx w y) / 2 ^ guard) (-(prec : Int)) true

/-- sin(2πt/2^48), 0 ≤ t < 2^48: exact at the quarter turns, +0 at its zeros (R103). -/
def sinTurn (t : Nat) : Num :=
  let h := t % 2 ^ 47
  let v := if h ≤ 2 ^ 45 then octant false h
    else if h ≤ 2 ^ 46 then octant true (2 ^ 46 - h)
    else if h ≤ 2 ^ 46 + 2 ^ 45 then octant true (h - 2 ^ 46)
    else octant false (2 ^ 47 - h)
  if 2 ^ 47 ≤ t ∧ h ≠ 0 then v.neg else v

/-- cos(2πt/2^48). -/
def cosTurn (t : Nat) : Num := sinTurn ((t + 2 ^ 46) % 2 ^ 48)

/-- CRC-32C, one bit (Castagnoli, reflected; parameters PRESUMED, log 8). -/
def crc32cBits : Nat → Nat → Nat
  | 0, c => c
  | n + 1, c => crc32cBits n (if c % 2 = 1 then (c / 2) ^^^ 0x82F63B78 else c / 2)

/-- CRC-32C of a byte string. -/
def crc32c (bs : List Nat) : Nat :=
  (bs.foldl (fun c b => crc32cBits 8 (c ^^^ (b % 256))) 0xFFFFFFFF) ^^^ 0xFFFFFFFF

/-- CRC-16 of R244: polynomial 0x1021, initial value 0xFFFF, no reflection, no final inversion. -/
def crc16Bits : Nat → Nat → Nat
  | 0, c => c
  | n + 1, c => crc16Bits n (if 0x8000 ≤ c then (c * 2 % 65536) ^^^ 0x1021 else c * 2)

def crc16 (bs : List Nat) : Nat := bs.foldl (fun c b => crc16Bits 8 (c ^^^ (b % 256 * 256))) 0xFFFF

/-- n bytes of a number, least significant first. -/
def leBytes : Nat → Nat → List Nat
  | 0, _ => []
  | n + 1, v => v % 256 :: leBytes n (v / 256)

/-- The number that bytes spell, least significant first. -/
def leNat : List Nat → Nat
  | [] => 0
  | b :: r => b % 256 + 256 * leNat r

/-- r of R58: bits 15:0 of the CRC-32C of seed, row and column. -/
def stochR (seed row col : Nat) : Nat :=
  crc32c (leBytes 4 seed ++ leBytes 4 (row % 2 ^ 32) ++ leBytes 4 (col % 2 ^ 32)) % 65536

/-- An element's value before any block scale (R37, R40, R44). -/
def elemVal (fmt n : Nat) : Num :=
  match fpOf fmt with
  | some f => fpDecode f n
  | none =>
    if fmt = 6 then .ofInt (toSigned 8 n) else if fmt = 7 then .ofInt (toSigned 32 n)
    else if fmt = 0x11 then .ofInt (toSigned 64 n)
    else if fmt = 0xD then .ofScaled (toSigned 8 n) (-6)
    else if fmt = 0xE then
      let m := n % 8
      if m = 0 then .fin false 0 0 false
      else
        let neg := decide (8 ≤ n % 16)
        let v := if m % 2 = 1 then .ofScaled 1 ((m - 1) / 2 : Nat) else Num.ofQuad 0 1 ((m - 2) / 2 : Nat)
        if neg then v.neg else v
    else .ofInt n

/-- An element with its block's scale byte (R40). -/
def scaledVal (fmt n scale : Nat) : Num :=
  if isBlockFmt fmt then (if scale = 0xFF then .nan else (elemVal fmt n).scale ((scale : Int) - 127)) else elemVal fmt n

/-- A WIDE word read under R54 and R63. -/
def wideVal (n : Nat) : Num :=
  let mode := n / 2 ^ 122 % 8
  let a := toSigned 10 (n / 2 ^ 112)
  let sum := n % 2 ^ 112
  let ninf := n / 2 ^ 127 % 2 = 1
  let pinf := n / 2 ^ 126 % 2 = 1
  let nan := n / 2 ^ 125 % 2 = 1
  if 5 ≤ mode ∨ ((mode = 1 ∨ mode = 2) ∧ (a < -254 ∨ 254 < a)) then .nan
  else if nan ∨ (pinf ∧ ninf) then .nan
  else if pinf then .inf false
  else if ninf then .inf true
  else if mode = 0 then .fin false 0 0 false
  else if mode = 1 then .ofScaled (toSigned 112 sum) (a - 63)
  else if mode = 2 then Num.ofQuad (toSigned 56 sum) (toSigned 56 (sum / 2 ^ 56)) (a - 31)
  else fpDecode fp32 (sum % 2 ^ 32)

/-- Writes a value as one element of a format without block scales: pattern and flags (R59, R60, R63). -/
def elemRound (fmt rnd r : Nat) (sat : Bool) (x : Num) : Nat × Nat :=
  match fpOf fmt with
  | some f => fpRound f rnd r sat x
  | none => if isIntFmt fmt then intRound (elemBits fmt) rnd r x else (0, 0)

/-- emax of R64. -/
def emaxOf (fmt : Nat) : Int :=
  if fmt = 8 then 8 else if fmt = 9 then 15 else if fmt = 0xA then 2 else if fmt = 0xB then 4
  else if fmt = 0xC then 2 else if fmt = 0xD then 0 else 3

/-- The QL4 code of |y| (R64): boundaries halfway between code values, 0.5 and below is zero. Codes counted in
halves of an exponent; `bound m` is the sum of the values of codes m and m + 1. A WIDE source that lies on a boundary, where no tie is
said to occur, is decided by values cut to 448 bits (log 79). -/
def ql4Code (y : Num) : Nat :=
  let bound (m : Nat) : Num := if m % 2 = 1 then Num.ofQuad (2 ^ ((m - 1) / 2) : Nat) (2 ^ ((m - 1) / 2) : Nat) (-1)
    else Num.ofQuad (2 ^ (m / 2) : Nat) (2 ^ ((m - 2) / 2) : Nat) (-1)
  let a := y.abs
  let above (b : Num) : Bool := decide (0 < Num.cmp a b)
  if !(above (.ofScaled 1 (-1))) && !(decide (Num.cmp a (.ofScaled 1 (-1)) = 0) &&
      (match a with | .fin _ _ _ st => st | _ => false)) then 0
  else (((List.range 6).filter fun i => above (bound (i + 1))).length + 1)

/-- quantise of R64: one element of a block format, saturating. -/
def quantise (fmt rnd : Nat) (y : Num) : Nat :=
  if fmt = 0xE then
    let c := ql4Code y
    if c = 0 then 0 else if y.sign then c + 8 else c
  else if fmt = 0xD then (intRound 8 (if rnd = 4 then 0 else rnd) 0 (y.scale 6)).1
  else match fpOf fmt with
    | some f => (fpRound f (if rnd = 4 then 0 else rnd) 0 true y).1
    | none => 0

/-- floor(log2 |x|) of a value that is neither zero nor special. -/
def Num.ilog2 : Num → Int
  | .fin _ m e _ => (bitLen m : Int) - 1 + e
  | _ => 0

/-- The largest magnitude of a block. -/
def maxAbs (xs : List Num) : Num := xs.foldl (fun a x => if Num.cmp a x.abs < 0 then x.abs else a) (.fin false 0 0 false)

/-- Quantises one block of R64: scale byte, elements, flags; `prev` is the previous block's scale. -/
def quantBlock (fmt rnd prev : Nat) (xs : List Num) : Nat × List Nat × Nat :=
  if xs.any fun x => x.isNan || x.isInf then (0xFF, xs.map fun _ => 0, aNan)
  else if xs.all Num.isZero then (prev, xs.map fun _ => 0, 0)
  else
    let e := (maxAbs xs).ilog2 - emaxOf fmt
    let e := if e < -127 then -127 else if 127 < e then 127 else e
    ((e + 127).toNat, xs.map fun x => quantise fmt rnd (x.scale (-e)), 0)

end Sys2Proof.Machine
end

