-- ==== Sys2Proof/Machine/State.lean ====
section
/-! DEFINITION. The state of the P36 module: plain data. Fields that the manual numbers as CSR or BAR register fields
live in `regs`, one entry per field, with the reset values of their tables as defaults (Machine/Regs.lean); what the
registers do not show stands in the structures below, one per chapter. -/

namespace Sys2Proof.Machine

/-- Reasons the machine stops. -/
inductive Fault where
  /-- Raised by no meaning of this model: the spec's own faults are events with effects on the state (R399). Safe. -/
  | unreachable
  deriving DecidableEq, Repr

/-- Reasons for an answer without a meaning. -/
inductive Refusal where
  /-- Raised by Dispatch.lean alone, for a command that has no meaning yet. Safe: nothing can be proved of it. -/
  | notModelled (mnemonic : String)
  deriving DecidableEq, Repr

/-- What an S-core waits for (R111, R127, R141, R278, R280, R361, R470); `flag` is a Y.SET or Y.CLR that waits for
its stores. -/
inductive SWait where
  | ctr (i : Nat) (val : Nat)
  | orFlags (vat : Nat) (mask : Word)
  | andFlags (vat : Nat) (mask : Word)
  | barrier (vat : Nat) (gen : Nat)
  | step (vat : Nat) (gen : Nat) (rd : Nat)
  | flag (vat : Nat) (mask : Word) (set : Bool)
  | load
  | start
  deriving DecidableEq, Repr

/-- A pending exception of source 0 to 3, 5 or 6 (R144, R146). -/
structure Exc where
  cause : Nat
  src : Nat
  ord : Nat
  sigCtr : Nat
  tag : Nat
  priv : Bool
  addr : Word
  deriving DecidableEq, Repr

/-- A remote S-MEM access that is not yet answered (R111, R251). `dst` is its stream: the system core id of the
destination core, above that for a tier or a service-privilege access (`streamOf`); `resent`: it has received RESEND; `again`: it
is to be sent again. Its timer is that of an F operation (R252). -/
structure RemAcc where
  op : Nat
  redop : Nat
  data : Word
  dst : Nat
  seq : Nat
  addr : Word
  isLoad : Bool
  rd : Nat
  size : Nat
  signed : Bool
  fp : Bool
  priv : Bool
  resent : Bool := false
  again : Bool := false
  ran : Nat := 0
  since : Option Nat := none
  deriving DecidableEq, Repr

/-- The S-core of a cluster (R109, Table 5.16). -/
structure SCore where
  up : Bool := false
  x : FMap Word := []
  f : FMap Word := []
  pc : Word := 0
  cmdtag : Word := 0
  cmdwait : Word := 0
  cmdsig : Word := 0
  vtvec : Word := 0
  vepc : Word := 0
  vecause : Word := 0
  veinfo : Word := 0
  veaddr : Word := 0
  stvec : Word := 0
  sepc : Word := 0
  secause : Word := 0
  seinfo : Word := 0
  seaddr : Word := 0
  priv : Bool := true
  inVH : Bool := false
  inSH : Bool := false
  prevPriv : Bool := false
  qdlv : BitVec 4 := 0
  wait : Option SWait := none
  deadline : Option Nat := none
  held : Bool := false
  spilled : Bool := false
  spillReq : Bool := false
  stopped : Bool := false
  fullStall : Bool := false
  accs : List RemAcc := []
  seqs : FMap Nat := []
  nextF : Nat := 0
  excs : List Exc := []
  deriving DecidableEq, Repr

/-- State of a queue entry (Table 4.7 HEAD); `ended` is a command whose work is done and whose completion or failure
has not been carried out yet. -/
inductive QSt where
  | waiting
  | running
  | interrupted
  | ended (cause : Nat)
  | failed (cause : Nat)
  deriving DecidableEq, Repr

/-- A command queue entry (R113, R131); `noRec` says that its completion record's location failed R134's overlap test
(R135), `fails` counts its check failures (R87), `excess` what the sums of its spilled accumulators have beyond the fields of
their words (accumulator, first part, second part; R50, log 43). -/
structure QEntry where
  isM : Bool
  op : Nat
  pail : Nat
  off : Nat
  tag : Nat
  wait : Word
  sig : Word
  priv : Bool
  st : QSt := .waiting
  arith : Nat := 0
  oob : Bool := false
  resumed : Bool := false
  restarted : Bool := false
  noRec : Bool := false
  fails : Nat := 0
  excess : List (Nat × Int × Int) := []
  deriving DecidableEq, Repr

/-- One accumulator (Table 2.6), its sums kept as wide as they need (R50): p is the EXACT sum or the rational part,
q q the √2 part, f the FP32 running sum; `live`: an initial word or a streamed row has reached it (MODE is not EMPTY). -/
structure Acc where
  p : Int := 0
  q : Int := 0
  nan : Bool := false
  pinf : Bool := false
  ninf : Bool := false
  f : BitVec 32 := 0
  live : Bool := false
  deriving DecidableEq, Repr

/-- A weight buffer (R65, R68): the weight block (nb, kb) it holds, for each column its element patterns and its scale bytes. -/
structure WBuf where
  nb : Nat
  kb : Nat
  cols : List (List Nat × List Nat)
  deriving DecidableEq, Repr

/-- A running M-class instruction (R68): what its pre-pass found, folds completed, the accumulators of the current
m-group (row × 128 + column; empty before its first fold), and whether it has been restored from a record and issued no
fold since (R81); the front and the back weight buffer. -/
structure MRun where
  desc : List Word
  fold : Nat := 0
  prepass : Bool := false
  span : Bool := false
  anchor : Int := 0
  arith : Nat := 0
  acc : List Acc := []
  fresh : Bool := false
  front : Option WBuf := none
  back : Option WBuf := none
  deriving DecidableEq, Repr

/-- An M-core or V-core: its running instruction, a Hold in force, a Spill pending or served (R79, R80), and the
twin claim of R88. -/
structure CoreRun where
  run : Option MRun := none
  held : Bool := false
  spillReq : Option SpillReason := none
  spilled : Bool := false
  twin : Bool := false
  deriving DecidableEq, Repr

/-- An operation of a memory-side engine (R136, R137). -/
structure MseOp where
  copy : Bool
  srcPail : Nat
  dstPail : Nat
  src : Nat
  dst : Nat
  dstOff : Nat
  len : Nat
  pat : Word
  sigCtr : Nat
  sigEn : Bool
  priv : Bool
  deriving DecidableEq, Repr

/-- Kinds of F operation. -/
inductive FKind where
  | put | get | churn
  deriving DecidableEq, Repr

/-- An outstanding F operation of an S-core (R140, R248). `again`: packets that RESEND or RETRY asks for; `ran` is the time its
timer has counted before `since`; the timer stands while `since` is none (R252); `data`: bytes that a resident service has made
ready, in place of a local range (R295). -/
structure FOp where
  opid : Nat
  ord : Nat
  kind : FKind
  remote : Word
  loc : Word
  len : Nat
  hi : Nat
  route : Option Nat
  sigCtr : Nat
  sigEn : Bool
  vat : Nat
  priv : Bool
  sent : Nat
  total : Nat
  acked : List Nat
  resent : List Nat
  ran : Nat
  since : Option Nat
  again : List Nat := []
  data : Option (List Byte) := none
  deriving DecidableEq, Repr

/-- The clusters' engines and what they hold. Keys: cluster = tile × 32 + site × 4 + cluster; core = tile × 256 +
site × 32 + cluster × 8 + slot; queue = cluster × 4 + queue. `ecc` marks scratch words (1 = single-bit error,
2 = uncorrectable), `wback` the queued write-backs of R153, `ueNew` the uncorrectable words not yet reported to the tile
controller (core × 2^21 + word, who met it; R154). -/
structure Compute where
  sc : FMap SCore := []
  queues : FMap (List QEntry) := []
  cores : FMap CoreRun := []
  mse : FMap (List MseOp) := []
  fops : FMap (List FOp) := []
  ecc : FMap Nat := []
  wback : List Nat := []
  ueNew : List (Nat × Nat) := []
  deriving DecidableEq, Repr

/-- A tier mover's running descriptor (R197): its words, the cause found so far, what it has gathered. -/
structure MvRun where
  ring : Nat
  desc : List Word
  cause : Nat
  arith : Nat := 0
  statusBad : Bool := false
  moved : Bool := false
  deriving DecidableEq, Repr

/-- The memory tiers. `poison` marks T1 and T2 lines by address ÷ 64 (1 = poisoned, 2 = a correctable error is
latent, 3 = clean on the second read, 4 = uncorrectable and not yet marked); `t3map` is the range of a port in CXL mode as
accepted at the last training, in units of 256 MiB, `t3nvme` the ports trained in NVME mode; `overrun`: overrun rings reported to the
resident manager (mover × 4 + ring, oldest first; R192). -/
structure Tiers where
  poison : FMap Nat := []
  mv : FMap MvRun := []
  t3map : FMap Nat := []
  t3nvme : List Nat := []
  overrun : List Nat := []
  deriving DecidableEq, Repr

/-- A scheduled transfer (Table 8.6) with the counted slot of its injection and the place (`scrKey`) of its source bytes; `bad`: an
injected error has flipped a payload bit (R334); `torn`: a lane group has failed under it (R229). -/
structure Xfer where
  vat : Nat
  src : Nat
  dstPail : Nat
  dstOff : Nat
  sigEn : Bool
  sigCtr : Nat
  lg : Nat
  injAt : Nat
  payload : List Byte
  bad : Bool
  torn : Bool := false
  from_ : Nat := 0
  deriving DecidableEq, Repr

/-- A read that an injector has started for a transfer (R218): its core and entry, the counted slot of the injection, where the bytes
lie and what they were; none where SRC_PAIL did not let it read. -/
structure SRead where
  core : Nat
  w0 : Nat
  w1 : Nat
  at_ : Nat
  pos : Nat
  bytes : Option (List Byte)
  deriving DecidableEq, Repr

/-- A transfer that waits at its last hop for delivery: destination cluster and core slot as the entry names them. -/
structure Arrival where
  tile : Nat
  lsite : Nat
  lg : Nat
  cl : Nat
  slot : Nat
  x : Xfer
  deriving DecidableEq, Repr

/-- A repair in progress (R226); `resent`: numbers of its packets that a RESEND has asked for. -/
structure Repair where
  rid : Nat
  a : Arrival
  resent : List Nat := []
  deriving DecidableEq, Repr

/-- How a loaded schedule image stands (R222, R223, R230). -/
inductive ImgSt where
  | staged | armed | disarmed
  deriving DecidableEq, Repr

/-- A top-level vat's loaded schedule image: the bank it stands in, the frame at which it arms, its ownership records
(tile, port, lg, slot, entry) and injection records (core id, word 0, word 1). -/
structure Image where
  vat : Nat
  st : ImgSt
  armAt : Option Nat
  bank : Nat
  own : List (Nat × Nat × Nat × Nat × Nat)
  inj : List (Nat × Nat × Nat)
  deriving DecidableEq, Repr

/-- A cluster whose scheduled injectors stop (1) or start (0) at the next slot or, with `frame`, frame boundary (R228). -/
structure InjDue where
  ck : Nat
  v : Nat
  frame : Bool
  deriving DecidableEq, Repr

/-- The scheduled plane (08). `slots` counts counted slots since CLOCK_MESH; `inHeld`: the panel is in a held slot;
`stage` and `stageIn` are the stage buffers (key tile × 256 + port × 16 + lg × 2 + half) of the previous and of the
current scheduled slot; `holdAt` the pending hold target (R236); `events` and `evWait` the stretch events of a tile in
this slot and the sizes that wait for the next (R234). -/
structure Sched where
  slots : Nat := 0
  inHeld : Bool := false
  stage : FMap (Option Xfer) := []
  stageIn : FMap (Option Xfer) := []
  arrivals : List Arrival := []
  repairs : List Repair := []
  nextRid : Nat := 0
  images : List Image := []
  holdAt : Option Nat := none
  events : FMap Nat := []
  evWait : FMap (List Nat) := []
  injDue : List InjDue := []
  reads : List SRead := []
  deriving DecidableEq, Repr

/-- What a packet belongs to, beside its header: how the P36 matches its reply. -/
inductive Owner where
  | fop
  | smem (stream : Nat)
  | node (t : Nat) (n : Nat)
  | repair (rid : Nat)
  | unit
  | stray
  deriving DecidableEq, Repr

/-- A packet of the dynamic plane (Table 9.3). `at_` is the tile whose router holds it, `inPort` the input buffer it is in
(`inKey`), `out` the output it waits for and `waitAt` the flits that output had sent when the wait began (R264), `passed` the
tile + 1 whose churn node has let it through (R290), `hdrOk` and `crcOk` whether HCRC and the trailer still match, `from_` the
cluster that injected it, `retryAt` the time of a delayed resend (R250), `held` an injected reordering (R334). -/
structure Pkt where
  pid : Nat
  cls : Nat
  op : Nat
  epoch : Nat
  rmode : Bool
  hop : Nat
  vat : Nat
  route : Nat
  daddr : Word
  dmod : Nat
  dtile : Nat
  src : Nat
  seq : Nat
  opid : Nat
  redop : Nat
  skim : Nat
  cause : Nat
  len : Nat
  payload : List Byte
  owner : Owner
  from_ : Nat
  at_ : Nat
  inPort : Nat
  out : Option Nat
  hdrOk : Bool
  crcOk : Bool
  sentAt : Nat
  retryAt : Option Nat
  held : Bool
  passed : Nat
  waitAt : Nat := 0
  deriving DecidableEq, Repr

/-- An early access in a reorder stage (R251), with the place it was resolved to at its arrival (R270). -/
structure Early where
  p : Pkt
  core : Nat
  off : Nat
  deriving DecidableEq, Repr

/-- A packet that waits to enter the plane: from a cluster, or from the base die it stands at; `starts`: it begins an operation, so
inject-pause holds it (R267). -/
structure Parked where
  by_ : Option Nat
  starts : Bool
  p : Pkt
  deriving DecidableEq, Repr

/-- Receiver side of a link direction (R310). -/
structure LinkRx where
  expect : Nat := 0
  discarding : Bool := false
  deriving DecidableEq, Repr

/-- Sender side of a link direction (R309 to R311): next sequence number, flits held in the replay buffer with their numbers
(oldest first), landing-buffer credits in use of the four shares and of the pool. -/
structure LinkTx where
  next : Nat := 0
  held : List (Nat × List Byte) := []
  share : List Nat := [0, 0, 0, 0]
  pool : Nat := 0
  deriving DecidableEq, Repr

/-- The dynamic plane (09). `clsOff`: classes that a receiver holds OFF since time + 1 (key `offKey`); `turn`: the next OPID of an
injector's round (R248); `served`: the input port + 1 that an output served last in a class (R264; key (tile × 128 + output) × 4 +
class); `reorder`: early S-MEM accesses held by reorder stages; `expect`: next SEQ per source and destination pair; `waitFrom`:
time + 1 since which heads wait for an output (tile × 16 + port); `asm`: bytes of the packet that is arriving at a reach port
(port × 4 + class). -/
structure Fabric where
  net : List Pkt := []
  nextPid : Nat := 0
  clsOff : FMap Nat := []
  pauseAt : Nat := 0
  epochBusy : Bool := false
  epochQueue : List Nat := []
  turn : FMap Nat := []
  served : FMap Nat := []
  reorder : List Early := []
  parked : List Parked := []
  expect : FMap Nat := []
  waitFrom : FMap Nat := []
  asm : FMap (List Byte) := []
  deriving DecidableEq, Repr

/-- The link layer (11). Keys of `rx` and `tx`: `endKey`. A direction is named by its receiver (`dirKey`), a group by
direction × 8 + group, a lane by group × 2048 + lane. `laneErr`: window, errors in it, and (whey slot of the last errors
+ 1) × 4 + run of bad whey slots; `bad`, `grpHist` and `skewHist` (tile × 4 + edge): the lane history (R315, R382); `injBad`: bad by injection; `spares`: the
spare that serves a lane, + 1; `due`: groups to be retired, `chanDue`: express channels to be retired (receiving port × 32 + channel); `grpErr`: window and flit
CRC failures in it; `tries` and `merged`: attempts of the running training and the maps merged for the next (receiving and sending
direction), `mergedG`: 65,535 less the groups merged for the next (receiving × 256 + sending), `props`: this end's last proposal;
`upMap`: lane-group maps of the dies' sending directions (die key; R320), + 1; `takeover`: time + 1 at which a pair's
takeover began; `laserOn`: age + 1 at which a cartridge's laser went on; `bays`: cartridges that are inserted; `amber`: time + 1 of a refused release; `injNext`: errors waiting
for the next thing to come by (tile, port, kind); `injLane`: whey slots that a lane still shows injected errors. -/
structure Links where
  rx : FMap LinkRx := []
  tx : FMap LinkTx := []
  laneErr : FMap (Nat × Nat × Nat) := []
  bad : List Nat := []
  grpHist : List Nat := []
  skewHist : List Nat := []
  injBad : List Nat := []
  spares : FMap Nat := []
  due : List Nat := []
  chanDue : List Nat := []
  grpErr : FMap (Nat × Nat) := []
  ctlBad : FMap Nat := []
  tries : FMap Nat := []
  merged : FMap (List Nat × List Nat) := []
  mergedG : FMap Nat := []
  props : FMap (Option Proposal) := []
  upMap : FMap Nat := []
  takeover : FMap Nat := []
  laserOn : FMap Nat := []
  bays : List Nat := [0, 1, 2, 3]
  amber : FMap Nat := []
  injNext : List (Nat × Nat × Nat) := []
  injLast : FMap Nat := []
  injLeft : FMap Nat := []
  injLane : FMap Nat := []
  deriving DecidableEq, Repr

/-- A partial sum held by a churn node (R287, Table 10.4). -/
structure Part where
  port : Nat
  src : Nat
  mask : Word
  count : Nat
  scale : Nat
  fmt : Nat
  uncomb : Bool
  ovf : Bool
  rmode : Bool
  route : Nat
  hop : Nat
  skim : Nat
  seq : Nat
  opid : Nat
  elems : List Byte
  deriving DecidableEq, Repr

/-- A chunk staged at a node (R288). -/
structure Staged where
  t : Nat
  node : Nat
  vat : Nat
  tree : Nat
  step : Nat
  daddr : Word
  dmod : Nat
  dtile : Nat
  parts : List Part
  combined : Nat
  since : Nat
  sent : Option Pkt
  deriving DecidableEq, Repr

/-- A window at a reducing point (R298). `point`: node n or 64 + sink. -/
structure Window where
  t : Nat
  point : Nat
  vat : Nat
  tree : Nat
  step : Nat
  tOpen : Nat
  skim : Nat
  admitted : Word
  lateMask : Word
  latePkts : Nat
  scale : Nat
  mode : Nat
  passed : Bool
  deriving DecidableEq, Repr

/-- The sealed state of an exponent lane for a TAG (R294); `full`: every module of the vat had written it. -/
structure Seal where
  tag : Nat
  exp : Nat
  included : List Nat
  full : Bool
  deriving DecidableEq, Repr

/-- Churn and the rennet line (10). `closed`: step + 1 of the last window that a reducing point (tile × 128 + point)
has closed; `peak`: largest churn staging of a tile since the last congestion record (R492). Keys: flags and arrivals = vat × 65536 + cluster key; lanes: lane × 64 +
module, value exp × 65536 + tag + 1 so that 0 means nothing written. -/
structure Rennet where
  flags : FMap Word := []
  arrive : FMap Nat := []
  stepArr : FMap Nat := []
  bars : FMap Nat := []
  stepGen : FMap Nat := []
  staged : List Staged := []
  wins : List Window := []
  closed : FMap Nat := []
  peak : FMap Nat := []
  expMod : FMap Nat := []
  seals : FMap (List Seal) := []
  deriving DecidableEq, Repr

/-- How a vat stands (R24–R27, R396, R470). -/
inductive VRun where
  | stopped | running | paused | held
  deriving DecidableEq, Repr

/-- A live vat: its parent (0 = top-level), its clusters on this module (logical key tile × 32 + lsite × 4 +
cluster), the modules it spans, its clusters on the others (`far`: module × 2048 + logical key), how it runs, and what the ledger
keeps of its open step (R361–R366): `claim` is the claim in force, `granted`: this module has admitted a step that others have yet to
admit (R363), `level` the throttle for an over-claim, `closedSteps` its last steps (admitted, closed, µJ, claim). -/
structure Vat where
  id : Nat
  parent : Nat := 0
  clus : List Nat := []
  mods : List Nat := []
  far : List Nat := []
  run : VRun := .stopped
  resumable : Bool := true
  frozen : Option (Word × Word) := none
  stepOpen : Bool := false
  granted : Bool := false
  admittedAt : Nat := 0
  claim : Nat := 0
  level : Nat := 0
  waitingSince : Option Nat := none
  overSince : Option Nat := none
  closedSteps : List (Nat × Nat × Nat × Nat) := []
  lastPower : Nat := 0
  raisedAt : Nat := 0
  killing : Option Nat := none
  svcPaused : Bool := false
  deriving DecidableEq, Repr

/-- A die power-up that has been requested (R354, R355): `checkAt` is the time the neighbour check began, `rampAt` the
time the ramp began (none before), `why` 0 = a migration, 1 = a test. -/
structure PowerUp where
  tile : Nat
  site : Nat
  since : Nat
  checkAt : Option Nat
  rampAt : Option Nat
  why : Nat
  deriving DecidableEq, Repr

/-- A removal in progress (R370) and the input's state (R341–R346, R504). `mated`, `pin`: the blades and the enable pin;
`inputGone`: the input is out of range; `lossAt`: an input loss is declared and the cells are still on; `ovAt`: the input
has been back within 48–60 V since; the times are of `age`. `vat0`: what the ledger keeps of vat 0 (R121, R361). -/
structure Power where
  mated : Bool := false
  pin : Bool := false
  ups : List PowerUp := []
  lossAt : Option Nat := none
  ovAt : Option Nat := none
  precharge : Option Nat := none
  dischargeAt : Option Nat := none
  drainAt : Option Nat := none
  inputGone : Bool := false
  limiting : List Nat := []
  hot : List Nat := []
  throttled : List Nat := []
  winStart : Nat := 0
  budget : Nat := 16000000000
  divSaved : FMap Nat := []
  overhead : Nat := 0
  overheadTicks : Nat := 0
  overheadLast : Option Nat := none
  admitQ : List Nat := []
  modAt : Nat := 0
  modFullSince : Option Nat := none
  modCoolSince : Option Nat := none
  vat0 : Vat := { id := 0, run := .running, stepOpen := true }
  deriving DecidableEq, Repr

/-- Clocks and time (13). `unlocks`: times at which a tile's PLL lost lock; `pllOut`, `pllBack`: tiles that change source in
the next held slot; `warnSince`, `calmSince`, `skewSince` (tile × 4 + edge): time + 1; `divWait`: settings + 1 that wait
(R390); `synced`: the timestamp has been set to a parent's (R393). -/
structure Clocks where
  rateAcc : Int := 0
  unlocks : FMap (List Nat) := []
  pllOut : List Nat := []
  pllBack : List Nat := []
  warnSince : FMap Nat := []
  calmSince : FMap Nat := []
  skewSince : FMap Nat := []
  divWait : FMap Nat := []
  synced : Bool := false
  started : Bool := false
  deriving DecidableEq, Repr

/-- A substitution in progress that has failed at a step and is not yet reported (R409): the vats it holds and the
time the die was lost. -/
structure Subst where
  tile : Nat
  lsite : Nat
  old : Nat
  fresh : Nat
  vats : List Nat
  byCmd : Bool
  retest : Bool
  deriving DecidableEq, Repr

/-- A migration in progress (R413), or a test in place (R414, `fresh` = 7). `ph`: 0 = the dry die is powered up,
1 = the vats are paused and drain, 2 = the test in place runs. `byCmd`: asked for by SITE_CMD; `strike`: asked for under
R404. -/
structure Migr where
  tile : Nat
  lsite : Nat
  old : Nat
  fresh : Nat
  vats : List Nat
  ph : Nat
  since : Nat
  byCmd : Bool
  strike : Bool
  deriving DecidableEq, Repr

/-- A test that runs or waits for its power (R411, R415, R419): `why` 0 = of a dry die after a migration, 1 = with a
strike on a pass, 2 = in place, 3 = TEST_DRY. -/
structure Test where
  tile : Nat
  site : Nat
  why : Nat
  since : Nat
  deriving DecidableEq, Repr

/-- Faults and recovery (14). Records are kept as their eight words (Table 14.2). Keys of dies are tile × 8 + site.
`lossQueue`: dies reported lost and not yet handled, with the code of the reason; `ues`: uncorrectable words (die, core ×
2^21 + word, time); `beats`, `strikeAt`: time + 1; `lastTest`: (time of the last completed test) × 2 + its verdict + 1. -/
structure Faults where
  substs : List Subst := []
  migrs : List Migr := []
  tests : List Test := []
  lossQueue : List (Nat × Nat) := []
  ues : List (Nat × Nat × Nat) := []
  beats : FMap Nat := []
  strikeAt : FMap Nat := []
  lastTest : FMap Nat := []
  perm : List (List Word) := []
  hist : List (List Word) := []
  owner : List (List Word) := []
  deriving DecidableEq, Repr

/-- A firmware or culture slot of the flash (R441, R489): its image, envelope, whether it is written whole and whether both
signatures have verified. -/
structure Slot where
  written : Bool := false
  data : List Byte := []
  svn : Nat := 0
  keyIndex : Nat := 0
  release : Nat := 0
  sigOk : Bool := false
  deriving DecidableEq, Repr

/-- The stored state of R437. -/
structure Stored where
  valid : Bool := false
  maps : FMap Nat := []
  digest : Nat := 0
  testedAt : Nat := 0
  cleanPower : Bool := true
  cleanHistory : Bool := true
  training : Bool := false
  links : FMap Nat := []
  deriving DecidableEq, Repr

/-- Bring-up, culture and resets (15). Dies are tile × 8 + site, base dies 2^20 + tile among culture units. `beganAt`,
`enteredAt`: `age` at the start of the bring-up and of its state; `bits`: chunks that a core or a base die has (R442);
`passEnd`, `sentAt`: when the last pass ends and when the first chunk was sent; `reload`: cores zero-filled and not yet
reloaded (R448); `rst`: the compute reset that runs, its cores, and those still to be reloaded; `rstWait`: one that waits
for a site-map change (R457); `warm`: 1 in a fast path before LINK_RESUME, 2 after it; `digest`: of the fuse blocks. -/
structure Boot where
  enteredAt : Nat := 0
  beganAt : Nat := 0
  baseUp : List Nat := []
  present : List Nat := []
  condemned : List Nat := []
  suspect : List Nat := []
  fuseBad : List Nat := []
  linkBad : List Nat := []
  digest : Nat := 0
  testedAt : Nat := 0
  stored : Stored := {}
  svc : List Slot := [{}, {}]
  cul : List Slot := [{}, {}]
  svcInUse : Nat := 0
  image : List Byte := []
  bits : FMap Nat := []
  confirmed : List Nat := []
  passEnd : Nat := 0
  sentAt : Nat := 0
  reload : List Nat := []
  rst : Option (Nat × List Nat × List Nat) := none
  rstWait : Option (Nat × List Nat) := none
  warm : Nat := 0
  deriving DecidableEq, Repr

/-- A host command that has been fetched (R466, R467). -/
structure HCmd where
  id : Nat
  fn : Nat
  q : Nat
  opcode : Nat
  fence : Bool
  tag : Nat
  opds : List Word
  started : Bool
  deriving DecidableEq, Repr

/-- A completion the P36 still holds because the ring is full (R466). -/
structure HComp where
  fn : Nat
  q : Nat
  tag : Nat
  status : Nat
  result : Word
  deriving DecidableEq, Repr

/-- The host port and the system (16). `msix`: messages sent (function, vector), newest first; `msixTable`: words of
the MSI-X tables (function × 65536 + offset); `vfVat`: the vat a VF is
bound to; `disables`: VFs whose disable waits for a site-map change (R421). -/
structure HostPort where
  up : Bool := false
  cmds : List HCmd := []
  nextId : Nat := 0
  held : List HComp := []
  phase : FMap Nat := []
  cqHead : FMap Nat := []
  events : List Word := []
  msix : List (Nat × Nat) := []
  msixTable : FMap Nat := []
  vfVat : FMap Nat := []
  disables : List Nat := []
  announced : List Nat := []
  upMods : List Nat := []
  readyAt : Nat := 0
  leadLostAt : Option Nat := none
  inSystem : Bool := false
  modNo : Nat := 0
  depthZ : Nat := 0
  deriving DecidableEq, Repr

/-- A run of the step loop (R479). `phase` of the open step's exchange (R294 to R302): 0 = not begun, 1 = the exponents are out since
`since`, 2 = `sent` shards have been contributed; `reduced`: the shards of the open step are done and flag 63 is set. -/
structure StepRun where
  vat : Nat
  cmd : Nat
  left : Nat
  done : Nat
  incomplete : Nat
  desc : List Word
  svcCalled : Bool
  reduced : Bool
  sinceCkpt : Nat
  phase : Nat := 0
  since : Nat := 0
  sent : Nat := 0
  deriving DecidableEq, Repr

/-- A serving request and its sequence (R481, R482). -/
structure Req where
  vat : Nat
  cmd : Nat
  seqId : Nat
  prompt : List Byte
  maxNew : Nat
  out : Word
  stop : Nat
  done : Nat
  entry : Option Nat
  first : Bool
  deriving DecidableEq, Repr

/-- A live sequence: its length and its pages (R481). -/
structure SeqState where
  vat : Nat
  seqId : Nat
  pos : Nat
  pages : Nat
  lastToken : Nat
  deriving DecidableEq, Repr

/-- The resident services (16.5). `rounds`: 2 × the next round number of a vat, or + 1 while a round is with the decode program;
`rotated`, `rotateSeen`: next logical site of a tile and time + 1 of its last rotation; `ckptWait`: commands that wait for a step to
close; `reserved`: clusters of a tile reserved for vat 0 where that is not one (R120). -/
structure Services where
  steps : List StepRun := []
  reqs : List Req := []
  seqs : List SeqState := []
  rounds : FMap Nat := []
  rotated : FMap Nat := []
  rotateSeen : FMap Nat := []
  ckptWait : List Nat := []
  reserved : FMap Nat := []
  deriving DecidableEq, Repr

/-- The congestion records (R492): the millisecond at which the counters were last taken, the interval's number, its
frame, the counters (tile × 64 + port × 4 + counter), and of each tile in the interval the smallest margin + 1 and the largest
deficit. -/
structure Cong where
  at_ : Nat := 0
  seq : Nat := 0
  frame : Nat := 0
  base : FMap Nat := []
  margin : FMap Nat := []
  deficit : FMap Nat := []
  deriving DecidableEq, Repr

/-- Management and the life cycle (17). Keys are held as numbers: two public keys as one number. `grades`: revision rows
written for a die (tile × 8 + site) × 4, + 2 or 3 where the last valid one calls it good or bad (R495); `creds`: management
credentials are held; `answers`: what management reads have answered, newest last; `eraseDue`: step 2 of R497 is due; `fuseDigest`: the digest of all
fuse blocks as measured (Table 17.3). -/
structure Mgmt where
  ownerKey : Option Nat := none
  nonce : Option (Nat × Nat) := none
  token : Option (BitVec 384) := none
  tokenEnd : Nat := 0
  creds : Bool := true
  svcMin : Nat := 0
  culMin : Nat := 0
  eraseDue : Bool := false
  presenceEnd : Nat := 0
  answers : List Word := []
  grades : FMap Nat := []
  fuseDigest : Nat := 0
  deriving DecidableEq, Repr

/-- Thermal life and the tray (17.5, 18). Residue stacks hold turning points, newest first; their head is the extreme that
is not yet confirmed. `lifeDays`: LIFE_USED of a tile at the starts of days, newest first; `dieTemp`: last readings (tile ×
32 + site × 4 + sensor); `cutAt`: a cut that waits for its restart; `cutDue`: its record is due; `restartAt`: automatic
restarts. -/
structure Tray where
  residue : FMap (List Nat) := []
  savedLife : FMap Nat := []
  savedResidue : FMap (List Nat) := []
  lifeDays : FMap (List Nat) := []
  lifeDay : Nat := 0
  dieTemp : FMap Nat := []
  savedAt : Nat := 0
  cutAt : Option Nat := none
  cutDue : Bool := false
  restartAt : List Nat := []
  deriving DecidableEq, Repr

/-- The module. `pending` is the queue of commands that wait, first in, first out; `now` is CK_T (R391), which starts at
CLOCK_MESH; `age` is the time of the standby side and of the service controller, in the same unit, since reset (log 7);
`free` counts the free values drawn (log 5). -/
structure State where
  pending : List Instr := []
  now : Nat := 0
  age : Nat := 0
  free : Nat := 0
  regs : FMap Nat := []
  mem : List Host.Cell := []
  cmp : Compute := {}
  tier : Tiers := {}
  sch : Sched := {}
  fab : Fabric := {}
  lnk : Links := {}
  ren : Rennet := {}
  vats : List Vat := []
  pwr : Power := {}
  clk : Clocks := {}
  flt : Faults := {}
  boot : Boot := {}
  host : HostPort := {}
  svc : Services := {}
  cong : Cong := {}
  mgmt : Mgmt := {}
  tray : Tray := {}
  deriving DecidableEq, Repr

/-- The module as it leaves the factory line and before any power: every register at its reset value (Table 19.1's
tables), memory with nothing listed, no command waiting. -/
def State.reset : State := {}

end Sys2Proof.Machine
end

