-- ==== Sys2Proof/Machine/Regs.lean ====
section
/-! DEFINITION. Every field of every CSR block (Table 19.1) and of the BAR0 registers (Tables 16.3, 16.4), as the
tables of the owning chapters lay them out: block, offset, step and count of an indexed register, lowest bit, width,
access code and reset value. Fused, stored and derived fields reset to the values of log 2. -/

namespace Sys2Proof.Machine

/-- Access codes of Table 0.4. -/
inductive Access where
  | ro | rw | w1c | w1s | wo | rwl
  deriving DecidableEq, Repr

/-- The CSR blocks of Table 19.1 and the two groups of BAR0 registers. -/
inductive Blk where
  | matrixChk
  | cmdQueue
  | cmdCounter
  | scratch
  | schedInj
  | dynInj
  | tileSite
  | tierMover
  | t1Stack
  | t2Pkg
  | t3Port
  | tierGrant
  | sched
  | dyn
  | dirtab
  | rennet
  | churn
  | link
  | express
  | reach
  | laser
  | linkInj
  | tilePower
  | ledger
  | moduleInput
  | clock
  | time
  | fault
  | faultLog
  | bringup
  | mgmt
  | thermalLife
  | tray
  | fnRegs
  | qRegs
  deriving DecidableEq, Repr

/-- A register field. -/
structure Fld where
  blk : Blk
  off : Nat
  step : Nat
  cnt : Nat
  lo : Nat
  w : Nat
  acc : Access
  rst : Nat
  deriving DecidableEq, Repr

namespace Reg

def SITE_MAP_LSITE0 : Fld := ⟨.tileSite, 0x0, 0x8, 1, 0, 3, .ro, 0x0⟩
def SITE_MAP_LSITE1 : Fld := ⟨.tileSite, 0x0, 0x8, 1, 3, 3, .ro, 0x1⟩
def SITE_MAP_LSITE2 : Fld := ⟨.tileSite, 0x0, 0x8, 1, 6, 3, .ro, 0x2⟩
def SITE_MAP_LSITE3 : Fld := ⟨.tileSite, 0x0, 0x8, 1, 9, 3, .ro, 0x3⟩
def SITE_MAP_LSITE4 : Fld := ⟨.tileSite, 0x0, 0x8, 1, 12, 3, .ro, 0x4⟩
def SITE_MAP_LSITE5 : Fld := ⟨.tileSite, 0x0, 0x8, 1, 15, 3, .ro, 0x5⟩
def SITE_MAP_DRY : Fld := ⟨.tileSite, 0x0, 0x8, 1, 18, 3, .ro, 0x6⟩
def SITE_MAP_MAP_GEN : Fld := ⟨.tileSite, 0x0, 0x8, 1, 24, 16, .ro, 0x0⟩
def SITE_STATE_SITE_ST : Fld := ⟨.tileSite, 0x8, 0x8, 1, 0, 28, .ro, 0x0⟩
def SITE_CMD_LSITE : Fld := ⟨.tileSite, 0x10, 0x8, 1, 0, 3, .wo, 0x0⟩
def SITE_CMD_OP : Fld := ⟨.tileSite, 0x10, 0x8, 1, 3, 2, .wo, 0x0⟩
def SITE_CMD_PREEMPT : Fld := ⟨.tileSite, 0x10, 0x8, 1, 5, 1, .wo, 0x0⟩
def SITE_STATUS_BUSY : Fld := ⟨.tileSite, 0x18, 0x8, 1, 0, 1, .ro, 0x0⟩
def SITE_STATUS_DONE : Fld := ⟨.tileSite, 0x18, 0x8, 1, 1, 1, .w1c, 0x0⟩
def SITE_STATUS_RESULT : Fld := ⟨.tileSite, 0x18, 0x8, 1, 2, 3, .ro, 0x0⟩
def MCHK_CTL_AUTO_RESTART : Fld := ⟨.matrixChk, 0x0, 0x8, 1, 0, 1, .rw, 0x1⟩
def MCHK_CTL_RESIDUE_EN : Fld := ⟨.matrixChk, 0x0, 0x8, 1, 1, 1, .rwl, 0x1⟩
def MCHK_COUNT_RESIDUE_ERR : Fld := ⟨.matrixChk, 0x8, 0x8, 1, 0, 16, .ro, 0x0⟩
def MCHK_COUNT_PARITY_ERR : Fld := ⟨.matrixChk, 0x8, 0x8, 1, 16, 16, .ro, 0x0⟩
def MCHK_COUNT_TWIN_MISM : Fld := ⟨.matrixChk, 0x8, 0x8, 1, 32, 16, .ro, 0x0⟩
def MCHK_COUNT_RESTARTS : Fld := ⟨.matrixChk, 0x8, 0x8, 1, 48, 16, .ro, 0x0⟩
def MCHK_LAST_CMD_TAG : Fld := ⟨.matrixChk, 0x10, 0x8, 1, 0, 32, .ro, 0x0⟩
def MCHK_LAST_COLUMN : Fld := ⟨.matrixChk, 0x10, 0x8, 1, 32, 7, .ro, 0x0⟩
def MCHK_LAST_ROW : Fld := ⟨.matrixChk, 0x10, 0x8, 1, 39, 8, .ro, 0x0⟩
def MCHK_LAST_SOURCE : Fld := ⟨.matrixChk, 0x10, 0x8, 1, 47, 3, .ro, 0x0⟩
def MCHK_LAST_ESCALATED : Fld := ⟨.matrixChk, 0x10, 0x8, 1, 50, 1, .ro, 0x0⟩
def MPROG_FOLD_INDEX : Fld := ⟨.matrixChk, 0x18, 0x8, 1, 0, 32, .ro, 0x0⟩
def MPROG_ACTIVE : Fld := ⟨.matrixChk, 0x18, 0x8, 1, 32, 1, .ro, 0x0⟩
def MPROG_HELD : Fld := ⟨.matrixChk, 0x18, 0x8, 1, 33, 1, .ro, 0x0⟩
def MPROG_SPILLING : Fld := ⟨.matrixChk, 0x18, 0x8, 1, 34, 1, .ro, 0x0⟩
def CQ_STATUS_DEPTH : Fld := ⟨.cmdQueue, 0x0, 0x8, 1, 0, 6, .ro, 0x0⟩
def CQ_STATUS_HEAD : Fld := ⟨.cmdQueue, 0x0, 0x8, 1, 6, 3, .ro, 0x0⟩
def CQ_STATUS_FROZEN : Fld := ⟨.cmdQueue, 0x0, 0x8, 1, 9, 1, .ro, 0x0⟩
def CQ_STATUS_TWIN_CLAIMED : Fld := ⟨.cmdQueue, 0x0, 0x8, 1, 10, 1, .ro, 0x0⟩
def CQ_LAST_TAG : Fld := ⟨.cmdQueue, 0x8, 0x8, 1, 0, 32, .ro, 0x0⟩
def CQ_LAST_ARITH_STATUS : Fld := ⟨.cmdQueue, 0x8, 0x8, 1, 32, 8, .ro, 0x0⟩
def CQ_LAST_CAUSE : Fld := ⟨.cmdQueue, 0x8, 0x8, 1, 40, 8, .ro, 0x0⟩
def CQ_CTL_OP : Fld := ⟨.cmdQueue, 0x10, 0x8, 1, 0, 2, .wo, 0x0⟩
def CQ_STICKY_ARITH_OR : Fld := ⟨.cmdQueue, 0x18, 0x8, 1, 0, 8, .w1c, 0x0⟩
def CQ_STICKY_IDX_OOB : Fld := ⟨.cmdQueue, 0x18, 0x8, 1, 8, 1, .w1c, 0x0⟩
def CQ_STATS_COMPLETED : Fld := ⟨.cmdQueue, 0x20, 0x8, 1, 0, 32, .ro, 0x0⟩
def CQ_STATS_FULL_STALLS : Fld := ⟨.cmdQueue, 0x20, 0x8, 1, 32, 16, .ro, 0x0⟩
def CQ_STATS_FAILURES : Fld := ⟨.cmdQueue, 0x20, 0x8, 1, 48, 16, .ro, 0x0⟩
def CTR_VALUE : Fld := ⟨.cmdCounter, 0x0, 0x8, 16, 0, 32, .rw, 0x0⟩
def PAIL_W0_VALID : Fld := ⟨.scratch, 0x0, 0x10, 64, 0, 1, .ro, 0x0⟩
def PAIL_W0_SVC_ONLY : Fld := ⟨.scratch, 0x0, 0x10, 64, 1, 1, .ro, 0x0⟩
def PAIL_W0_READ_ONLY : Fld := ⟨.scratch, 0x0, 0x10, 64, 2, 1, .ro, 0x0⟩
def PAIL_W0_VIEW : Fld := ⟨.scratch, 0x0, 0x10, 64, 3, 2, .ro, 0x0⟩
def PAIL_W0_FMT : Fld := ⟨.scratch, 0x0, 0x10, 64, 5, 5, .ro, 0x0⟩
def PAIL_W0_BASE_4K : Fld := ⟨.scratch, 0x0, 0x10, 64, 10, 12, .ro, 0x0⟩
def PAIL_W0_SIZE_M1 : Fld := ⟨.scratch, 0x0, 0x10, 64, 22, 12, .ro, 0x0⟩
def PAIL_W1_GEOM : Fld := ⟨.scratch, 0x8, 0x10, 64, 0, 64, .ro, 0x0⟩
def SCR_ECC_CORRECTED : Fld := ⟨.scratch, 0x400, 0x8, 1, 0, 16, .ro, 0x0⟩
def SCR_ECC_UNCORRECTED : Fld := ⟨.scratch, 0x400, 0x8, 1, 16, 16, .ro, 0x0⟩
def SCR_ECC_LAST_UE : Fld := ⟨.scratch, 0x400, 0x8, 1, 32, 21, .ro, 0x0⟩
def SCR_ECC_LAST_SRC : Fld := ⟨.scratch, 0x400, 0x8, 1, 53, 3, .ro, 0x0⟩
def SCR_ECC_UE_NEW : Fld := ⟨.scratch, 0x400, 0x8, 1, 56, 1, .w1c, 0x0⟩
def SCR_CTL_SCRUB_EN : Fld := ⟨.scratch, 0x408, 0x8, 1, 0, 1, .rwl, 0x1⟩
def SCR_CTL_INJECT : Fld := ⟨.scratch, 0x408, 0x8, 1, 1, 2, .rwl, 0x0⟩
def MSE_STATUS_OCCUPANCY : Fld := ⟨.scratch, 0x410, 0x8, 1, 0, 2, .ro, 0x0⟩
def MSE_STATUS_STOPPED_ECC : Fld := ⟨.scratch, 0x410, 0x8, 1, 2, 1, .ro, 0x0⟩
def MSE_STATUS_REMAINING : Fld := ⟨.scratch, 0x410, 0x8, 1, 3, 25, .ro, 0x0⟩
def SCR_STATS_PROMOTIONS : Fld := ⟨.scratch, 0x418, 0x8, 1, 0, 32, .ro, 0x0⟩
def SCR_STATS_SCRUB_PASSES : Fld := ⟨.scratch, 0x418, 0x8, 1, 32, 16, .ro, 0x0⟩
def SCR_STATS_BND_NACKS : Fld := ⟨.scratch, 0x418, 0x8, 1, 48, 16, .ro, 0x0⟩
def MV_BIND_ENABLE : Fld := ⟨.tierMover, 0x0, 0x8, 4, 0, 1, .rw, 0x0⟩
def MV_BIND_SVC : Fld := ⟨.tierMover, 0x0, 0x8, 4, 1, 1, .rw, 0x0⟩
def MV_BIND_SIZE_LOG2 : Fld := ⟨.tierMover, 0x0, 0x8, 4, 2, 3, .rw, 0x0⟩
def MV_BIND_LSITE : Fld := ⟨.tierMover, 0x0, 0x8, 4, 5, 3, .rw, 0x0⟩
def MV_BIND_CLUSTER : Fld := ⟨.tierMover, 0x0, 0x8, 4, 8, 2, .rw, 0x0⟩
def MV_BIND_RING_PAIL : Fld := ⟨.tierMover, 0x0, 0x8, 4, 10, 6, .rw, 0x0⟩
def MV_BIND_DB_CTR : Fld := ⟨.tierMover, 0x0, 0x8, 4, 16, 4, .rw, 0x0⟩
def MV_BIND_VAT : Fld := ⟨.tierMover, 0x0, 0x8, 4, 20, 8, .rw, 0x0⟩
def MV_CONSUMED_CONSUMED : Fld := ⟨.tierMover, 0x20, 0x8, 4, 0, 32, .ro, 0x0⟩
def MV_STATUS_RING : Fld := ⟨.tierMover, 0x40, 0x8, 1, 0, 2, .ro, 0x0⟩
def MV_STATUS_BUSY : Fld := ⟨.tierMover, 0x40, 0x8, 1, 2, 1, .ro, 0x0⟩
def MV_STATUS_REMAINING : Fld := ⟨.tierMover, 0x40, 0x8, 1, 3, 30, .ro, 0x0⟩
def MV_STATS_PAGES : Fld := ⟨.tierMover, 0x48, 0x8, 1, 0, 48, .ro, 0x0⟩
def MV_STATS_FAILURES : Fld := ⟨.tierMover, 0x48, 0x8, 1, 48, 16, .ro, 0x0⟩
def MV_DROPS_UNBOUND : Fld := ⟨.tierMover, 0x50, 0x8, 1, 0, 16, .ro, 0x0⟩
def MV_DROPS_OVERRUN : Fld := ⟨.tierMover, 0x50, 0x8, 1, 16, 16, .ro, 0x0⟩
def MV_DROPS_ABANDONED : Fld := ⟨.tierMover, 0x50, 0x8, 1, 32, 16, .ro, 0x0⟩
def TM_ERR_CORRECTED : Fld := ⟨.t1Stack, 0x0, 0x8, 1, 0, 16, .ro, 0x0⟩
def TM_ERR_RETRY_OK : Fld := ⟨.t1Stack, 0x0, 0x8, 1, 16, 16, .ro, 0x0⟩
def TM_ERR_POISONED : Fld := ⟨.t1Stack, 0x0, 0x8, 1, 32, 16, .ro, 0x0⟩
def TM_ERR_LOST_WR : Fld := ⟨.t1Stack, 0x0, 0x8, 1, 48, 16, .ro, 0x0⟩
def TM_LAST_LINE : Fld := ⟨.t1Stack, 0x8, 0x8, 1, 0, 30, .ro, 0x0⟩
def TM_LAST_NEW : Fld := ⟨.t1Stack, 0x8, 0x8, 1, 30, 1, .w1c, 0x0⟩
def TM_STATE_TRAINED : Fld := ⟨.t1Stack, 0x10, 0x8, 1, 0, 1, .ro, 0x0⟩
def TM_STATE_LOST : Fld := ⟨.t1Stack, 0x10, 0x8, 1, 1, 1, .ro, 0x0⟩
def T3_CTL_MODE : Fld := ⟨.t3Port, 0x0, 0x8, 1, 0, 2, .rw, 0x0⟩
def T3_CTL_MAP_SIZE : Fld := ⟨.t3Port, 0x0, 0x8, 1, 32, 16, .rw, 0x0⟩
def T3_STATUS_LINK_UP : Fld := ⟨.t3Port, 0x8, 0x8, 1, 0, 1, .ro, 0x0⟩
def T3_STATUS_SPEED : Fld := ⟨.t3Port, 0x8, 0x8, 1, 1, 3, .ro, 0x0⟩
def T3_STATUS_WIDTH : Fld := ⟨.t3Port, 0x8, 0x8, 1, 4, 5, .ro, 0x0⟩
def T3_STATUS_REFUSED : Fld := ⟨.t3Port, 0x8, 0x8, 1, 9, 1, .ro, 0x0⟩
def T3_STATUS_POISON_RX : Fld := ⟨.t3Port, 0x8, 0x8, 1, 32, 16, .ro, 0x0⟩
def T3_STATUS_LOST_WR : Fld := ⟨.t3Port, 0x8, 0x8, 1, 48, 16, .ro, 0x0⟩
def T3_IN_BASE_IN_BASE : Fld := ⟨.t3Port, 0x10, 0x8, 1, 0, 64, .rw, 0x0⟩
def T3_IN_LIMIT_IN_LIMIT : Fld := ⟨.t3Port, 0x18, 0x8, 1, 0, 64, .rw, 0x0⟩
def T3_IN_TARGET_IN_TARGET : Fld := ⟨.t3Port, 0x20, 0x8, 1, 0, 56, .rw, 0x0⟩
def GRANT_VALID : Fld := ⟨.tierGrant, 0x0, 0x8, 4096, 0, 1, .rw, 0x0⟩
def GRANT_WRITE : Fld := ⟨.tierGrant, 0x0, 0x8, 4096, 1, 1, .rw, 0x0⟩
def GRANT_TIER : Fld := ⟨.tierGrant, 0x0, 0x8, 4096, 2, 2, .rw, 0x0⟩
def GRANT_BASE_2M : Fld := ⟨.tierGrant, 0x0, 0x8, 4096, 4, 31, .rw, 0x0⟩
def GRANT_PAGES_M1 : Fld := ⟨.tierGrant, 0x0, 0x8, 4096, 35, 22, .rw, 0x0⟩
def SCH_STATUS_SLOT : Fld := ⟨.sched, 0x0, 0x8, 1, 0, 8, .ro, 0x0⟩
def SCH_STATUS_FRAME : Fld := ⟨.sched, 0x0, 0x8, 1, 8, 48, .ro, 0x0⟩
def SCH_STATUS_HOLD_PEND : Fld := ⟨.sched, 0x0, 0x8, 1, 56, 1, .ro, 0x0⟩
def SCH_STRETCH_S_SLOT : Fld := ⟨.sched, 0x8, 0x8, 1, 0, 4, .ro, 0x0⟩
def SCH_STRETCH_DEFICIT : Fld := ⟨.sched, 0x8, 0x8, 1, 4, 6, .ro, 0x0⟩
def SCH_STRETCH_HOLD_TARGET : Fld := ⟨.sched, 0x8, 0x8, 1, 10, 16, .ro, 0x0⟩
def SCH_STRETCH_MAX_DEFICIT : Fld := ⟨.sched, 0x8, 0x8, 1, 26, 6, .ro, 0x0⟩
def SCH_HOLDS_ASSERTED : Fld := ⟨.sched, 0x10, 0x8, 1, 0, 32, .ro, 0x0⟩
def SCH_HOLDS_TAKEN : Fld := ⟨.sched, 0x10, 0x8, 1, 32, 32, .ro, 0x0⟩
def SCH_DROP_FENCED : Fld := ⟨.sched, 0x18, 0x8, 1, 0, 16, .ro, 0x0⟩
def SCH_DROP_KILLED : Fld := ⟨.sched, 0x18, 0x8, 1, 16, 16, .ro, 0x0⟩
def SCH_DROP_UNMAPPED : Fld := ⟨.sched, 0x18, 0x8, 1, 32, 16, .ro, 0x0⟩
def SCH_DROP_BOUNDS : Fld := ⟨.sched, 0x18, 0x8, 1, 48, 16, .ro, 0x0⟩
def SCH_REPAIR_REPAIRED : Fld := ⟨.sched, 0x20, 0x8, 1, 0, 32, .ro, 0x0⟩
def SCH_REPAIR_LOST : Fld := ⟨.sched, 0x20, 0x8, 1, 32, 16, .ro, 0x0⟩
def SCH_REPAIR_REPAIR_LATE : Fld := ⟨.sched, 0x20, 0x8, 1, 48, 16, .ro, 0x0⟩
def SCH_LINK_LG_MAP : Fld := ⟨.sched, 0x40, 0x8, 16, 0, 18, .ro, 0x2c688⟩
def SCH_LINK_RETIRED : Fld := ⟨.sched, 0x40, 0x8, 16, 18, 8, .ro, 0x0⟩
def SCH_LINK_INVALID : Fld := ⟨.sched, 0x40, 0x8, 16, 26, 1, .ro, 0x0⟩
def SCH_LINK_DYN_GROUPS : Fld := ⟨.sched, 0x40, 0x8, 16, 27, 2, .ro, 0x2⟩
def VAT_BANK_BANK : Fld := ⟨.sched, 0x100, 0x8, 4, 0, 64, .ro, 0x0⟩
def SCH_ENTRY_ENTRY : Fld := ⟨.sched, 0x80000, 0x8, 65536, 0, 64, .ro, 0x0⟩
def INJ_STATUS_COUNT : Fld := ⟨.schedInj, 0x0, 0x8, 1, 0, 9, .ro, 0x0⟩
def INJ_STATUS_ACTIVE : Fld := ⟨.schedInj, 0x0, 0x8, 1, 9, 1, .ro, 0x0⟩
def INJ_STATUS_STOPPED : Fld := ⟨.schedInj, 0x0, 0x8, 1, 10, 1, .ro, 0x0⟩
def INJ_STATUS_INJ_SKIP : Fld := ⟨.schedInj, 0x0, 0x8, 1, 11, 16, .ro, 0x0⟩
def INJ_ENTRY_WORD : Fld := ⟨.schedInj, 0x1000, 0x8, 1024, 0, 64, .ro, 0x0⟩
def DYN_BUF_BUF_REQ : Fld := ⟨.dyn, 0x0, 0x8, 1, 0, 7, .rw, 0x10⟩
def DYN_BUF_BUF_RSP : Fld := ⟨.dyn, 0x0, 0x8, 1, 8, 7, .rw, 0x10⟩
def DYN_BUF_BUF_CHN : Fld := ⟨.dyn, 0x0, 0x8, 1, 16, 7, .rw, 0x10⟩
def DYN_BUF_BUF_SVC : Fld := ⟨.dyn, 0x0, 0x8, 1, 24, 7, .rw, 0x10⟩
def DYN_BUF_CFG_CLAMP : Fld := ⟨.dyn, 0x0, 0x8, 1, 32, 1, .w1c, 0x0⟩
def DYN_CTL_INJ_PAUSE : Fld := ⟨.dyn, 0x8, 0x8, 1, 0, 4, .ro, 0x0⟩
def DYN_CTL_DRAINED : Fld := ⟨.dyn, 0x8, 0x8, 1, 4, 4, .ro, 0x0⟩
def DYN_CTL_EPOCH : Fld := ⟨.dyn, 0x8, 0x8, 1, 8, 2, .ro, 0x0⟩
def DYN_CTL_COMMIT_BUSY : Fld := ⟨.dyn, 0x8, 0x8, 1, 10, 1, .ro, 0x0⟩
def DYN_TMO_OP_TIMEOUT : Fld := ⟨.dyn, 0x10, 0x8, 1, 0, 17, .rw, 0x3e8⟩
def DYN_DROP0_HDR_DROP : Fld := ⟨.dyn, 0x18, 0x8, 1, 0, 16, .ro, 0x0⟩
def DYN_DROP0_EPOCH_NACK : Fld := ⟨.dyn, 0x18, 0x8, 1, 16, 16, .ro, 0x0⟩
def DYN_DROP0_PATH_NACK : Fld := ⟨.dyn, 0x18, 0x8, 1, 32, 16, .ro, 0x0⟩
def DYN_DROP0_DRAIN_DROP : Fld := ⟨.dyn, 0x18, 0x8, 1, 48, 16, .ro, 0x0⟩
def DYN_DROP1_FENCED_NACK : Fld := ⟨.dyn, 0x20, 0x8, 1, 0, 16, .ro, 0x0⟩
def DYN_DROP1_BOUNDS_NACK : Fld := ⟨.dyn, 0x20, 0x8, 1, 16, 16, .ro, 0x0⟩
def DYN_DROP1_KILLED : Fld := ⟨.dyn, 0x20, 0x8, 1, 32, 16, .ro, 0x0⟩
def DYN_DROP1_RESEND : Fld := ⟨.dyn, 0x20, 0x8, 1, 48, 16, .ro, 0x0⟩
def DYN_DROP2_RETRY : Fld := ⟨.dyn, 0x28, 0x8, 1, 0, 16, .ro, 0x0⟩
def DYN_DROP2_TRUNC : Fld := ⟨.dyn, 0x28, 0x8, 1, 16, 16, .ro, 0x0⟩
def DYN_DROP2_LOST_REPLY : Fld := ⟨.dyn, 0x28, 0x8, 1, 32, 16, .ro, 0x0⟩
def DI_STATUS_OUTSTANDING : Fld := ⟨.dynInj, 0x0, 0x8, 1, 0, 16, .ro, 0x0⟩
def DI_STATUS_STOPPED : Fld := ⟨.dynInj, 0x0, 0x8, 1, 16, 1, .ro, 0x0⟩
def DI_STATUS_STREAMS : Fld := ⟨.dynInj, 0x0, 0x8, 1, 17, 4, .ro, 0x0⟩
def DI_STATS_PACKETS : Fld := ⟨.dynInj, 0x8, 0x8, 1, 0, 32, .ro, 0x0⟩
def DI_STATS_NACKS : Fld := ⟨.dynInj, 0x8, 0x8, 1, 32, 16, .ro, 0x0⟩
def DI_STATS_TIMEOUTS : Fld := ⟨.dynInj, 0x8, 0x8, 1, 48, 16, .ro, 0x0⟩
def DI_LAST_OPID : Fld := ⟨.dynInj, 0x10, 0x8, 1, 0, 4, .ro, 0x0⟩
def DI_LAST_CAUSE : Fld := ⟨.dynInj, 0x10, 0x8, 1, 4, 8, .ro, 0x0⟩
def DI_LAST_SEQ : Fld := ⟨.dynInj, 0x10, 0x8, 1, 12, 16, .ro, 0x0⟩
def TILE_STG_MASK : Fld := ⟨.dirtab, 0x0, 0x8, 36, 0, 6, .rw, 0x0⟩
def MOD_STG_DIR : Fld := ⟨.dirtab, 0x200, 0x8, 64, 0, 3, .rw, 0x7⟩
def MOD_STG_EXIT_TILE : Fld := ⟨.dirtab, 0x200, 0x8, 64, 3, 6, .rw, 0x0⟩
def TILE_ACT_ENTRY : Fld := ⟨.dirtab, 0x400, 0x8, 36, 0, 64, .ro, 0x0⟩
def MOD_ACT_ENTRY : Fld := ⟨.dirtab, 0x600, 0x8, 64, 0, 64, .ro, 0x7⟩
def CH_VAT_MODE : Fld := ⟨.churn, 0x0, 0x8, 256, 0, 2, .rw, 0x0⟩
def CH_VAT_SKIM : Fld := ⟨.churn, 0x0, 0x8, 256, 2, 14, .rw, 0xc8⟩
def CH_STAGE_USED : Fld := ⟨.churn, 0x800, 0x8, 1, 0, 15, .ro, 0x0⟩
def CH_STAGE_PEAK : Fld := ⟨.churn, 0x800, 0x8, 1, 15, 15, .ro, 0x0⟩
def CH_STAGE_CFG_CLAMP : Fld := ⟨.churn, 0x800, 0x8, 1, 30, 1, .w1c, 0x0⟩
def CH_CNT0_COMBINED : Fld := ⟨.churn, 0x808, 0x8, 1, 0, 32, .ro, 0x0⟩
def CH_CNT0_UNCOMB : Fld := ⟨.churn, 0x808, 0x8, 1, 32, 16, .ro, 0x0⟩
def CH_CNT0_MISMATCH : Fld := ⟨.churn, 0x808, 0x8, 1, 48, 16, .ro, 0x0⟩
def CH_CNT1_LATE : Fld := ⟨.churn, 0x810, 0x8, 1, 0, 16, .ro, 0x0⟩
def CH_CNT1_STALE : Fld := ⟨.churn, 0x810, 0x8, 1, 16, 16, .ro, 0x0⟩
def CH_CNT1_SPLIT : Fld := ⟨.churn, 0x810, 0x8, 1, 32, 16, .ro, 0x0⟩
def CH_CNT1_SINK_NACK : Fld := ⟨.churn, 0x810, 0x8, 1, 48, 16, .ro, 0x0⟩
def CH_CNT2_KILLED : Fld := ⟨.churn, 0x818, 0x8, 1, 0, 16, .ro, 0x0⟩
def CH_CNT2_SINK_LOST : Fld := ⟨.churn, 0x818, 0x8, 1, 16, 16, .ro, 0x0⟩
def CH_CNT2_SUPERSEDED : Fld := ⟨.churn, 0x818, 0x8, 1, 32, 16, .ro, 0x0⟩
def CH_NODE_VALID : Fld := ⟨.churn, 0x1000, 0x8, 64, 0, 1, .rw, 0x0⟩
def CH_NODE_VAT : Fld := ⟨.churn, 0x1000, 0x8, 64, 1, 8, .rw, 0x0⟩
def CH_NODE_TREE : Fld := ⟨.churn, 0x1000, 0x8, 64, 9, 8, .rw, 0x0⟩
def CH_NODE_EXPECT : Fld := ⟨.churn, 0x1000, 0x8, 64, 17, 4, .rw, 0x0⟩
def CH_NODE_SKIM_NODE : Fld := ⟨.churn, 0x1000, 0x8, 64, 21, 1, .rw, 0x0⟩
def CH_NODE_HOLD : Fld := ⟨.churn, 0x1000, 0x8, 64, 22, 14, .rw, 0x0⟩
def CH_SINK_VALID : Fld := ⟨.churn, 0x2000, 0x40, 16, 0, 1, .rw, 0x0⟩
def CH_SINK_VAT : Fld := ⟨.churn, 0x2000, 0x40, 16, 1, 8, .rw, 0x0⟩
def CH_SINK_TREE : Fld := ⟨.churn, 0x2000, 0x40, 16, 9, 8, .rw, 0x0⟩
def CH_SINK_DST_CORE : Fld := ⟨.churn, 0x2000, 0x40, 16, 17, 14, .rw, 0x0⟩
def CH_SINK_SIG_EN : Fld := ⟨.churn, 0x2000, 0x40, 16, 31, 1, .rw, 0x0⟩
def CH_SINK_SIG_CTR : Fld := ⟨.churn, 0x2000, 0x40, 16, 32, 4, .rw, 0x0⟩
def CH_SINK_DST_PAIL : Fld := ⟨.churn, 0x2000, 0x40, 16, 36, 6, .rw, 0x0⟩
def CH_SINK_SKIM_EN : Fld := ⟨.churn, 0x2000, 0x40, 16, 42, 1, .rw, 0x0⟩
def CH_SINK_DST_OFF : Fld := ⟨.churn, 0x2008, 0x40, 16, 0, 24, .rw, 0x0⟩
def CH_SINK_SHARD_BYTES_M1 : Fld := ⟨.churn, 0x2008, 0x40, 16, 24, 24, .rw, 0x0⟩
def CH_SINK_LOG_PAIL : Fld := ⟨.churn, 0x2008, 0x40, 16, 48, 6, .rw, 0x0⟩
def CH_SINK_REC_PAIL : Fld := ⟨.churn, 0x2008, 0x40, 16, 54, 6, .rw, 0x0⟩
def CH_SINK_LOG_OFF : Fld := ⟨.churn, 0x2010, 0x40, 16, 0, 24, .rw, 0x0⟩
def CH_SINK_REC_OFF : Fld := ⟨.churn, 0x2010, 0x40, 16, 24, 24, .rw, 0x0⟩
def CH_SINK_EXPECT_MASK : Fld := ⟨.churn, 0x2018, 0x40, 16, 0, 64, .rw, 0x0⟩
def CH_SINK_TOTAL : Fld := ⟨.churn, 0x2020, 0x40, 16, 0, 24, .rw, 0x0⟩
def CH_SINK_QUORUM : Fld := ⟨.churn, 0x2020, 0x40, 16, 24, 24, .rw, 0x0⟩
def RN_SEL_VAT : Fld := ⟨.rennet, 0x0, 0x8, 1, 0, 8, .rw, 0x0⟩
def RN_OR_OR : Fld := ⟨.rennet, 0x8, 0x8, 1, 0, 64, .ro, 0x0⟩
def RN_AND_AND : Fld := ⟨.rennet, 0x10, 0x8, 1, 0, 64, .ro, 0x0⟩
def RN_BAR_BARRIERS : Fld := ⟨.rennet, 0x18, 0x8, 1, 0, 32, .ro, 0x0⟩
def EXP_BIND_VAT : Fld := ⟨.rennet, 0x100, 0x8, 64, 0, 8, .rw, 0x0⟩
def EXP_BIND_VALID : Fld := ⟨.rennet, 0x100, 0x8, 64, 8, 1, .rw, 0x0⟩
def EXP_LOCAL_EXP : Fld := ⟨.rennet, 0x400, 0x8, 64, 0, 16, .rw, 0x8000⟩
def EXP_LOCAL_TAG : Fld := ⟨.rennet, 0x400, 0x8, 64, 16, 16, .rw, 0x0⟩
def EXP_LOCAL_SEAL : Fld := ⟨.rennet, 0x400, 0x8, 64, 32, 1, .w1s, 0x0⟩
def EXP_GLOBAL_EXP : Fld := ⟨.rennet, 0x600, 0x8, 64, 0, 16, .ro, 0x8000⟩
def EXP_GLOBAL_TAG : Fld := ⟨.rennet, 0x600, 0x8, 64, 16, 16, .ro, 0x0⟩
def EXP_GLOBAL_COMPLETE : Fld := ⟨.rennet, 0x600, 0x8, 64, 32, 1, .ro, 0x0⟩
def EXP_GLOBAL_MODULES : Fld := ⟨.rennet, 0x600, 0x8, 64, 33, 7, .ro, 0x0⟩
def EXP_GLOBAL_SEALED : Fld := ⟨.rennet, 0x600, 0x8, 64, 40, 1, .ro, 0x0⟩
def EXP_GLOBAL_INCLUDED : Fld := ⟨.rennet, 0x600, 0x8, 64, 41, 1, .ro, 0x0⟩
def LK_STATUS_STATE : Fld := ⟨.link, 0x0, 0x8, 1, 0, 3, .ro, 0x0⟩
def LK_STATUS_WIDTH_TX : Fld := ⟨.link, 0x0, 0x8, 1, 3, 4, .ro, 0x0⟩
def LK_STATUS_WIDTH_RX : Fld := ⟨.link, 0x0, 0x8, 1, 7, 4, .ro, 0x0⟩
def LK_STATUS_GRP_RETIRED_TX : Fld := ⟨.link, 0x0, 0x8, 1, 11, 8, .ro, 0x0⟩
def LK_STATUS_GRP_RETIRED_RX : Fld := ⟨.link, 0x0, 0x8, 1, 19, 8, .ro, 0x0⟩
def LK_STATUS_ATTEMPT : Fld := ⟨.link, 0x0, 0x8, 1, 27, 2, .ro, 0x0⟩
def LK_STATUS_DISAGREED : Fld := ⟨.link, 0x0, 0x8, 1, 29, 1, .ro, 0x0⟩
def LK_STATUS_CTL_DEGRADED : Fld := ⟨.link, 0x0, 0x8, 1, 30, 1, .ro, 0x0⟩
def LK_STATUS_TRAINS : Fld := ⟨.link, 0x0, 0x8, 1, 32, 16, .ro, 0x0⟩
def LK_ERR_REPLAYS : Fld := ⟨.link, 0x8, 0x8, 1, 0, 32, .ro, 0x0⟩
def LK_ERR_REPLAY_FULL : Fld := ⟨.link, 0x8, 0x8, 1, 32, 16, .ro, 0x0⟩
def LK_ERR_GROUP_STORM : Fld := ⟨.link, 0x8, 0x8, 1, 48, 16, .ro, 0x0⟩
def LK_CFG_LANE_THRESH : Fld := ⟨.link, 0x10, 0x8, 1, 0, 5, .rw, 0x8⟩
def LK_CFG_WINDOW_LOG2 : Fld := ⟨.link, 0x10, 0x8, 1, 5, 4, .rw, 0xa⟩
def LK_CFG_GROUP_THRESH : Fld := ⟨.link, 0x10, 0x8, 1, 9, 16, .rw, 0x400⟩
def LK_GROUP_SPARES_USED : Fld := ⟨.link, 0x40, 0x8, 8, 0, 6, .ro, 0x0⟩
def LK_GROUP_RETIRED : Fld := ⟨.link, 0x40, 0x8, 8, 6, 1, .ro, 0x0⟩
def LK_GROUP_LAST_LANE : Fld := ⟨.link, 0x40, 0x8, 8, 7, 11, .ro, 0x0⟩
def LK_GROUP_CRC_ERR : Fld := ⟨.link, 0x40, 0x8, 8, 18, 16, .ro, 0x0⟩
def LK_GROUP_LANE_FAILS : Fld := ⟨.link, 0x40, 0x8, 8, 34, 16, .ro, 0x0⟩
def XP_STATUS_STATE : Fld := ⟨.express, 0x0, 0x8, 1, 0, 3, .ro, 0x0⟩
def XP_STATUS_RX_POWER : Fld := ⟨.express, 0x0, 0x8, 1, 3, 8, .ro, 0x0⟩
def XP_CHAN_LIVE : Fld := ⟨.express, 0x8, 0x8, 1, 0, 32, .ro, 0x0⟩
def XP_ERR_REPLAYS : Fld := ⟨.express, 0x10, 0x8, 1, 0, 32, .ro, 0x0⟩
def XP_ERR_CRC_ERR : Fld := ⟨.express, 0x10, 0x8, 1, 32, 16, .ro, 0x0⟩
def XP_ERR_CHAN_RETIRED : Fld := ⟨.express, 0x10, 0x8, 1, 48, 16, .ro, 0x0⟩
def RP_CTL_ENABLE : Fld := ⟨.reach, 0x0, 0x8, 1, 0, 1, .rw, 0x1⟩
def RP_STATUS_STATE : Fld := ⟨.reach, 0x8, 0x8, 1, 0, 3, .ro, 0x0⟩
def RP_STATUS_PEER_MODULE : Fld := ⟨.reach, 0x8, 0x8, 1, 3, 6, .ro, 0x0⟩
def RP_STATUS_PEER_PORT : Fld := ⟨.reach, 0x8, 0x8, 1, 9, 5, .ro, 0x0⟩
def RP_STATUS_ATTEMPT : Fld := ⟨.reach, 0x8, 0x8, 1, 14, 2, .ro, 0x0⟩
def RP_STATUS_TRAINS : Fld := ⟨.reach, 0x8, 0x8, 1, 32, 16, .ro, 0x0⟩
def RP_FEC_CORRECTED : Fld := ⟨.reach, 0x10, 0x8, 1, 0, 48, .ro, 0x0⟩
def RP_FEC_UNCORR : Fld := ⟨.reach, 0x10, 0x8, 1, 48, 16, .ro, 0x0⟩
def RP_ERR_REPLAYS : Fld := ⟨.reach, 0x18, 0x8, 1, 0, 32, .ro, 0x0⟩
def RP_ERR_CRC_ERR : Fld := ⟨.reach, 0x18, 0x8, 1, 32, 16, .ro, 0x0⟩
def RP_ERR_DOWN_EVENTS : Fld := ⟨.reach, 0x18, 0x8, 1, 48, 16, .ro, 0x0⟩
def LS_CART_STATE : Fld := ⟨.laser, 0x0, 0x10, 4, 0, 3, .ro, 0x0⟩
def LS_CART_OUTPUT : Fld := ⟨.laser, 0x0, 0x10, 4, 3, 7, .ro, 0x0⟩
def LS_CART_INTERLOCK : Fld := ⟨.laser, 0x0, 0x10, 4, 10, 1, .ro, 0x0⟩
def LS_CART_LOCKED : Fld := ⟨.laser, 0x0, 0x10, 4, 11, 1, .ro, 0x0⟩
def LS_CART_TAKEOVERS : Fld := ⟨.laser, 0x0, 0x10, 4, 32, 16, .ro, 0x0⟩
def LS_CART_HOURS : Fld := ⟨.laser, 0x8, 0x10, 4, 0, 32, .ro, 0x0⟩
def LS_CART_SERIAL : Fld := ⟨.laser, 0x8, 0x10, 4, 32, 32, .ro, 0x0⟩
def LS_CTL_RELEASE : Fld := ⟨.laser, 0x40, 0x8, 1, 0, 4, .w1s, 0x0⟩
def LINJ_CTL_KIND : Fld := ⟨.linkInj, 0x0, 0x8, 1, 0, 4, .rwl, 0x0⟩
def LINJ_CTL_TARGET : Fld := ⟨.linkInj, 0x0, 0x8, 1, 4, 4, .rwl, 0x0⟩
def LINJ_CTL_PORT : Fld := ⟨.linkInj, 0x0, 0x8, 1, 8, 5, .rwl, 0x0⟩
def LINJ_CTL_GROUP : Fld := ⟨.linkInj, 0x0, 0x8, 1, 13, 3, .rwl, 0x0⟩
def LINJ_CTL_LANE : Fld := ⟨.linkInj, 0x0, 0x8, 1, 16, 11, .rwl, 0x0⟩
def LINJ_CTL_COUNT : Fld := ⟨.linkInj, 0x0, 0x8, 1, 27, 16, .rwl, 0x0⟩
def LINJ_CTL_PERIOD : Fld := ⟨.linkInj, 0x0, 0x8, 1, 43, 16, .rwl, 0x1⟩
def LINJ_CTL_ARM : Fld := ⟨.linkInj, 0x0, 0x8, 1, 59, 1, .w1s, 0x0⟩
def LINJ_STATUS_INJECTED : Fld := ⟨.linkInj, 0x8, 0x8, 1, 0, 32, .ro, 0x0⟩
def LINJ_STATUS_ACTIVE : Fld := ⟨.linkInj, 0x8, 0x8, 1, 32, 1, .ro, 0x0⟩
def LINJ_STATUS_REFUSED : Fld := ⟨.linkInj, 0x8, 0x8, 1, 33, 1, .w1c, 0x0⟩
def IN_STATUS_VIN : Fld := ⟨.moduleInput, 0x0, 0x8, 1, 0, 16, .ro, 0x0⟩
def IN_STATUS_IIN : Fld := ⟨.moduleInput, 0x0, 0x8, 1, 16, 12, .ro, 0x0⟩
def IN_STATUS_VBULK : Fld := ⟨.moduleInput, 0x0, 0x8, 1, 28, 16, .ro, 0x0⟩
def IN_STATUS_EFUSE : Fld := ⟨.moduleInput, 0x0, 0x8, 1, 44, 2, .ro, 0x0⟩
def IN_STATUS_LAST_TRIP : Fld := ⟨.moduleInput, 0x0, 0x8, 1, 46, 3, .ro, 0x0⟩
def IN_STATUS_COOLANT_WAIT : Fld := ⟨.moduleInput, 0x0, 0x8, 1, 49, 1, .ro, 0x0⟩
def IN_EVENTS_LOSSES : Fld := ⟨.moduleInput, 0x8, 0x8, 1, 0, 16, .ro, 0x0⟩
def IN_EVENTS_DIPS : Fld := ⟨.moduleInput, 0x8, 0x8, 1, 16, 16, .ro, 0x0⟩
def IN_EVENTS_TRIPS : Fld := ⟨.moduleInput, 0x8, 0x8, 1, 32, 16, .ro, 0x0⟩
def RM_CTL_REQUEST : Fld := ⟨.moduleInput, 0x10, 0x8, 1, 0, 1, .w1s, 0x0⟩
def RM_CTL_FORCE : Fld := ⟨.moduleInput, 0x10, 0x8, 1, 1, 1, .rw, 0x0⟩
def RM_CTL_DRAIN_TIMEOUT : Fld := ⟨.moduleInput, 0x10, 0x8, 1, 2, 10, .rw, 0x3c⟩
def RM_CTL_DRAIN_DONE : Fld := ⟨.moduleInput, 0x10, 0x8, 1, 12, 1, .w1s, 0x0⟩
def RM_STATUS_PHASE : Fld := ⟨.moduleInput, 0x18, 0x8, 1, 0, 3, .ro, 0x0⟩
def RM_STATUS_LATCH_OPEN : Fld := ⟨.moduleInput, 0x18, 0x8, 1, 3, 1, .ro, 0x0⟩
def RM_STATUS_LIGHT : Fld := ⟨.moduleInput, 0x18, 0x8, 1, 4, 3, .ro, 0x0⟩
def PW_STATUS_CELL : Fld := ⟨.tilePower, 0x0, 0x8, 1, 0, 3, .ro, 0x0⟩
def PW_STATUS_VLNK_GOOD : Fld := ⟨.tilePower, 0x0, 0x8, 1, 3, 1, .ro, 0x0⟩
def PW_STATUS_FEED_OWN : Fld := ⟨.tilePower, 0x0, 0x8, 1, 4, 1, .ro, 0x0⟩
def PW_STATUS_FEED_ALT : Fld := ⟨.tilePower, 0x0, 0x8, 1, 5, 1, .ro, 0x0⟩
def PW_STATUS_VLNK_RED : Fld := ⟨.tilePower, 0x0, 0x8, 1, 6, 1, .ro, 0x0⟩
def PW_STATUS_TRIP : Fld := ⟨.tilePower, 0x0, 0x8, 1, 7, 3, .ro, 0x0⟩
def PW_STATUS_LIMITING : Fld := ⟨.tilePower, 0x0, 0x8, 1, 10, 1, .ro, 0x0⟩
def PW_STATUS_LOAD_PCT : Fld := ⟨.tilePower, 0x0, 0x8, 1, 11, 8, .ro, 0x0⟩
def PW_STATUS_SENSOR_BAD : Fld := ⟨.tilePower, 0x0, 0x8, 1, 19, 1, .ro, 0x0⟩
def PW_ENERGY_ENERGY : Fld := ⟨.tilePower, 0x8, 0x8, 1, 0, 64, .ro, 0x0⟩
def PW_POWER_P1MS : Fld := ⟨.tilePower, 0x10, 0x8, 1, 0, 16, .ro, 0x0⟩
def PW_POWER_PEAK10 : Fld := ⟨.tilePower, 0x10, 0x8, 1, 16, 16, .ro, 0x0⟩
def PW_POWER_LIMIT_EVENTS : Fld := ⟨.tilePower, 0x10, 0x8, 1, 32, 16, .ro, 0x0⟩
def PW_DOM_SETPOINT : Fld := ⟨.tilePower, 0x40, 0x8, 5, 0, 12, .ro, 0x0⟩
def PW_DOM_MIN_MV : Fld := ⟨.tilePower, 0x40, 0x8, 5, 12, 12, .ro, 0x0⟩
def PW_DOM_MIN_SENSOR : Fld := ⟨.tilePower, 0x40, 0x8, 5, 24, 6, .ro, 0x0⟩
def PW_DOM_EXCLUDED : Fld := ⟨.tilePower, 0x40, 0x8, 5, 30, 7, .ro, 0x0⟩
def PW_SITE_E_ENERGY : Fld := ⟨.tilePower, 0x80, 0x8, 8, 0, 64, .ro, 0x0⟩
def PW_UP_WAITED : Fld := ⟨.tilePower, 0xc0, 0x8, 1, 0, 13, .ro, 0x0⟩
def PW_UP_SLOW_RAMP : Fld := ⟨.tilePower, 0xc0, 0x8, 1, 13, 1, .ro, 0x0⟩
def PW_UP_UPS : Fld := ⟨.tilePower, 0xc0, 0x8, 1, 14, 16, .ro, 0x0⟩
def LG_CAP_CAP_W : Fld := ⟨.ledger, 0x0, 0x8, 1, 0, 15, .rw, 0x445c⟩
def LG_CAP_CFG_CLAMP : Fld := ⟨.ledger, 0x0, 0x8, 1, 15, 1, .w1c, 0x0⟩
def LG_CAP_OVERHEAD_W : Fld := ⟨.ledger, 0x0, 0x8, 1, 16, 16, .ro, 0x0⟩
def LG_WIN_WINDOW : Fld := ⟨.ledger, 0x8, 0x8, 1, 0, 32, .ro, 0x0⟩
def LG_USED_USED : Fld := ⟨.ledger, 0x10, 0x8, 1, 0, 48, .ro, 0x0⟩
def LG_LEFT_LEFT : Fld := ⟨.ledger, 0x18, 0x8, 1, 0, 48, .ro, 0x0⟩
def LG_MOD_P500 : Fld := ⟨.ledger, 0x20, 0x8, 1, 0, 16, .ro, 0x0⟩
def LG_MOD_MOD_LEVEL : Fld := ⟨.ledger, 0x20, 0x8, 1, 16, 3, .ro, 0x0⟩
def LG_MOD_DIVIDER_DOWN : Fld := ⟨.ledger, 0x20, 0x8, 1, 19, 1, .ro, 0x0⟩
def LG_MOD_OVER_CAP : Fld := ⟨.ledger, 0x20, 0x8, 1, 20, 16, .ro, 0x0⟩
def LG_MOD_DEFERRALS : Fld := ⟨.ledger, 0x20, 0x8, 1, 36, 16, .ro, 0x0⟩
def LG_VAT_CLAIM : Fld := ⟨.ledger, 0x1000, 0x10, 256, 0, 32, .rw, 0x0⟩
def LG_VAT_STEP : Fld := ⟨.ledger, 0x1000, 0x10, 256, 32, 32, .ro, 0x0⟩
def LG_VAT_STEP_ENERGY : Fld := ⟨.ledger, 0x1008, 0x10, 256, 0, 40, .ro, 0x0⟩
def LG_VAT_LEVEL : Fld := ⟨.ledger, 0x1008, 0x10, 256, 40, 3, .ro, 0x0⟩
def LG_VAT_WAITING : Fld := ⟨.ledger, 0x1008, 0x10, 256, 43, 1, .ro, 0x0⟩
def LG_VAT_OVER : Fld := ⟨.ledger, 0x1008, 0x10, 256, 44, 1, .ro, 0x0⟩
def LG_VAT_THROTTLES : Fld := ⟨.ledger, 0x1008, 0x10, 256, 45, 16, .ro, 0x0⟩
def CK_STATUS_SOURCE : Fld := ⟨.clock, 0x0, 0x8, 1, 0, 3, .ro, 0x1⟩
def CK_STATUS_PLL_LOCK : Fld := ⟨.clock, 0x0, 0x8, 1, 3, 1, .ro, 0x0⟩
def CK_STATUS_PLL_RETIRED : Fld := ⟨.clock, 0x0, 0x8, 1, 4, 1, .ro, 0x0⟩
def CK_STATUS_CHAIN : Fld := ⟨.clock, 0x0, 0x8, 1, 5, 4, .ro, 0x0⟩
def CK_STATUS_SETTING : Fld := ⟨.clock, 0x0, 0x8, 1, 9, 2, .ro, 0x0⟩
def CK_STATUS_CHANGING : Fld := ⟨.clock, 0x0, 0x8, 1, 11, 1, .ro, 0x0⟩
def CK_STATUS_MARGIN_WARN : Fld := ⟨.clock, 0x0, 0x8, 1, 12, 1, .ro, 0x0⟩
def CK_STATUS_MARGIN : Fld := ⟨.clock, 0x0, 0x8, 1, 13, 6, .ro, 0x0⟩
def CK_STATUS_VTRIM : Fld := ⟨.clock, 0x0, 0x8, 1, 19, 6, .ro, 0x0⟩
def CK_CTL_DIV_REQ : Fld := ⟨.clock, 0x8, 0x8, 1, 0, 2, .rw, 0x0⟩
def CK_CTL_STRETCH_TH : Fld := ⟨.clock, 0x8, 0x8, 1, 2, 6, .rwl, 0x4⟩
def CK_CTL_WARN_TH : Fld := ⟨.clock, 0x8, 0x8, 1, 8, 6, .rw, 0x8⟩
def CK_EVENTS_STRETCHES : Fld := ⟨.clock, 0x10, 0x8, 1, 0, 32, .ro, 0x0⟩
def CK_EVENTS_UNLOCKS : Fld := ⟨.clock, 0x10, 0x8, 1, 32, 16, .ro, 0x0⟩
def CK_EVENTS_WARNINGS : Fld := ⟨.clock, 0x10, 0x8, 1, 48, 16, .ro, 0x0⟩
def CK_SKEW_SKEW : Fld := ⟨.clock, 0x40, 0x8, 4, 0, 8, .ro, 0x0⟩
def CK_SKEW_TRIM : Fld := ⟨.clock, 0x40, 0x8, 4, 8, 8, .ro, 0x0⟩
def CK_SKEW_SKEW_ALARM : Fld := ⟨.clock, 0x40, 0x8, 4, 16, 1, .ro, 0x0⟩
def CK_SKEW_ALARMS : Fld := ⟨.clock, 0x40, 0x8, 4, 32, 16, .ro, 0x0⟩
def CK_SITE_MIN_MARGIN : Fld := ⟨.clock, 0x80, 0x8, 8, 0, 6, .ro, 0x3f⟩
def CK_SITE_MIN_PATH : Fld := ⟨.clock, 0x80, 0x8, 8, 6, 5, .ro, 0x0⟩
def CK_SITE_REPLICA_BAD : Fld := ⟨.clock, 0x80, 0x8, 8, 11, 16, .ro, 0x0⟩
def TM_NOW_NOW : Fld := ⟨.time, 0x0, 0x8, 1, 0, 64, .ro, 0x0⟩
def TM_STATUS_MASTER : Fld := ⟨.time, 0x8, 0x8, 1, 0, 1, .ro, 0x0⟩
def TM_STATUS_LOCKED : Fld := ⟨.time, 0x8, 0x8, 1, 1, 1, .ro, 0x0⟩
def TM_STATUS_HOLDOVER : Fld := ⟨.time, 0x8, 0x8, 1, 2, 1, .ro, 0x0⟩
def TM_STATUS_PARENT_PORT : Fld := ⟨.time, 0x8, 0x8, 1, 3, 5, .ro, 0x0⟩
def TM_STATUS_MASTER_MODULE : Fld := ⟨.time, 0x8, 0x8, 1, 8, 6, .ro, 0x0⟩
def TM_STATUS_REF_SEL : Fld := ⟨.time, 0x8, 0x8, 1, 14, 1, .ro, 0x0⟩
def TM_SERVO_OFFSET : Fld := ⟨.time, 0x10, 0x8, 1, 0, 32, .ro, 0x0⟩
def TM_SERVO_RATE : Fld := ⟨.time, 0x10, 0x8, 1, 32, 32, .ro, 0x0⟩
def TM_EVENTS_REF_SWITCHES : Fld := ⟨.time, 0x18, 0x8, 1, 0, 16, .ro, 0x0⟩
def TM_EVENTS_PARENT_CHANGES : Fld := ⟨.time, 0x18, 0x8, 1, 16, 16, .ro, 0x0⟩
def TM_EVENTS_HOLDOVERS : Fld := ⟨.time, 0x18, 0x8, 1, 32, 16, .ro, 0x0⟩
def FT_FENCE_FENCED : Fld := ⟨.fault, 0x0, 0x8, 7, 0, 20, .ro, 0x0⟩
def FT_CMD_TEST_DRY : Fld := ⟨.fault, 0x40, 0x8, 1, 0, 1, .w1s, 0x0⟩
def FT_TEST_BUSY : Fld := ⟨.fault, 0x48, 0x8, 1, 0, 1, .ro, 0x0⟩
def FT_TEST_DONE : Fld := ⟨.fault, 0x48, 0x8, 1, 1, 1, .w1c, 0x0⟩
def FT_TEST_RESULT : Fld := ⟨.fault, 0x48, 0x8, 1, 2, 2, .ro, 0x0⟩
def FT_TEST_SITE : Fld := ⟨.fault, 0x48, 0x8, 1, 4, 3, .ro, 0x0⟩
def FT_TEST_BUSY_REFUSED : Fld := ⟨.fault, 0x48, 0x8, 1, 7, 1, .w1c, 0x0⟩
def FT_TEST_DURATION : Fld := ⟨.fault, 0x48, 0x8, 1, 8, 11, .ro, 0x0⟩
def FT_DIE_TEST_AGE : Fld := ⟨.fault, 0x80, 0x8, 7, 0, 16, .ro, 0xffff⟩
def FT_DIE_STRIKES : Fld := ⟨.fault, 0x80, 0x8, 7, 16, 2, .ro, 0x0⟩
def FT_DIE_UE_1H : Fld := ⟨.fault, 0x80, 0x8, 7, 18, 8, .ro, 0x0⟩
def FT_CNT_SUBSTITUTIONS : Fld := ⟨.fault, 0xc0, 0x8, 1, 0, 16, .ro, 0x0⟩
def FT_CNT_MIGRATIONS : Fld := ⟨.fault, 0xc0, 0x8, 1, 16, 16, .ro, 0x0⟩
def FT_CNT_FENCES : Fld := ⟨.fault, 0xc0, 0x8, 1, 32, 16, .ro, 0x0⟩
def FT_CNT_FUSE_PASS : Fld := ⟨.fault, 0xc0, 0x8, 1, 48, 16, .ro, 0x0⟩
def FR_BASE_BASE : Fld := ⟨.faultLog, 0x0, 0x8, 1, 0, 56, .rw, 0x0⟩
def FR_HEAD_HEAD : Fld := ⟨.faultLog, 0x8, 0x8, 1, 0, 32, .ro, 0x0⟩
def FR_TAIL_TAIL : Fld := ⟨.faultLog, 0x10, 0x8, 1, 0, 32, .rw, 0x0⟩
def FR_STATUS_OVERRUN : Fld := ⟨.faultLog, 0x18, 0x8, 1, 0, 16, .ro, 0x0⟩
def FR_STATUS_SEQ : Fld := ⟨.faultLog, 0x18, 0x8, 1, 16, 32, .ro, 0x0⟩
def FL_STATUS_PERM_USED : Fld := ⟨.faultLog, 0x20, 0x8, 1, 0, 12, .ro, 0x0⟩
def FL_STATUS_HIST_USED : Fld := ⟨.faultLog, 0x20, 0x8, 1, 12, 15, .ro, 0x0⟩
def FL_STATUS_OWNER_USED : Fld := ⟨.faultLog, 0x20, 0x8, 1, 27, 17, .ro, 0x0⟩
def FL_STATUS_PERM_LOST : Fld := ⟨.faultLog, 0x20, 0x8, 1, 44, 16, .ro, 0x0⟩
def FL_SEL_FL_INDEX : Fld := ⟨.faultLog, 0x28, 0x8, 1, 0, 17, .rw, 0x0⟩
def FL_SEL_FL_AREA : Fld := ⟨.faultLog, 0x28, 0x8, 1, 17, 2, .rw, 0x0⟩
def FL_DATA_WORD : Fld := ⟨.faultLog, 0x40, 0x8, 8, 0, 64, .ro, 0x0⟩
def BU_STATUS_STATE : Fld := ⟨.bringup, 0x0, 0x8, 1, 0, 4, .ro, 0x0⟩
def BU_STATUS_WARM : Fld := ⟨.bringup, 0x0, 0x8, 1, 4, 1, .ro, 0x0⟩
def BU_STATUS_FAILED : Fld := ⟨.bringup, 0x0, 0x8, 1, 5, 1, .ro, 0x0⟩
def BU_STATUS_FALLBACK : Fld := ⟨.bringup, 0x0, 0x8, 1, 6, 3, .ro, 0x0⟩
def BU_STATUS_ELAPSED : Fld := ⟨.bringup, 0x0, 0x8, 1, 9, 23, .ro, 0x0⟩
def BU_TEST_TEST_AGE_H : Fld := ⟨.bringup, 0x8, 0x8, 1, 0, 16, .ro, 0x0⟩
def BU_TEST_ACCUSED : Fld := ⟨.bringup, 0x8, 0x8, 1, 16, 16, .ro, 0x0⟩
def BU_TEST_CONDEMNED : Fld := ⟨.bringup, 0x8, 0x8, 1, 32, 16, .ro, 0x0⟩
def BU_TEST_ACCUSERS_FAILED : Fld := ⟨.bringup, 0x8, 0x8, 1, 48, 16, .ro, 0x0⟩
def CUL_STATUS_CHUNKS : Fld := ⟨.bringup, 0x10, 0x8, 1, 0, 13, .ro, 0x0⟩
def CUL_STATUS_ROUNDS : Fld := ⟨.bringup, 0x10, 0x8, 1, 13, 2, .ro, 0x0⟩
def CUL_STATUS_FETCHED : Fld := ⟨.bringup, 0x10, 0x8, 1, 15, 16, .ro, 0x0⟩
def CUL_STATUS_FENCED : Fld := ⟨.bringup, 0x10, 0x8, 1, 31, 10, .ro, 0x0⟩
def CUL_STATUS_SLOT : Fld := ⟨.bringup, 0x10, 0x8, 1, 41, 1, .ro, 0x0⟩
def CUL_RELEASE_RELEASE : Fld := ⟨.bringup, 0x18, 0x8, 1, 0, 32, .ro, 0x0⟩
def CUL_DIGEST_DIGEST : Fld := ⟨.bringup, 0x20, 0x8, 6, 0, 64, .ro, 0x0⟩
def RST_CMD_SCOPE : Fld := ⟨.bringup, 0x80, 0x8, 1, 0, 3, .rw, 0x0⟩
def RST_CMD_TILE : Fld := ⟨.bringup, 0x80, 0x8, 1, 3, 6, .rw, 0x0⟩
def RST_CMD_PSITE : Fld := ⟨.bringup, 0x80, 0x8, 1, 9, 3, .rw, 0x0⟩
def RST_CMD_CLUSTER : Fld := ⟨.bringup, 0x80, 0x8, 1, 12, 2, .rw, 0x0⟩
def RST_CMD_SLOT : Fld := ⟨.bringup, 0x80, 0x8, 1, 14, 3, .rw, 0x0⟩
def RST_CMD_GO : Fld := ⟨.bringup, 0x80, 0x8, 1, 17, 1, .w1s, 0x0⟩
def RST_STATUS_BUSY : Fld := ⟨.bringup, 0x88, 0x8, 1, 0, 1, .ro, 0x0⟩
def RST_STATUS_DONE : Fld := ⟨.bringup, 0x88, 0x8, 1, 1, 1, .w1c, 0x0⟩
def RST_STATUS_RESULT : Fld := ⟨.bringup, 0x88, 0x8, 1, 2, 2, .ro, 0x0⟩
def RST_STATUS_SCOPE : Fld := ⟨.bringup, 0x88, 0x8, 1, 4, 3, .ro, 0x0⟩
def FN_ID_KIND : Fld := ⟨.fnRegs, 0x0, 0x8, 1, 0, 2, .ro, 0x0⟩
def FN_ID_VF : Fld := ⟨.fnRegs, 0x0, 0x8, 1, 2, 6, .ro, 0x0⟩
def FN_ID_VAT : Fld := ⟨.fnRegs, 0x0, 0x8, 1, 8, 8, .ro, 0x0⟩
def FN_ID_QUEUES : Fld := ⟨.fnRegs, 0x0, 0x8, 1, 16, 5, .ro, 0x0⟩
def FN_SYS_LEAD : Fld := ⟨.fnRegs, 0x8, 0x8, 1, 0, 6, .ro, 0x0⟩
def FN_SYS_MODULES : Fld := ⟨.fnRegs, 0x8, 0x8, 1, 6, 7, .ro, 0x0⟩
def FN_SYS_EXPECTED : Fld := ⟨.fnRegs, 0x8, 0x8, 1, 13, 7, .ro, 0x0⟩
def FN_SYS_FORMED : Fld := ⟨.fnRegs, 0x8, 0x8, 1, 20, 1, .ro, 0x0⟩
def FN_EVT_PENDING : Fld := ⟨.fnRegs, 0x10, 0x8, 1, 0, 7, .ro, 0x0⟩
def FN_EVT_DROPPED : Fld := ⟨.fnRegs, 0x10, 0x8, 1, 7, 16, .ro, 0x0⟩
def FN_EVT_HOST_LOST : Fld := ⟨.fnRegs, 0x10, 0x8, 1, 23, 16, .ro, 0x0⟩
def CSR_ADDR_ADDR : Fld := ⟨.fnRegs, 0x100, 0x8, 1, 0, 64, .rw, 0x0⟩
def CSR_DATA_DATA : Fld := ⟨.fnRegs, 0x108, 0x8, 1, 0, 64, .rw, 0x0⟩
def CSR_STAT_BUSY : Fld := ⟨.fnRegs, 0x110, 0x8, 1, 0, 1, .ro, 0x0⟩
def CSR_STAT_ERR : Fld := ⟨.fnRegs, 0x110, 0x8, 1, 1, 1, .w1c, 0x0⟩
def Q_SQ_BASE_SQ_BASE : Fld := ⟨.qRegs, 0x0, 0x8, 1, 12, 52, .rw, 0x0⟩
def Q_CQ_BASE_CQ_BASE : Fld := ⟨.qRegs, 0x8, 0x8, 1, 12, 52, .rw, 0x0⟩
def Q_CFG_SQ_LOG2 : Fld := ⟨.qRegs, 0x10, 0x8, 1, 0, 4, .rw, 0x0⟩
def Q_CFG_CQ_LOG2 : Fld := ⟨.qRegs, 0x10, 0x8, 1, 4, 4, .rw, 0x0⟩
def Q_CFG_VAT : Fld := ⟨.qRegs, 0x10, 0x8, 1, 8, 8, .rw, 0x0⟩
def Q_CFG_VECTOR : Fld := ⟨.qRegs, 0x10, 0x8, 1, 16, 5, .rw, 0x0⟩
def Q_CFG_ENABLE : Fld := ⟨.qRegs, 0x10, 0x8, 1, 21, 1, .rw, 0x0⟩
def Q_STATUS_SQ_HEAD : Fld := ⟨.qRegs, 0x18, 0x8, 1, 0, 12, .ro, 0x0⟩
def Q_STATUS_CQ_TAIL : Fld := ⟨.qRegs, 0x18, 0x8, 1, 12, 12, .ro, 0x0⟩
def Q_STATUS_ENABLED : Fld := ⟨.qRegs, 0x18, 0x8, 1, 24, 1, .ro, 0x0⟩
def Q_STATUS_HALTED : Fld := ⟨.qRegs, 0x18, 0x8, 1, 25, 1, .ro, 0x0⟩
def Q_STATUS_ERR : Fld := ⟨.qRegs, 0x18, 0x8, 1, 26, 3, .ro, 0x0⟩
def Q_STATS_COMPLETED : Fld := ⟨.qRegs, 0x20, 0x8, 1, 0, 32, .ro, 0x0⟩
def Q_STATS_ABORTED : Fld := ⟨.qRegs, 0x20, 0x8, 1, 32, 16, .ro, 0x0⟩
def LC_STATUS_STATE : Fld := ⟨.mgmt, 0x0, 0x8, 1, 0, 3, .ro, 0x2⟩
def LC_STATUS_OWNED : Fld := ⟨.mgmt, 0x0, 0x8, 1, 3, 1, .ro, 0x0⟩
def LC_STATUS_TOKEN_ACTIVE : Fld := ⟨.mgmt, 0x0, 0x8, 1, 4, 1, .ro, 0x0⟩
def LC_STATUS_LINK_INJECT : Fld := ⟨.mgmt, 0x0, 0x8, 1, 5, 1, .ro, 0x0⟩
def LC_STATUS_TOKEN_LEFT : Fld := ⟨.mgmt, 0x0, 0x8, 1, 6, 17, .ro, 0x0⟩
def LC_SVN_SVN_STEPS_SVC : Fld := ⟨.mgmt, 0x8, 0x8, 1, 0, 6, .ro, 0x0⟩
def LC_SVN_SVN_STEPS_CUL : Fld := ⟨.mgmt, 0x8, 0x8, 1, 6, 6, .ro, 0x0⟩
def LC_SVN_KEY_REVOKED : Fld := ⟨.mgmt, 0x8, 0x8, 1, 12, 4, .ro, 0x0⟩
def LC_ID_DEVICE_ID : Fld := ⟨.mgmt, 0x10, 0x8, 1, 0, 64, .ro, 0x0⟩
def CM_BASE_BASE : Fld := ⟨.mgmt, 0x18, 0x8, 1, 0, 56, .rw, 0x0⟩
def CM_HEAD_HEAD : Fld := ⟨.mgmt, 0x20, 0x8, 1, 0, 32, .ro, 0x0⟩
def CM_CTL_ENABLE : Fld := ⟨.mgmt, 0x28, 0x8, 1, 0, 1, .rw, 0x0⟩
def CM_CTL_MISSED : Fld := ⟨.mgmt, 0x28, 0x8, 1, 16, 16, .ro, 0x0⟩
def TORUS_X : Fld := ⟨.mgmt, 0x30, 0x8, 1, 0, 2, .ro, 0x0⟩
def TORUS_Y : Fld := ⟨.mgmt, 0x30, 0x8, 1, 2, 2, .ro, 0x0⟩
def TORUS_Z : Fld := ⟨.mgmt, 0x30, 0x8, 1, 4, 2, .ro, 0x0⟩
def TORUS_DEPTH : Fld := ⟨.mgmt, 0x30, 0x8, 1, 6, 3, .ro, 0x0⟩
def TORUS_VALID : Fld := ⟨.mgmt, 0x30, 0x8, 1, 9, 1, .ro, 0x0⟩
def TL_TEMP_TEMP : Fld := ⟨.thermalLife, 0x0, 0x8, 1, 0, 8, .ro, 0x0⟩
def TL_TEMP_PEAK : Fld := ⟨.thermalLife, 0x0, 0x8, 1, 8, 8, .ro, 0x0⟩
def TL_TEMP_RESIDUE : Fld := ⟨.thermalLife, 0x0, 0x8, 1, 16, 7, .ro, 0x0⟩
def TL_BIN01_BIN_20_30 : Fld := ⟨.thermalLife, 0x8, 0x8, 1, 0, 32, .ro, 0x0⟩
def TL_BIN01_BIN_30_40 : Fld := ⟨.thermalLife, 0x8, 0x8, 1, 32, 32, .ro, 0x0⟩
def TL_BIN23_BIN_40_60 : Fld := ⟨.thermalLife, 0x10, 0x8, 1, 0, 32, .ro, 0x0⟩
def TL_BIN23_BIN_60 : Fld := ⟨.thermalLife, 0x10, 0x8, 1, 32, 32, .ro, 0x0⟩
def TL_LIFE_LIFE_USED : Fld := ⟨.thermalLife, 0x18, 0x8, 1, 0, 40, .ro, 0x0⟩
def TL_LIFE_LIFE_WARN : Fld := ⟨.thermalLife, 0x18, 0x8, 1, 40, 1, .ro, 0x0⟩
def TL_LIFE_REMAIN_DAYS : Fld := ⟨.thermalLife, 0x18, 0x8, 1, 41, 16, .ro, 0xffff⟩
def TR_COOL_INLET : Fld := ⟨.tray, 0x0, 0x8, 1, 0, 12, .ro, 0x0⟩
def TR_COOL_OUTLET : Fld := ⟨.tray, 0x0, 0x8, 1, 12, 12, .ro, 0x0⟩
def TR_COOL_FLOW : Fld := ⟨.tray, 0x0, 0x8, 1, 24, 10, .ro, 0x0⟩
def TR_FCST_P_FCST : Fld := ⟨.tray, 0x8, 0x8, 1, 0, 16, .ro, 0x0⟩
def TR_FCST_OUT_FCST : Fld := ⟨.tray, 0x8, 0x8, 1, 16, 12, .ro, 0x0⟩
def TR_FCST_THERM_LIMIT_W : Fld := ⟨.tray, 0x8, 0x8, 1, 28, 16, .ro, 0xffff⟩
def TR_FCST_LIMITING : Fld := ⟨.tray, 0x8, 0x8, 1, 44, 1, .ro, 0x0⟩
def TR_CTL_OUT_LIMIT : Fld := ⟨.tray, 0x10, 0x8, 1, 0, 6, .rw, 0x3c⟩
def TR_CMP_LAST_CUT : Fld := ⟨.tray, 0x18, 0x8, 1, 0, 2, .ro, 0x0⟩
def TR_CMP_CUTS : Fld := ⟨.tray, 0x18, 0x8, 1, 2, 16, .ro, 0x0⟩
def TR_CMP_RESTARTS_1H : Fld := ⟨.tray, 0x18, 0x8, 1, 18, 2, .ro, 0x0⟩
def TR_CMP_LOCKOUT : Fld := ⟨.tray, 0x18, 0x8, 1, 20, 1, .ro, 0x0⟩
def TR_FP_BUTTON : Fld := ⟨.tray, 0x20, 0x8, 1, 0, 1, .ro, 0x0⟩
def TR_FP_PRESENCE_OPEN : Fld := ⟨.tray, 0x20, 0x8, 1, 1, 1, .ro, 0x0⟩
def TR_FP_PRESENCE_LEFT : Fld := ⟨.tray, 0x20, 0x8, 1, 2, 6, .ro, 0x0⟩
def TR_FP_GESTURES : Fld := ⟨.tray, 0x20, 0x8, 1, 8, 16, .ro, 0x0⟩
def PORT_FLITS : Fld := ⟨.dyn, 0x100, 0x20, 16, 0, 48, .ro, 0x0⟩
def PORT_OFF_CYCLES : Fld := ⟨.dyn, 0x108, 0x20, 16, 0, 32, .ro, 0x0⟩
def PORT_WAIT_CYCLES : Fld := ⟨.dyn, 0x108, 0x20, 16, 32, 32, .ro, 0x0⟩
def PORT_OCC_REQ : Fld := ⟨.dyn, 0x110, 0x20, 16, 0, 11, .ro, 0x0⟩
def PORT_OCC_RSP : Fld := ⟨.dyn, 0x110, 0x20, 16, 11, 11, .ro, 0x0⟩
def PORT_OCC_CHN : Fld := ⟨.dyn, 0x110, 0x20, 16, 22, 11, .ro, 0x0⟩
def PORT_OCC_SVC : Fld := ⟨.dyn, 0x110, 0x20, 16, 33, 11, .ro, 0x0⟩
def T2_ERR_CORRECTED : Fld := ⟨.t2Pkg, 0x0, 0x8, 1, 0, 16, .ro, 0x0⟩
def T2_ERR_RETRY_OK : Fld := ⟨.t2Pkg, 0x0, 0x8, 1, 16, 16, .ro, 0x0⟩
def T2_ERR_POISONED : Fld := ⟨.t2Pkg, 0x0, 0x8, 1, 32, 16, .ro, 0x0⟩
def T2_ERR_LOST_WR : Fld := ⟨.t2Pkg, 0x0, 0x8, 1, 48, 16, .ro, 0x0⟩
def T2_LAST_LINE : Fld := ⟨.t2Pkg, 0x8, 0x8, 1, 0, 30, .ro, 0x0⟩
def T2_LAST_NEW : Fld := ⟨.t2Pkg, 0x8, 0x8, 1, 30, 1, .w1c, 0x0⟩
def T2_STATE_TRAINED : Fld := ⟨.t2Pkg, 0x10, 0x8, 1, 0, 1, .ro, 0x0⟩
def T2_STATE_LOST : Fld := ⟨.t2Pkg, 0x10, 0x8, 1, 1, 1, .ro, 0x0⟩

end Reg

/-- The fields of a block. -/
def blkFlds : Blk → List Fld
  | .matrixChk =>
    [Reg.MCHK_CTL_AUTO_RESTART, Reg.MCHK_CTL_RESIDUE_EN, Reg.MCHK_COUNT_RESIDUE_ERR, Reg.MCHK_COUNT_PARITY_ERR,
      Reg.MCHK_COUNT_TWIN_MISM, Reg.MCHK_COUNT_RESTARTS, Reg.MCHK_LAST_CMD_TAG, Reg.MCHK_LAST_COLUMN,
      Reg.MCHK_LAST_ROW, Reg.MCHK_LAST_SOURCE, Reg.MCHK_LAST_ESCALATED, Reg.MPROG_FOLD_INDEX, Reg.MPROG_ACTIVE,
      Reg.MPROG_HELD, Reg.MPROG_SPILLING]
  | .cmdQueue =>
    [Reg.CQ_STATUS_DEPTH, Reg.CQ_STATUS_HEAD, Reg.CQ_STATUS_FROZEN, Reg.CQ_STATUS_TWIN_CLAIMED, Reg.CQ_LAST_TAG,
      Reg.CQ_LAST_ARITH_STATUS, Reg.CQ_LAST_CAUSE, Reg.CQ_CTL_OP, Reg.CQ_STICKY_ARITH_OR, Reg.CQ_STICKY_IDX_OOB,
      Reg.CQ_STATS_COMPLETED, Reg.CQ_STATS_FULL_STALLS, Reg.CQ_STATS_FAILURES]
  | .cmdCounter =>
    [Reg.CTR_VALUE]
  | .scratch =>
    [Reg.PAIL_W0_VALID, Reg.PAIL_W0_SVC_ONLY, Reg.PAIL_W0_READ_ONLY, Reg.PAIL_W0_VIEW, Reg.PAIL_W0_FMT,
      Reg.PAIL_W0_BASE_4K, Reg.PAIL_W0_SIZE_M1, Reg.PAIL_W1_GEOM, Reg.SCR_ECC_CORRECTED, Reg.SCR_ECC_UNCORRECTED,
      Reg.SCR_ECC_LAST_UE, Reg.SCR_ECC_LAST_SRC, Reg.SCR_ECC_UE_NEW, Reg.SCR_CTL_SCRUB_EN, Reg.SCR_CTL_INJECT,
      Reg.MSE_STATUS_OCCUPANCY, Reg.MSE_STATUS_STOPPED_ECC, Reg.MSE_STATUS_REMAINING, Reg.SCR_STATS_PROMOTIONS,
      Reg.SCR_STATS_SCRUB_PASSES, Reg.SCR_STATS_BND_NACKS]
  | .schedInj =>
    [Reg.INJ_STATUS_COUNT, Reg.INJ_STATUS_ACTIVE, Reg.INJ_STATUS_STOPPED, Reg.INJ_STATUS_INJ_SKIP,
      Reg.INJ_ENTRY_WORD]
  | .dynInj =>
    [Reg.DI_STATUS_OUTSTANDING, Reg.DI_STATUS_STOPPED, Reg.DI_STATUS_STREAMS, Reg.DI_STATS_PACKETS,
      Reg.DI_STATS_NACKS, Reg.DI_STATS_TIMEOUTS, Reg.DI_LAST_OPID, Reg.DI_LAST_CAUSE, Reg.DI_LAST_SEQ]
  | .tileSite =>
    [Reg.SITE_MAP_LSITE0, Reg.SITE_MAP_LSITE1, Reg.SITE_MAP_LSITE2, Reg.SITE_MAP_LSITE3, Reg.SITE_MAP_LSITE4,
      Reg.SITE_MAP_LSITE5, Reg.SITE_MAP_DRY, Reg.SITE_MAP_MAP_GEN, Reg.SITE_STATE_SITE_ST, Reg.SITE_CMD_LSITE,
      Reg.SITE_CMD_OP, Reg.SITE_CMD_PREEMPT, Reg.SITE_STATUS_BUSY, Reg.SITE_STATUS_DONE, Reg.SITE_STATUS_RESULT]
  | .tierMover =>
    [Reg.MV_BIND_ENABLE, Reg.MV_BIND_SVC, Reg.MV_BIND_SIZE_LOG2, Reg.MV_BIND_LSITE, Reg.MV_BIND_CLUSTER,
      Reg.MV_BIND_RING_PAIL, Reg.MV_BIND_DB_CTR, Reg.MV_BIND_VAT, Reg.MV_CONSUMED_CONSUMED, Reg.MV_STATUS_RING,
      Reg.MV_STATUS_BUSY, Reg.MV_STATUS_REMAINING, Reg.MV_STATS_PAGES, Reg.MV_STATS_FAILURES, Reg.MV_DROPS_UNBOUND,
      Reg.MV_DROPS_OVERRUN, Reg.MV_DROPS_ABANDONED]
  | .t1Stack =>
    [Reg.TM_ERR_CORRECTED, Reg.TM_ERR_RETRY_OK, Reg.TM_ERR_POISONED, Reg.TM_ERR_LOST_WR, Reg.TM_LAST_LINE,
      Reg.TM_LAST_NEW, Reg.TM_STATE_TRAINED, Reg.TM_STATE_LOST]
  | .t2Pkg =>
    [Reg.T2_ERR_CORRECTED, Reg.T2_ERR_RETRY_OK, Reg.T2_ERR_POISONED, Reg.T2_ERR_LOST_WR, Reg.T2_LAST_LINE,
      Reg.T2_LAST_NEW, Reg.T2_STATE_TRAINED, Reg.T2_STATE_LOST]
  | .t3Port =>
    [Reg.T3_CTL_MODE, Reg.T3_CTL_MAP_SIZE, Reg.T3_STATUS_LINK_UP, Reg.T3_STATUS_SPEED, Reg.T3_STATUS_WIDTH,
      Reg.T3_STATUS_REFUSED, Reg.T3_STATUS_POISON_RX, Reg.T3_STATUS_LOST_WR, Reg.T3_IN_BASE_IN_BASE,
      Reg.T3_IN_LIMIT_IN_LIMIT, Reg.T3_IN_TARGET_IN_TARGET]
  | .tierGrant =>
    [Reg.GRANT_VALID, Reg.GRANT_WRITE, Reg.GRANT_TIER, Reg.GRANT_BASE_2M, Reg.GRANT_PAGES_M1]
  | .sched =>
    [Reg.SCH_STATUS_SLOT, Reg.SCH_STATUS_FRAME, Reg.SCH_STATUS_HOLD_PEND, Reg.SCH_STRETCH_S_SLOT,
      Reg.SCH_STRETCH_DEFICIT, Reg.SCH_STRETCH_HOLD_TARGET, Reg.SCH_STRETCH_MAX_DEFICIT, Reg.SCH_HOLDS_ASSERTED,
      Reg.SCH_HOLDS_TAKEN, Reg.SCH_DROP_FENCED, Reg.SCH_DROP_KILLED, Reg.SCH_DROP_UNMAPPED, Reg.SCH_DROP_BOUNDS,
      Reg.SCH_REPAIR_REPAIRED, Reg.SCH_REPAIR_LOST, Reg.SCH_REPAIR_REPAIR_LATE, Reg.SCH_LINK_LG_MAP,
      Reg.SCH_LINK_RETIRED, Reg.SCH_LINK_INVALID, Reg.SCH_LINK_DYN_GROUPS, Reg.VAT_BANK_BANK, Reg.SCH_ENTRY_ENTRY]
  | .dyn =>
    [Reg.DYN_BUF_BUF_REQ, Reg.DYN_BUF_BUF_RSP, Reg.DYN_BUF_BUF_CHN, Reg.DYN_BUF_BUF_SVC, Reg.DYN_BUF_CFG_CLAMP,
      Reg.DYN_CTL_INJ_PAUSE, Reg.DYN_CTL_DRAINED, Reg.DYN_CTL_EPOCH, Reg.DYN_CTL_COMMIT_BUSY,
      Reg.DYN_TMO_OP_TIMEOUT, Reg.DYN_DROP0_HDR_DROP, Reg.DYN_DROP0_EPOCH_NACK, Reg.DYN_DROP0_PATH_NACK,
      Reg.DYN_DROP0_DRAIN_DROP, Reg.DYN_DROP1_FENCED_NACK, Reg.DYN_DROP1_BOUNDS_NACK, Reg.DYN_DROP1_KILLED,
      Reg.DYN_DROP1_RESEND, Reg.DYN_DROP2_RETRY, Reg.DYN_DROP2_TRUNC, Reg.DYN_DROP2_LOST_REPLY, Reg.PORT_FLITS,
      Reg.PORT_OFF_CYCLES, Reg.PORT_WAIT_CYCLES, Reg.PORT_OCC_REQ, Reg.PORT_OCC_RSP, Reg.PORT_OCC_CHN,
      Reg.PORT_OCC_SVC]
  | .dirtab =>
    [Reg.TILE_STG_MASK, Reg.MOD_STG_DIR, Reg.MOD_STG_EXIT_TILE, Reg.TILE_ACT_ENTRY, Reg.MOD_ACT_ENTRY]
  | .rennet =>
    [Reg.RN_SEL_VAT, Reg.RN_OR_OR, Reg.RN_AND_AND, Reg.RN_BAR_BARRIERS, Reg.EXP_BIND_VAT, Reg.EXP_BIND_VALID,
      Reg.EXP_LOCAL_EXP, Reg.EXP_LOCAL_TAG, Reg.EXP_LOCAL_SEAL, Reg.EXP_GLOBAL_EXP, Reg.EXP_GLOBAL_TAG,
      Reg.EXP_GLOBAL_COMPLETE, Reg.EXP_GLOBAL_MODULES, Reg.EXP_GLOBAL_SEALED, Reg.EXP_GLOBAL_INCLUDED]
  | .churn =>
    [Reg.CH_VAT_MODE, Reg.CH_VAT_SKIM, Reg.CH_STAGE_USED, Reg.CH_STAGE_PEAK, Reg.CH_STAGE_CFG_CLAMP,
      Reg.CH_CNT0_COMBINED, Reg.CH_CNT0_UNCOMB, Reg.CH_CNT0_MISMATCH, Reg.CH_CNT1_LATE, Reg.CH_CNT1_STALE,
      Reg.CH_CNT1_SPLIT, Reg.CH_CNT1_SINK_NACK, Reg.CH_CNT2_KILLED, Reg.CH_CNT2_SINK_LOST, Reg.CH_CNT2_SUPERSEDED,
      Reg.CH_NODE_VALID, Reg.CH_NODE_VAT, Reg.CH_NODE_TREE, Reg.CH_NODE_EXPECT, Reg.CH_NODE_SKIM_NODE,
      Reg.CH_NODE_HOLD, Reg.CH_SINK_VALID, Reg.CH_SINK_VAT, Reg.CH_SINK_TREE, Reg.CH_SINK_DST_CORE,
      Reg.CH_SINK_SIG_EN, Reg.CH_SINK_SIG_CTR, Reg.CH_SINK_DST_PAIL, Reg.CH_SINK_SKIM_EN, Reg.CH_SINK_DST_OFF,
      Reg.CH_SINK_SHARD_BYTES_M1, Reg.CH_SINK_LOG_PAIL, Reg.CH_SINK_REC_PAIL, Reg.CH_SINK_LOG_OFF,
      Reg.CH_SINK_REC_OFF, Reg.CH_SINK_EXPECT_MASK, Reg.CH_SINK_TOTAL, Reg.CH_SINK_QUORUM]
  | .link =>
    [Reg.LK_STATUS_STATE, Reg.LK_STATUS_WIDTH_TX, Reg.LK_STATUS_WIDTH_RX, Reg.LK_STATUS_GRP_RETIRED_TX,
      Reg.LK_STATUS_GRP_RETIRED_RX, Reg.LK_STATUS_ATTEMPT, Reg.LK_STATUS_DISAGREED, Reg.LK_STATUS_CTL_DEGRADED,
      Reg.LK_STATUS_TRAINS, Reg.LK_ERR_REPLAYS, Reg.LK_ERR_REPLAY_FULL, Reg.LK_ERR_GROUP_STORM,
      Reg.LK_CFG_LANE_THRESH, Reg.LK_CFG_WINDOW_LOG2, Reg.LK_CFG_GROUP_THRESH, Reg.LK_GROUP_SPARES_USED,
      Reg.LK_GROUP_RETIRED, Reg.LK_GROUP_LAST_LANE, Reg.LK_GROUP_CRC_ERR, Reg.LK_GROUP_LANE_FAILS]
  | .express =>
    [Reg.XP_STATUS_STATE, Reg.XP_STATUS_RX_POWER, Reg.XP_CHAN_LIVE, Reg.XP_ERR_REPLAYS, Reg.XP_ERR_CRC_ERR,
      Reg.XP_ERR_CHAN_RETIRED]
  | .reach =>
    [Reg.RP_CTL_ENABLE, Reg.RP_STATUS_STATE, Reg.RP_STATUS_PEER_MODULE, Reg.RP_STATUS_PEER_PORT,
      Reg.RP_STATUS_ATTEMPT, Reg.RP_STATUS_TRAINS, Reg.RP_FEC_CORRECTED, Reg.RP_FEC_UNCORR, Reg.RP_ERR_REPLAYS,
      Reg.RP_ERR_CRC_ERR, Reg.RP_ERR_DOWN_EVENTS]
  | .laser =>
    [Reg.LS_CART_STATE, Reg.LS_CART_OUTPUT, Reg.LS_CART_INTERLOCK, Reg.LS_CART_LOCKED, Reg.LS_CART_TAKEOVERS,
      Reg.LS_CART_HOURS, Reg.LS_CART_SERIAL, Reg.LS_CTL_RELEASE]
  | .linkInj =>
    [Reg.LINJ_CTL_KIND, Reg.LINJ_CTL_TARGET, Reg.LINJ_CTL_PORT, Reg.LINJ_CTL_GROUP, Reg.LINJ_CTL_LANE,
      Reg.LINJ_CTL_COUNT, Reg.LINJ_CTL_PERIOD, Reg.LINJ_CTL_ARM, Reg.LINJ_STATUS_INJECTED, Reg.LINJ_STATUS_ACTIVE,
      Reg.LINJ_STATUS_REFUSED]
  | .tilePower =>
    [Reg.PW_STATUS_CELL, Reg.PW_STATUS_VLNK_GOOD, Reg.PW_STATUS_FEED_OWN, Reg.PW_STATUS_FEED_ALT,
      Reg.PW_STATUS_VLNK_RED, Reg.PW_STATUS_TRIP, Reg.PW_STATUS_LIMITING, Reg.PW_STATUS_LOAD_PCT,
      Reg.PW_STATUS_SENSOR_BAD, Reg.PW_ENERGY_ENERGY, Reg.PW_POWER_P1MS, Reg.PW_POWER_PEAK10,
      Reg.PW_POWER_LIMIT_EVENTS, Reg.PW_DOM_SETPOINT, Reg.PW_DOM_MIN_MV, Reg.PW_DOM_MIN_SENSOR,
      Reg.PW_DOM_EXCLUDED, Reg.PW_SITE_E_ENERGY, Reg.PW_UP_WAITED, Reg.PW_UP_SLOW_RAMP, Reg.PW_UP_UPS]
  | .ledger =>
    [Reg.LG_CAP_CAP_W, Reg.LG_CAP_CFG_CLAMP, Reg.LG_CAP_OVERHEAD_W, Reg.LG_WIN_WINDOW, Reg.LG_USED_USED,
      Reg.LG_LEFT_LEFT, Reg.LG_MOD_P500, Reg.LG_MOD_MOD_LEVEL, Reg.LG_MOD_DIVIDER_DOWN, Reg.LG_MOD_OVER_CAP,
      Reg.LG_MOD_DEFERRALS, Reg.LG_VAT_CLAIM, Reg.LG_VAT_STEP, Reg.LG_VAT_STEP_ENERGY, Reg.LG_VAT_LEVEL,
      Reg.LG_VAT_WAITING, Reg.LG_VAT_OVER, Reg.LG_VAT_THROTTLES]
  | .moduleInput =>
    [Reg.IN_STATUS_VIN, Reg.IN_STATUS_IIN, Reg.IN_STATUS_VBULK, Reg.IN_STATUS_EFUSE, Reg.IN_STATUS_LAST_TRIP,
      Reg.IN_STATUS_COOLANT_WAIT, Reg.IN_EVENTS_LOSSES, Reg.IN_EVENTS_DIPS, Reg.IN_EVENTS_TRIPS,
      Reg.RM_CTL_REQUEST, Reg.RM_CTL_FORCE, Reg.RM_CTL_DRAIN_TIMEOUT, Reg.RM_CTL_DRAIN_DONE, Reg.RM_STATUS_PHASE,
      Reg.RM_STATUS_LATCH_OPEN, Reg.RM_STATUS_LIGHT]
  | .clock =>
    [Reg.CK_STATUS_SOURCE, Reg.CK_STATUS_PLL_LOCK, Reg.CK_STATUS_PLL_RETIRED, Reg.CK_STATUS_CHAIN,
      Reg.CK_STATUS_SETTING, Reg.CK_STATUS_CHANGING, Reg.CK_STATUS_MARGIN_WARN, Reg.CK_STATUS_MARGIN,
      Reg.CK_STATUS_VTRIM, Reg.CK_CTL_DIV_REQ, Reg.CK_CTL_STRETCH_TH, Reg.CK_CTL_WARN_TH, Reg.CK_EVENTS_STRETCHES,
      Reg.CK_EVENTS_UNLOCKS, Reg.CK_EVENTS_WARNINGS, Reg.CK_SKEW_SKEW, Reg.CK_SKEW_TRIM, Reg.CK_SKEW_SKEW_ALARM,
      Reg.CK_SKEW_ALARMS, Reg.CK_SITE_MIN_MARGIN, Reg.CK_SITE_MIN_PATH, Reg.CK_SITE_REPLICA_BAD]
  | .time =>
    [Reg.TM_NOW_NOW, Reg.TM_STATUS_MASTER, Reg.TM_STATUS_LOCKED, Reg.TM_STATUS_HOLDOVER, Reg.TM_STATUS_PARENT_PORT,
      Reg.TM_STATUS_MASTER_MODULE, Reg.TM_STATUS_REF_SEL, Reg.TM_SERVO_OFFSET, Reg.TM_SERVO_RATE,
      Reg.TM_EVENTS_REF_SWITCHES, Reg.TM_EVENTS_PARENT_CHANGES, Reg.TM_EVENTS_HOLDOVERS]
  | .fault =>
    [Reg.FT_FENCE_FENCED, Reg.FT_CMD_TEST_DRY, Reg.FT_TEST_BUSY, Reg.FT_TEST_DONE, Reg.FT_TEST_RESULT,
      Reg.FT_TEST_SITE, Reg.FT_TEST_BUSY_REFUSED, Reg.FT_TEST_DURATION, Reg.FT_DIE_TEST_AGE, Reg.FT_DIE_STRIKES,
      Reg.FT_DIE_UE_1H, Reg.FT_CNT_SUBSTITUTIONS, Reg.FT_CNT_MIGRATIONS, Reg.FT_CNT_FENCES, Reg.FT_CNT_FUSE_PASS]
  | .faultLog =>
    [Reg.FR_BASE_BASE, Reg.FR_HEAD_HEAD, Reg.FR_TAIL_TAIL, Reg.FR_STATUS_OVERRUN, Reg.FR_STATUS_SEQ,
      Reg.FL_STATUS_PERM_USED, Reg.FL_STATUS_HIST_USED, Reg.FL_STATUS_OWNER_USED, Reg.FL_STATUS_PERM_LOST,
      Reg.FL_SEL_FL_INDEX, Reg.FL_SEL_FL_AREA, Reg.FL_DATA_WORD]
  | .bringup =>
    [Reg.BU_STATUS_STATE, Reg.BU_STATUS_WARM, Reg.BU_STATUS_FAILED, Reg.BU_STATUS_FALLBACK, Reg.BU_STATUS_ELAPSED,
      Reg.BU_TEST_TEST_AGE_H, Reg.BU_TEST_ACCUSED, Reg.BU_TEST_CONDEMNED, Reg.BU_TEST_ACCUSERS_FAILED,
      Reg.CUL_STATUS_CHUNKS, Reg.CUL_STATUS_ROUNDS, Reg.CUL_STATUS_FETCHED, Reg.CUL_STATUS_FENCED,
      Reg.CUL_STATUS_SLOT, Reg.CUL_RELEASE_RELEASE, Reg.CUL_DIGEST_DIGEST, Reg.RST_CMD_SCOPE, Reg.RST_CMD_TILE,
      Reg.RST_CMD_PSITE, Reg.RST_CMD_CLUSTER, Reg.RST_CMD_SLOT, Reg.RST_CMD_GO, Reg.RST_STATUS_BUSY,
      Reg.RST_STATUS_DONE, Reg.RST_STATUS_RESULT, Reg.RST_STATUS_SCOPE]
  | .mgmt =>
    [Reg.LC_STATUS_STATE, Reg.LC_STATUS_OWNED, Reg.LC_STATUS_TOKEN_ACTIVE, Reg.LC_STATUS_LINK_INJECT,
      Reg.LC_STATUS_TOKEN_LEFT, Reg.LC_SVN_SVN_STEPS_SVC, Reg.LC_SVN_SVN_STEPS_CUL, Reg.LC_SVN_KEY_REVOKED,
      Reg.LC_ID_DEVICE_ID, Reg.CM_BASE_BASE, Reg.CM_HEAD_HEAD, Reg.CM_CTL_ENABLE, Reg.CM_CTL_MISSED, Reg.TORUS_X,
      Reg.TORUS_Y, Reg.TORUS_Z, Reg.TORUS_DEPTH, Reg.TORUS_VALID]
  | .thermalLife =>
    [Reg.TL_TEMP_TEMP, Reg.TL_TEMP_PEAK, Reg.TL_TEMP_RESIDUE, Reg.TL_BIN01_BIN_20_30, Reg.TL_BIN01_BIN_30_40,
      Reg.TL_BIN23_BIN_40_60, Reg.TL_BIN23_BIN_60, Reg.TL_LIFE_LIFE_USED, Reg.TL_LIFE_LIFE_WARN,
      Reg.TL_LIFE_REMAIN_DAYS]
  | .tray =>
    [Reg.TR_COOL_INLET, Reg.TR_COOL_OUTLET, Reg.TR_COOL_FLOW, Reg.TR_FCST_P_FCST, Reg.TR_FCST_OUT_FCST,
      Reg.TR_FCST_THERM_LIMIT_W, Reg.TR_FCST_LIMITING, Reg.TR_CTL_OUT_LIMIT, Reg.TR_CMP_LAST_CUT, Reg.TR_CMP_CUTS,
      Reg.TR_CMP_RESTARTS_1H, Reg.TR_CMP_LOCKOUT, Reg.TR_FP_BUTTON, Reg.TR_FP_PRESENCE_OPEN,
      Reg.TR_FP_PRESENCE_LEFT, Reg.TR_FP_GESTURES]
  | .fnRegs =>
    [Reg.FN_ID_KIND, Reg.FN_ID_VF, Reg.FN_ID_VAT, Reg.FN_ID_QUEUES, Reg.FN_SYS_LEAD, Reg.FN_SYS_MODULES,
      Reg.FN_SYS_EXPECTED, Reg.FN_SYS_FORMED, Reg.FN_EVT_PENDING, Reg.FN_EVT_DROPPED, Reg.FN_EVT_HOST_LOST,
      Reg.CSR_ADDR_ADDR, Reg.CSR_DATA_DATA, Reg.CSR_STAT_BUSY, Reg.CSR_STAT_ERR]
  | .qRegs =>
    [Reg.Q_SQ_BASE_SQ_BASE, Reg.Q_CQ_BASE_CQ_BASE, Reg.Q_CFG_SQ_LOG2, Reg.Q_CFG_CQ_LOG2, Reg.Q_CFG_VAT,
      Reg.Q_CFG_VECTOR, Reg.Q_CFG_ENABLE, Reg.Q_STATUS_SQ_HEAD, Reg.Q_STATUS_CQ_TAIL, Reg.Q_STATUS_ENABLED,
      Reg.Q_STATUS_HALTED, Reg.Q_STATUS_ERR, Reg.Q_STATS_COMPLETED, Reg.Q_STATS_ABORTED]

/-- A number for each block, for the keys of `State.regs`. -/
def blkNum : Blk → Nat
  | .matrixChk => 0
  | .cmdQueue => 1
  | .cmdCounter => 2
  | .scratch => 3
  | .schedInj => 4
  | .dynInj => 5
  | .tileSite => 6
  | .tierMover => 7
  | .t1Stack => 8
  | .t2Pkg => 9
  | .t3Port => 10
  | .tierGrant => 11
  | .sched => 12
  | .dyn => 13
  | .dirtab => 14
  | .rennet => 15
  | .churn => 16
  | .link => 17
  | .express => 18
  | .reach => 19
  | .laser => 20
  | .linkInj => 21
  | .tilePower => 22
  | .ledger => 23
  | .moduleInput => 24
  | .clock => 25
  | .time => 26
  | .fault => 27
  | .faultLog => 28
  | .bringup => 29
  | .mgmt => 30
  | .thermalLife => 31
  | .tray => 32
  | .fnRegs => 33
  | .qRegs => 34

end Sys2Proof.Machine
end

