-- ==== Sys2Proof/Machine/Ops.lean ====
section
/-! DEFINITION. The named operations over registers, memory, site maps and vats that the meanings share. -/

namespace Sys2Proof.Machine

/-! ### Registers -/

/-- The key of a register field: block, instance, offset, lowest bit. -/
def fkey (f : Fld) (inst idx : Nat) : Nat := ((blkNum f.blk * 2 ^ 16 + inst) * 2 ^ 20 + (f.off + f.step * idx)) * 64 + f.lo

/-- Reads a register field. -/
def State.rd (s : State) (f : Fld) (inst : Nat) (idx : Nat := 0) : Nat := mget f.rst s.regs (fkey f inst idx)

/-- Writes a register field, cut to its width. -/
def State.wr (s : State) (f : Fld) (inst v : Nat) (idx : Nat := 0) : State :=
  { s with regs := mset f.rst s.regs (fkey f inst idx) (v % 2 ^ f.w) }

/-- Adds to a counter that saturates. -/
def State.bump (s : State) (f : Fld) (inst : Nat) (n : Nat := 1) (idx : Nat := 0) : State :=
  s.wr f inst (min (s.rd f inst idx + n) (2 ^ f.w - 1)) idx

/-- Adds to a counter that wraps. -/
def State.bumpW (s : State) (f : Fld) (inst : Nat) (n : Nat := 1) (idx : Nat := 0) : State :=
  s.wr f inst (s.rd f inst idx + n) idx

/-- Applies a change to the state for every element of a list, in order. -/
def State.each {α : Type} (s : State) (xs : List α) (f : State → α → State) : State := xs.foldl f s

/-- CK_T cycles in a microsecond (R391: 900 MHz). -/
def us (n : Nat) : Nat := 900 * n

/-! ### Memory -/

/-- Bytes as a memory holds them. -/
def toBytes (ns : List Nat) : List Byte := ns.map fun n => BitVec.ofNat 8 n

/-- Bytes as numbers. -/
def ofBytes (bs : List Byte) : List Nat := bs.map BitVec.toNat

/-- A 64-bit word of a number. -/
def w64 (n : Nat) : Word := BitVec.ofNat 64 n

/-- Bits hi:lo of a number. -/
def bitsOf (n hi lo : Nat) : Nat := n / 2 ^ lo % 2 ^ (hi + 1 - lo)

/-- Bit i of a number. -/
def bitOf (n i : Nat) : Bool := decide (n / 2 ^ i % 2 = 1)

/-- 1 or 0. -/
def b2n (b : Bool) : Nat := if b then 1 else 0

/-- The key of a byte of a core's scratch: core key in bits 37:24 (selector 0x0). -/
def scrKey (core off : Nat) : Nat := core * 2 ^ 24 + off

/-- The key of a T1 byte (selector 0x1). -/
def t1Key (off : Nat) : Nat := 2 ^ 52 + off

/-- The key of a byte of a tile's T2 (selector 0x2). -/
def t2Key (tile off : Nat) : Nat := 2 * 2 ^ 52 + tile * 2 ^ 37 + off

/-- The key of a byte of a T3 port (selector 0x3). -/
def t3Key (port off : Nat) : Nat := 3 * 2 ^ 52 + port * 2 ^ 43 + off

/-- The key of a byte of host memory (selector 0x8). -/
def hostKey (addr : Nat) : Nat := 8 * 2 ^ 52 + addr % 2 ^ 52

/-- Keys beyond the panel address space: control stores of the cores, memory of the tile controllers. -/
def storeKey (core off : Nat) : Nat := 16 * 2 ^ 52 + core * 2 ^ 24 + off
def tctlKey (tile off : Nat) : Nat := 17 * 2 ^ 52 + tile * 2 ^ 32 + off

/-- The byte at a key; what nothing has written reads as 0 (log 3). -/
def State.byte (s : State) (a : Nat) : Byte := mget 0 s.mem a

/-- n bytes from a key on. -/
def State.ldBytes (s : State) (a n : Nat) : List Byte := (List.range n).map fun i => s.byte (a + i)

/-- n bytes as a little-endian number. -/
def State.ld (s : State) (a n : Nat) : Nat := leNat (ofBytes (s.ldBytes a n))

/-- Bytes with their keys, zeros left out. -/
def cellsFrom : Nat → List Byte → List Host.Cell
  | _, [] => []
  | a, b :: r => if b = 0 then cellsFrom (a + 1) r else (a, b) :: cellsFrom (a + 1) r

/-- Stores bytes from a key on. -/
def memPut (m : List Host.Cell) (a : Nat) (bs : List Byte) : List Host.Cell :=
  (m.filter fun e => decide (e.1 < a)) ++ cellsFrom a bs ++ (m.filter fun e => decide (a + bs.length ≤ e.1))

/-- Clears a range. -/
def memZero (m : List Host.Cell) (a n : Nat) : List Host.Cell := m.filter fun e => decide (e.1 < a) || decide (a + n ≤ e.1)

/-- Stores bytes. -/
def State.stBytes (s : State) (a : Nat) (bs : List Byte) : State := { s with mem := memPut s.mem a bs }

/-- Stores the low n bytes of a number. -/
def State.st (s : State) (a n v : Nat) : State := s.stBytes a (toBytes (leBytes n v))

/-- The canonical form of a memory: addresses strictly rising, no entry equal to what an unlisted address reads as. -/
abbrev Memory.wf (m : List Host.Cell) : Prop := mwf (0 : Byte) m = true

/-! ### Free values -/

/-- The next free value and the state that has drawn it (log 5). -/
def State.draw (s : State) : Word × State := (Config.freeValue s.free, { s with free := s.free + 1 })

/-! ### Keys of units -/

/-- The cluster key: tile × 32 + physical site × 4 + cluster. -/
def cluKey (c : Clu) : Nat := c.tile.val * 32 + c.site.val * 4 + c.cl.val

/-- The core key: tile × 256 + site × 32 + cluster × 8 + slot. -/
def coreKey (c : Core) : Nat := c.tile.val * 256 + c.site.val * 32 + c.cl.val * 8 + c.slot.val

def ckTile (ck : Nat) : Nat := ck / 32
def ckSite (ck : Nat) : Nat := ck / 4 % 8
def ckClu (ck : Nat) : Nat := ck % 4

/-- Core of a cluster by slot. -/
def coreOf (ck slot : Nat) : Nat := ck * 8 + slot

/-- The core key's cluster, slot. -/
def cluOfCore (k : Nat) : Nat := k / 8
def slotOf (k : Nat) : Nat := k % 8

/-- Populated scratch bytes by slot (Table 6.1). -/
def scrSize (slot : Nat) : Nat := if slot < 2 then 0xA00000 else if slot < 4 then 0x500000 else 0x200000

/-- First byte of the pail 63 range (Table 6.1). -/
def pail63At (slot : Nat) : Nat := if slot < 2 then 0x900000 else if slot < 4 then 0x4F0000 else 0x1F0000

/-- Table 1.4: bits of a core id. -/
def cidTy (id : Nat) : Nat := id / 2 ^ 11 % 8
def cidTx (id : Nat) : Nat := id / 2 ^ 8 % 8
def cidTile (id : Nat) : Nat := cidTy id * 6 + cidTx id
def cidSite (id : Nat) : Nat := id / 32 % 8
def cidClu (id : Nat) : Nat := id / 8 % 4
def cidSlot (id : Nat) : Nat := id % 8

/-- Coordinates in range (R18), `top` the highest site. -/
def cidOk (id top : Nat) : Bool := decide (cidTx id ≤ 5) && decide (cidTy id ≤ 5) && decide (cidSlot id ≤ 4) && decide (cidSite id ≤ top)

/-- A core id from tile, site, cluster and slot. -/
def mkCid (tile site cl slot : Nat) : Nat := (tile / 6) * 2 ^ 11 + (tile % 6) * 2 ^ 8 + site * 32 + cl * 8 + slot

/-! ### Engines -/

def State.sc (s : State) (ck : Nat) : SCore := mget {} s.cmp.sc ck
def State.setSc (s : State) (ck : Nat) (v : SCore) : State := { s with cmp := { s.cmp with sc := mset {} s.cmp.sc ck v } }
def State.que (s : State) (qk : Nat) : List QEntry := mget [] s.cmp.queues qk
def State.setQue (s : State) (qk : Nat) (v : List QEntry) : State :=
  { s with cmp := { s.cmp with queues := mset [] s.cmp.queues qk v } }
def State.core (s : State) (k : Nat) : CoreRun := mget {} s.cmp.cores k
def State.setCore (s : State) (k : Nat) (v : CoreRun) : State :=
  { s with cmp := { s.cmp with cores := mset {} s.cmp.cores k v } }
def State.mse (s : State) (k : Nat) : List MseOp := mget [] s.cmp.mse k
def State.setMse (s : State) (k : Nat) (v : List MseOp) : State := { s with cmp := { s.cmp with mse := mset [] s.cmp.mse k v } }
def State.fops (s : State) (ck : Nat) : List FOp := mget [] s.cmp.fops ck
def State.setFops (s : State) (ck : Nat) (v : List FOp) : State :=
  { s with cmp := { s.cmp with fops := mset [] s.cmp.fops ck v } }

/-- Integer registers; x0 reads as 0 and writes to it are ignored (R109). -/
def SCore.getX (c : SCore) (r : Nat) : Word := if r = 0 then 0 else mget 0 c.x r
def SCore.setX (c : SCore) (r : Nat) (v : Word) : SCore := if r = 0 then c else { c with x := mset 0 c.x r v }
/-- Floating-point registers. -/
def SCore.getF (c : SCore) (r : Nat) : Word := mget 0 c.f r
def SCore.setF (c : SCore) (r : Nat) (v : Word) : SCore := { c with f := mset 0 c.f r v }

/-! ### The site map (1.4) -/

def lsiteFld (l : Nat) : Fld :=
  [Reg.SITE_MAP_LSITE0, Reg.SITE_MAP_LSITE1, Reg.SITE_MAP_LSITE2, Reg.SITE_MAP_LSITE3, Reg.SITE_MAP_LSITE4,
   Reg.SITE_MAP_LSITE5].getD l Reg.SITE_MAP_LSITE5

/-- The physical site of a logical site; 7 = unmapped. -/
def State.psite (s : State) (t l : Nat) : Nat := if l < 6 then s.rd (lsiteFld l) t else 7

/-- The logical site of a physical site; 7 = none. -/
def State.lsite (s : State) (t p : Nat) : Nat := ((List.range 6).find? fun l => decide (s.psite t l = p)).getD 7

/-- A die's state (Table 1.6). -/
def State.siteSt (s : State) (t p : Nat) : Nat := s.rd Reg.SITE_STATE_SITE_ST t / 16 ^ p % 16
def State.setSiteSt (s : State) (t p v : Nat) : State :=
  let w := s.rd Reg.SITE_STATE_SITE_ST t
  s.wr Reg.SITE_STATE_SITE_ST t (w - (w / 16 ^ p % 16) * 16 ^ p + v * 16 ^ p)

/-- Is a tile's cell on (PW_STATUS CELL = 2)? -/
def State.cellOn (s : State) (t : Nat) : Bool := s.rd Reg.PW_STATUS_CELL t == 2

/-- Is a die powered: its cell is on, and it is ACTIVE, TESTING or MIGRATING (Table 1.6). -/
def State.dieOn (s : State) (t p : Nat) : Bool :=
  s.cellOn t && (s.siteSt t p == 1 || s.siteSt t p == 3 || s.siteSt t p == 4)

/-- Changes one entry of the map and counts the change (R21, Table 1.5). -/
def State.mapSite (s : State) (t l p : Nat) : State := s.wr (lsiteFld l) t p

/-- The logical key (tile × 32 + logical site × 4 + cluster) of a cluster; none where its die has no logical site. -/
def State.logOf (s : State) (ck : Nat) : Option Nat :=
  let l := s.lsite (ckTile ck) (ckSite ck)
  if l = 7 then none else some (ckTile ck * 32 + l * 4 + ckClu ck)

/-- The physical cluster key of a logical key. -/
def State.physOf (s : State) (lk : Nat) : Option Nat :=
  let p := s.psite (ckTile lk) (ckSite lk)
  if p = 7 then none else some (ckTile lk * 32 + p * 4 + ckClu lk)

/-! ### Vats (1.5) -/

def State.vat? (s : State) (id : Nat) : Option Vat := s.vats.find? fun v => v.id == id
def State.setVat (s : State) (v : Vat) : State := { s with vats := s.vats.map fun w => if w.id = v.id then v else w }

/-- Key of a cluster of another module in `Vat.far`. -/
def farKeyOf (m lk : Nat) : Nat := m * 2048 + lk

/-- A vat's id, its parent's, and so on up to the top (R26: at most four levels). -/
def vatChain (vs : List Vat) : Nat → Nat → List Nat
  | 0, _ => []
  | n + 1, id =>
    match vs.find? fun v => v.id == id with
    | none => []
    | some v => id :: (if v.parent = 0 then [] else vatChain vs n v.parent)

def State.chain (s : State) (id : Nat) : List Nat := vatChain s.vats 4 id

/-- The top-level vat above a vat. -/
def State.topOf (s : State) (id : Nat) : Nat := (s.chain id).getLastD id

/-- A vat and all its sub-vats (R27). -/
def State.subtree (s : State) (id : Nat) : List Nat := (s.vats.filter fun v => (s.chain v.id).contains id).map Vat.id

/-- The smallest vat that contains a cluster (by logical key). -/
def State.smallestAt (s : State) (lk : Nat) : Option Vat :=
  (s.vats.filter fun v => v.clus.contains lk).foldl
    (fun b v => match b with
      | none => some v
      | some w => if (s.chain w.id).length < (s.chain v.id).length then some v else some w) none

/-- The smallest vat that contains a physical cluster; none where its die has no logical site or no vat holds it. -/
def State.vatOfClu (s : State) (ck : Nat) : Option Vat := (s.logOf ck).bind s.smallestAt

/-- Its id, 0 where there is none. -/
def State.vatIdOf (s : State) (ck : Nat) : Nat := ((s.vatOfClu ck).map Vat.id).getD 0

/-- How many clusters a tile reserves for vat 0 (R120): one by default, at most four, at least one on tile (0, 0). -/
def State.reservedNo (s : State) (t : Nat) : Nat := min 4 (max (mget 1 s.svc.reserved t) (if t = 0 then 1 else 0))

/-- The clusters reserved for vat 0 (R120), by logical key: of logical site 0, in descending order. -/
def State.reservedOn (s : State) (t : Nat) : List Nat := (List.range (s.reservedNo t)).map fun i => t * 32 + (3 - i)
def State.reservedClus (s : State) : List Nat := (List.range 36).flatMap s.reservedOn

/-- Is a physical cluster reserved for vat 0? -/
def State.reserved (s : State) (ck : Nat) : Bool :=
  match s.logOf ck with
  | some lk => (s.reservedOn (ckTile lk)).contains lk
  | none => false

/-- The vat that LEVEL selects (R141): counted from the smallest vat that holds the cluster, which is vat 0 for a reserved one
(R278). -/
def State.vatAtLevel (s : State) (ck level : Nat) : Option Nat :=
  match s.vatOfClu ck with
  | some v => (s.chain v.id)[level]?
  | none => if level = 0 ∧ s.reserved ck then some 0 else none

/-- Clusters of a vat on this module by logical key, the reserved ones for vat 0; and the physical clusters of a live vat. -/
def State.clusOf (s : State) (id : Nat) : List Nat := if id = 0 then s.reservedClus else ((s.vat? id).map Vat.clus).getD []
def State.vatClus (s : State) (id : Nat) : List Nat := (((s.vat? id).map Vat.clus).getD []).filterMap s.physOf

/-- The vats that have an entry in the ledger: vat 0 with the reserved clusters, and every live vat (R121, R361). -/
def State.ledVats (s : State) : List Vat := { s.pwr.vat0 with clus := s.reservedClus } :: s.vats
def State.led? (s : State) (id : Nat) : Option Vat := if id = 0 then some { s.pwr.vat0 with clus := s.reservedClus } else s.vat? id
def State.setLed (s : State) (v : Vat) : State := if v.id = 0 then { s with pwr := { s.pwr with vat0 := { v with clus := [] } } } else s.setVat v

/-- Whether a vat, or a vat above it, is stopped, paused or held. -/
def State.vatFrozen (s : State) (id : Nat) : Bool :=
  (s.chain id).any fun i => match s.vat? i with
    | some v => v.run != .running
    | none => false

/-! ### Modules -/

/-- The own module number: x + 4y + 16z on a module with a valid torus position since its cold bring-up, else 0
(R473). -/
def State.ownMod (s : State) : Nat := if s.host.inSystem then s.host.modNo else 0

/-- Does a vat span modules? -/
def State.spans (s : State) (id : Nat) : Bool := (s.vat? id).any fun v => v.mods.any (· != s.ownMod)

/-- Names a module of the system (R18, R30): on a module that forms no system only 0 does. -/
def State.isModule (s : State) (m : Nat) : Bool := m == s.ownMod || (s.host.inSystem && s.host.upMods.contains m)

/-! ### Fences -/

/-- Is a core fenced (FT_FENCE, R401). -/
def State.fenced (s : State) (core : Nat) : Bool :=
  bitOf (s.rd Reg.FT_FENCE_FENCED (core / 256) (core / 32 % 8)) (core / 8 % 4 * 5 + slotOf core)

/-- Sets a core's fence bit; a second fence of a fenced core changes nothing (R402). -/
def State.setFence (s : State) (core : Nat) : State :=
  if s.fenced core then s
  else (s.wr Reg.FT_FENCE_FENCED (core / 256)
    (s.rd Reg.FT_FENCE_FENCED (core / 256) (core / 32 % 8) + 2 ^ (core / 8 % 4 * 5 + slotOf core)) (core / 32 % 8)).bump
      Reg.FT_CNT_FENCES (core / 256)

def State.clearFence (s : State) (core : Nat) : State :=
  if s.fenced core then
    s.wr Reg.FT_FENCE_FENCED (core / 256)
      (s.rd Reg.FT_FENCE_FENCED (core / 256) (core / 32 % 8) - 2 ^ (core / 8 % 4 * 5 + slotOf core)) (core / 32 % 8)
  else s

/-! ### Scratch with its check bits (6.3) -/

/-- Word key of a scratch byte key. -/
def State.eccAt (s : State) (wk : Nat) : Nat := mget 0 s.cmp.ecc wk
def State.setEcc (s : State) (wk v : Nat) : State := { s with cmp := { s.cmp with ecc := mset 0 s.cmp.ecc wk v } }

/-- Word keys of a range that hold a mark `v`. -/
def State.marks (s : State) (core off len v : Nat) : List Nat :=
  if len = 0 then []
  else (s.cmp.ecc.filter fun e => decide (scrKey core off / 8 ≤ e.1) && decide (e.1 ≤ scrKey core (off + len - 1) / 8) &&
    e.2 == v).map Prod.fst

/-- Records an uncorrectable event in SCR_ECC and queues it for the tile controller (R154); `word` is the offset ÷ 8. -/
def State.noteUe (s : State) (core word src : Nat) : State :=
  let s := { s with cmp := { s.cmp with ueNew := s.cmp.ueNew ++ [(core * 2 ^ 21 + word, src)] } }
  (((s.bump Reg.SCR_ECC_UNCORRECTED core).wr Reg.SCR_ECC_LAST_UE core word).wr Reg.SCR_ECC_LAST_SRC core src).wr
    Reg.SCR_ECC_UE_NEW core 1

/-- A read of a scratch range by requester `src`: single-bit errors are corrected, counted and queued for write-back
once a word (R153); the first uncorrectable word is recorded and fails the read (R154). -/
def State.readScr (s : State) (core off len src : Nat) : State × Bool :=
  match s.marks core off len 2 with
  | w :: _ => (s.noteUe core (w % 2 ^ 21) src, false)
  | [] =>
    let ones := s.marks core off len 1
    let s := s.bump Reg.SCR_ECC_CORRECTED core ones.length
    ({ s with cmp := { s.cmp with wback := s.cmp.wback ++ ones.filter fun w => !s.cmp.wback.contains w } }, true)

/-- A write of part of a scratch word (R151, R153, R155). -/
def State.writePart (s : State) (core off : Nat) (bs : List Byte) : State :=
  if bs = [] then s
  else
    let wk := scrKey core off / 8
    if s.eccAt wk = 2 then s.noteUe core (wk % 2 ^ 21) 6
    else
      let s := if s.eccAt wk = 1 then (s.bump Reg.SCR_ECC_CORRECTED core).setEcc wk 0 else s
      { s with mem := memPut s.mem (scrKey core off) bs, cmp := { s.cmp with wback := s.cmp.wback.erase wk } }

/-- A write of whole scratch words: fresh check bits, an INJECT of SCR_CTL used up by the first word (Table 6.6). -/
def State.writeFull (s : State) (core off : Nat) (bs : List Byte) : State :=
  if bs = [] then s
  else
    let lo := scrKey core off / 8
    let hi := lo + bs.length / 8
    let ecc := s.cmp.ecc.filter fun e => decide (e.1 < lo) || decide (hi ≤ e.1)
    let inj := s.rd Reg.SCR_CTL_INJECT core
    let s := { s with mem := memPut s.mem (scrKey core off) bs,
                      cmp := { s.cmp with ecc := ecc, wback := s.cmp.wback.filter fun w => decide (w < lo) || decide (hi ≤ w) } }
    if inj = 1 ∨ inj = 2 then (s.setEcc lo inj).wr Reg.SCR_CTL_INJECT core 0 else s

/-- A write to a core's scratch, split at word boundaries. -/
def State.writeScr (s : State) (core off : Nat) (bs : List Byte) : State :=
  let head := if off % 8 = 0 then 0 else min (8 - off % 8) bs.length
  let full := (bs.length - head) / 8 * 8
  ((s.writePart core off (bs.take head)).writeFull core (off + head) ((bs.drop head).take full)).writePart core
    (off + head + full) (bs.drop (head + full))

/-- Zero-fill of a core's whole scratch with valid check bits (R172). -/
def State.zeroScr (s : State) (core : Nat) : State :=
  let lo := scrKey core 0
  let n := scrSize (slotOf core)
  { s with mem := memZero s.mem lo n,
           cmp := { s.cmp with ecc := s.cmp.ecc.filter fun e => decide (e.1 < lo / 8) || decide ((lo + n) / 8 ≤ e.1),
                               wback := s.cmp.wback.filter fun w => decide (w < lo / 8) || decide ((lo + n) / 8 ≤ w) } }

/-! ### Pail handles (6.4) -/

/-- A handle of Table 6.2. -/
structure Pail where
  valid : Bool
  svc : Bool
  ro : Bool
  view : Nat
  fmt : Nat
  base : Nat
  size : Nat
  geom : Nat
  deriving DecidableEq, Repr

/-- Handle n of a core; 0 and 63 are fixed (Table 6.3). `base` and `size` are in bytes. -/
def State.pail (s : State) (core n : Nat) : Pail :=
  if n = 0 then ⟨true, true, false, 0, 0, 0, scrSize (slotOf core), 0⟩
  else if n = 63 then ⟨true, true, false, 0, 0, pail63At (slotOf core), scrSize (slotOf core) - pail63At (slotOf core), 0⟩
  else ⟨s.rd Reg.PAIL_W0_VALID core n == 1, s.rd Reg.PAIL_W0_SVC_ONLY core n == 1, s.rd Reg.PAIL_W0_READ_ONLY core n == 1,
        s.rd Reg.PAIL_W0_VIEW core n, s.rd Reg.PAIL_W0_FMT core n, s.rd Reg.PAIL_W0_BASE_4K core n * 4096,
        (s.rd Reg.PAIL_W0_SIZE_M1 core n + 1) * 4096, s.rd Reg.PAIL_W1_GEOM core n⟩

/-- Frees handles 1 to 62 (R172). -/
def State.freePails (s : State) (core : Nat) : State :=
  s.each ((List.range 62).map (· + 1)) fun s n =>
    ((((((s.wr Reg.PAIL_W0_VALID core 0 n).wr Reg.PAIL_W0_SVC_ONLY core 0 n).wr Reg.PAIL_W0_READ_ONLY core 0 n).wr
      Reg.PAIL_W0_VIEW core 0 n).wr Reg.PAIL_W0_FMT core 0 n).wr Reg.PAIL_W0_BASE_4K core 0 n).wr Reg.PAIL_W0_SIZE_M1 core 0 n
      |>.wr Reg.PAIL_W1_GEOM core 0 n

/-! ### Counters of a cluster (4.8) -/

def State.ctr (s : State) (ck i : Nat) : Nat := s.rd Reg.CTR_VALUE ck i

/-- A signal: CTRi rises by one and wraps (R115). -/
def State.signal (s : State) (ck i : Nat) : State := s.bumpW Reg.CTR_VALUE ck 1 i

/-- (counter − value) mod 2^32 < 2^31 (R114, Table 5.4). -/
def ctrReached (c v : Nat) : Bool := decide ((c + 2 ^ 32 - v % 2 ^ 32) % 2 ^ 32 < 2 ^ 31)

end Sys2Proof.Machine
end

