-- ==== Sys2Proof/Machine/Record.lean ====
section
/-! DEFINITION. Completions and events to the host (16.3), and the fault record (14.9). -/

namespace Sys2Proof.Machine

/-! ### Host queues -/

/-- The instance of a queue's registers. -/
def qInst (fn q : Nat) : Nat := fn * 32 + q

/-- The vat of a queue: PF1's in Q_CFG, a VF's binding, none on PF0 (Table 16.4). -/
def State.queueVat (s : State) (fn q : Nat) : Nat :=
  if fn = 0 then 0 else if fn = 1 then s.rd Reg.Q_CFG_VAT (qInst fn q) else mget 0 s.host.vfVat (fn - 1)

/-- The P36 writes host memory; while the link is down the write is discarded and counted (R461). -/
def State.hostWrite (s : State) (a : Nat) (bs : List Byte) : State :=
  if s.host.up then s.stBytes (hostKey a) bs else s.bump Reg.FN_EVT_HOST_LOST 0

/-- Does a read of n bytes of host memory fail: the link is down, or the host answers one of its lines with an error (R461)? -/
def State.hostBad (s : State) (a n : Nat) : Bool :=
  !s.host.up || (n != 0 && (List.range ((a + n - 1) / 64 - a / 64 + 1)).any fun i => Config.hostPoison (a / 64 + i) s.now)

/-- A completion ring is full when the next slot is the last CQ head doorbell value (R466). -/
def State.cqFull (s : State) (fn q : Nat) : Bool :=
  let i := qInst fn q
  (s.rd Reg.Q_STATUS_CQ_TAIL i + 1) % 2 ^ s.rd Reg.Q_CFG_CQ_LOG2 i == mget 0 s.host.cqHead i

/-- Writes a completion: word 1, then word 0, then the MSI-X message (R468). -/
def State.writeComp (s : State) (c : HComp) : State :=
  let i := qInst c.fn c.q
  let tail := s.rd Reg.Q_STATUS_CQ_TAIL i
  let pass := mget 0 s.host.phase i
  let w0 := c.tag % 2 ^ 32 + s.rd Reg.Q_STATUS_SQ_HEAD i * 2 ^ 32 + c.status * 2 ^ 48 + b2n (pass % 2 = 0) * 2 ^ 63
  let a := s.rd Reg.Q_CQ_BASE_CQ_BASE i * 4096 + 16 * tail
  let s := (s.hostWrite (a + 8) (toBytes (leBytes 8 c.result.toNat))).hostWrite a (toBytes (leBytes 8 w0))
  let next := (tail + 1) % 2 ^ s.rd Reg.Q_CFG_CQ_LOG2 i
  let s := (s.wr Reg.Q_STATUS_CQ_TAIL i next).bumpW Reg.Q_STATS_COMPLETED i
  let s := if c.status = 5 then s.bump Reg.Q_STATS_ABORTED i else s
  { s with host := { s.host with
      phase := if next = 0 then mset 0 s.host.phase i (pass + 1) else s.host.phase
      msix := (c.fn, s.rd Reg.Q_CFG_VECTOR i) :: s.host.msix } }

/-- Posts a completion, or holds it while the ring is full (R466). -/
def State.postComp (s : State) (c : HComp) : State :=
  if s.cqFull c.fn c.q || s.host.held.any (fun h => h.fn == c.fn && h.q == c.q) then
    { s with host := { s.host with held := s.host.held ++ [c] } }
  else s.writeComp c

/-- Status codes of Table 16.7. -/
def stOk : Nat := 0
def stBadOpcode : Nat := 1
def stBadField : Nat := 2
def stNoVat : Nat := 3
def stBusy : Nat := 4
def stAborted : Nat := 5
def stFaultHold : Nat := 6
def stIoError : Nat := 7
def stEnergy : Nat := 8
def stNoResource : Nat := 9
def stLimit : Nat := 10

/-- What the other modules of its vat add to the byte or page count of a command that ends OK (R477, log 82). -/
def State.farCount (s : State) (c : HCmd) (status : Nat) : Nat :=
  if status = stOk ∧ s.spans (s.queueVat c.fn c.q) ∧ [0x23, 0x24, 0x25, 0x27].contains c.opcode then (Config.farPart c.id).toNat else 0

/-- A command ends: it leaves the list and its completion is posted. -/
def State.endCmd (s : State) (c : HCmd) (status result : Nat) : State :=
  let result := result + s.farCount c status
  ({ s with host := { s.host with cmds := s.host.cmds.filter fun d => d.id != c.id } }).postComp
    ⟨c.fn, c.q, c.tag, status, w64 result⟩

/-- Commands of a vat and its sub-vats that have been started. -/
def State.vatCmds (s : State) (ids : List Nat) : List HCmd :=
  s.host.cmds.filter fun c => c.started && c.fn != 0 && ids.contains (s.queueVat c.fn c.q)

/-- What a running command has done so far, as its RESULT gives it (Table 16.8). -/
def State.progress (s : State) (c : HCmd) : Nat :=
  match s.svc.steps.find? fun r => r.cmd == c.id with
  | some r => r.done % 2 ^ 32 + r.incomplete % 2 ^ 16 * 2 ^ 32
  | none => ((s.svc.reqs.find? fun r => r.cmd == c.id).map Req.done).getD 0

/-- Drops what the services keep for a command. -/
def State.dropService (s : State) (id : Nat) : State :=
  { s with svc := { s.svc with steps := s.svc.steps.filter fun r => r.cmd != id
                               reqs := s.svc.reqs.filter fun r => r.cmd != id
                               ckptWait := s.svc.ckptWait.erase id } }

/-- RUN_STEPS, LOAD_DATA, CHECKPOINT, SERVE and COPY of a vat that enters fault-hold end FAULT_HOLD (R483). -/
def State.endHeldCmds (s : State) (ids : List Nat) : State :=
  s.each ((s.vatCmds ids).filter fun c => [0x20, 0x22, 0x23, 0x24, 0x26].contains c.opcode) fun s c =>
    (s.endCmd c stFaultHold (s.progress c)).dropService c.id

/-- Commands of a released vat end ABORTED (R483). -/
def State.abortCmds (s : State) (ids : List Nat) : State :=
  s.each (s.vatCmds ids) fun s c => (s.endCmd c stAborted 0).dropService c.id

/-- An event for the host: to the oldest EVENT_WAIT, else held, up to 64 (R472). -/
def State.event (s : State) (w : Nat) : State :=
  match s.host.cmds.find? fun c => c.started && c.fn == 0 && c.opcode == 7 with
  | some c => s.endCmd c stOk w
  | none =>
    let l := s.host.events ++ [w64 w]
    let s := if 64 < l.length then s.bump Reg.FN_EVT_DROPPED 0 else s
    let l := l.drop (l.length - 64)
    ({ s with host := { s.host with events := l } }).wr Reg.FN_EVT_PENDING 0 l.length

/-! ### The fault record (14.9) -/

/-- What a fault record says beside what every record carries (Table 14.2). -/
structure FRec where
  type : Nat
  tile : Nat := 0
  psite : Nat := 7
  lsite : Nat := 7
  cluster : Nat := 0
  slot : Nat := 7
  vat : Nat := 0
  cause : Nat := 0
  resumable : Bool := false
  injected : Bool := false
  d0 : Nat := 0
  d1 : Nat := 0
  deriving DecidableEq, Repr

/-- The fault events of Table 14.3. -/
def evCoreFenced : Nat := 0x01
def evDieFailed : Nat := 0x02
def evSubstituted : Nat := 0x03
def evSubstFailed : Nat := 0x04
def evNoSpare : Nat := 0x05
def evMigrated : Nat := 0x06
def evTestPass : Nat := 0x07
def evTestFail : Nat := 0x08
def evLinkDegraded : Nat := 0x09
def evLinkInvalid : Nat := 0x0A
def evXferLost : Nat := 0x0B
def evScratchUe : Nat := 0x0C
def evMemPoison : Nat := 0x0D
def evRailShort : Nat := 0x0E
def evVlnkLost : Nat := 0x0F
def evClockFallback : Nat := 0x10
def evLaser : Nat := 0x11
def evReachDown : Nat := 0x12
def evT3Down : Nat := 0x13
def evModuleLost : Nat := 0x14
def evFuseDiscrepancy : Nat := 0x15
def evFuseSuspect : Nat := 0x16
def evInputLoss : Nat := 0x17
def evThermalCut : Nat := 0x18
def evVatKilled : Nat := 0x19
def evTileCtlLost : Nat := 0x1A
def evSensorBad : Nat := 0x1B

/-- Types of the permanent area, and types of the history (Table 14.3). -/
def isPermanent (ty : Nat) : Bool := [0x08, 0x0E, 0x0F, 0x15, 0x16, 0x18, 0x1A].contains ty
def isHistory (ty : Nat) : Bool := !([0x01, 0x06, 0x0B, 0x13, 0x14, 0x19].contains ty)

/-- The eight words of a record. -/
def FRec.words (r : FRec) (now seq gen module : Nat) : List Nat :=
  let w0 := 1 + r.type * 2 ^ 4 + r.tile * 2 ^ 12 + r.psite * 2 ^ 18 + r.lsite * 2 ^ 21 + r.cluster * 2 ^ 24 + r.slot * 2 ^ 26 +
    r.vat * 2 ^ 29 + r.cause * 2 ^ 37 + b2n r.resumable * 2 ^ 45 + b2n (isHistory r.type) * 2 ^ 46 + b2n r.injected * 2 ^ 47 +
    module * 2 ^ 48
  let ws := [w0, now % 2 ^ 64, r.d0 % 2 ^ 64, r.d1 % 2 ^ 64, seq % 2 ^ 32 + gen % 2 ^ 16 * 2 ^ 32, 0, 0]
  ws ++ [crc32c (ws.flatMap (leBytes 8)) + 2 ^ 32]

/-- Enters a record in its area of the field log (R427). -/
def State.logRecord (s : State) (ty : Nat) (ws : List Word) : State :=
  if isPermanent ty then
    if s.flt.perm.length < 2048 then
      let l := ws :: s.flt.perm
      ({ s with flt := { s.flt with perm := l } }).wr Reg.FL_STATUS_PERM_USED 0 l.length
    else s.bump Reg.FL_STATUS_PERM_LOST 0
  else if isHistory ty then
    let l := (ws :: s.flt.hist).take 16384
    ({ s with flt := { s.flt with hist := l } }).wr Reg.FL_STATUS_HIST_USED 0 l.length
  else
    let l := (ws :: s.flt.owner).take 65536
    ({ s with flt := { s.flt with owner := l } }).wr Reg.FL_STATUS_OWNER_USED 0 l.length

/-- A history record spoils the warm fast path's second condition (Table 15.6). -/
def State.stain (s : State) : State :=
  { s with boot := { s.boot with stored := { s.boot.stored with cleanHistory := false } } }

/-- FAULT_RECORD (R397, R426): to the fault ring in T1 where it has room, to the field log, and as an event to the
host (R472). FR_BASE is read as an offset into T1 (log 10). -/
def State.faultRec (s : State) (r : FRec) : State :=
  let seq := (s.rd Reg.FR_STATUS_SEQ 0 + 1) % 2 ^ 32
  let ws := r.words s.now seq (s.rd Reg.SITE_MAP_MAP_GEN r.tile) s.ownMod
  let s := (s.wr Reg.FR_STATUS_SEQ 0 seq).logRecord r.type (ws.map w64)
  let dirty := isHistory r.type && r.type != evTestPass && !r.injected
  let s := if dirty then s.stain else s
  let head := s.rd Reg.FR_HEAD_HEAD 0
  let s := if (head + 2 ^ 32 - s.rd Reg.FR_TAIL_TAIL 0) % 2 ^ 32 = 4096 then s.bump Reg.FR_STATUS_OVERRUN 0
    else (s.stBytes (t1Key (s.rd Reg.FR_BASE_BASE 0 % 2 ^ 52 + head % 4096 * 64)) (toBytes (ws.flatMap (leBytes 8)))).bumpW
      Reg.FR_HEAD_HEAD 0
  s.event (1 + r.type * 2 ^ 8 + s.ownMod * 2 ^ 16 + seq * 2 ^ 32)

end Sys2Proof.Machine
end

