-- ==== Sys2Proof/Machine/Stops.lean ====
section
/-! DEFINITION. How work stops: Spill requests and Abandons (R79, R80, R107, R112, R118), fences (R401, R402), pause,
fault-hold and resumption of a vat (R27, R201, R228, R271, R281, R293, R396). What the manual puts at the next slot,
frame or fold boundary happens in the command that causes it (log 9). -/

namespace Sys2Proof.Machine

/-- REASON of a Spill (Table 3.5); the highest decides (R80). -/
def spillRank : SpillReason → Nat
  | .preempt => 1
  | .servicePause => 2
  | .faultHold => 3

/-- A Spill request reaches a core. -/
def State.reqSpill (s : State) (core : Nat) (r : SpillReason) : State :=
  if slotOf core = 4 then
    let c := s.sc (cluOfCore core)
    if c.up && !c.stopped then s.setSc (cluOfCore core) { c with spillReq := true } else s
  else
    let c := s.core core
    let r' := match c.spillReq with
      | none => r
      | some q => if spillRank q < spillRank r then r else q
    if c.spilled then s else s.setCore core { c with spillReq := some r' }

/-- Rings whose binding names a cluster: (tile × 4 + mover, ring); `ringsOf` those that are enabled. -/
def State.ringsAt (s : State) (ck : Nat) : List (Nat × Nat) :=
  match s.logOf ck with
  | none => []
  | some lk =>
    ((List.range 4).flatMap fun m => (List.range 4).map fun r => (ckTile lk * 4 + m, r)).filter fun e =>
      s.rd Reg.MV_BIND_LSITE e.1 e.2 == ckSite lk && s.rd Reg.MV_BIND_CLUSTER e.1 e.2 == ckClu lk
def State.ringsOf (s : State) (ck : Nat) : List (Nat × Nat) := (s.ringsAt ck).filter fun e => s.rd Reg.MV_BIND_ENABLE e.1 e.2 == 1

/-- The physical cluster of a ring; none where its site has no die that works. -/
def State.ringClu (s : State) (mk r : Nat) : Option Nat :=
  match s.physOf (mk / 4 * 32 + s.rd Reg.MV_BIND_LSITE mk r * 4 + s.rd Reg.MV_BIND_CLUSTER mk r) with
  | some ck => if s.dieOn (ckTile ck) (ckSite ck) && !s.fenced (coreOf ck 4) then some ck else none
  | none => none

/-- Entries of a ring. -/
def State.ringSize (s : State) (mk r : Nat) : Nat := 2 ^ (s.rd Reg.MV_BIND_SIZE_LOG2 mk r + 3)

/-- (doorbell − CONSUMED) mod 2^32. -/
def State.ringLag (s : State) (mk r ck : Nat) : Nat :=
  (s.ctr ck (s.rd Reg.MV_BIND_DB_CTR mk r) + 2 ^ 32 - s.rd Reg.MV_CONSUMED_CONSUMED mk r) % 2 ^ 32

/-- A mover drops the descriptor it runs from a ring (R201). -/
def State.dropRing (s : State) (mk r : Nat) : State :=
  match mget none (s.tier.mv.map fun e => (e.1, some e.2)) mk with
  | some run =>
    if run.ring = r then
      (({ s with tier := { s.tier with mv := merase mk s.tier.mv } }).wr Reg.MV_STATUS_BUSY mk 0).wr Reg.MV_STATUS_REMAINING mk 0
    else s
  | none => s

/-- Sets a cluster's counters to 0 (R118); its rings lose their work and, together with the counters, CONSUMED (R201). -/
def State.zeroCtrs (s : State) (ck : Nat) : State :=
  (s.each (List.range 16) fun s i => s.wr Reg.CTR_VALUE ck 0 i).each (s.ringsAt ck) fun s e =>
    (s.dropRing e.1 e.2).wr Reg.MV_CONSUMED_CONSUMED e.1 0 e.2

/-- The S-core's fabric operations and remote accesses are discarded; replies to them will be counted in KILLED
(R271), and the reorder stages forget its streams. -/
def State.dropFabric (s : State) (ck : Nat) : State :=
  let s := (s.setFops ck []).wr Reg.DI_STATUS_OUTSTANDING ck 0
  let mine (p : Pkt) : Bool := p.from_ == ck && (match p.owner with
    | .fop => true
    | .smem _ => true
    | _ => false)
  { s with fab := { s.fab with net := s.fab.net.map fun p => if mine p then { p with owner := .unit } else p
                               parked := s.fab.parked.map fun q => if mine q.p then { q with p := { q.p with owner := .unit } } else q
                               reorder := s.fab.reorder.filter fun e => !mine e.p
                               expect := mkeep (fun k => k / 2 ^ 36 != ck) s.fab.expect } }

/-- Is injection of a class for a vat held on a tile (R267, R271, Table 12.2)? -/
def State.injHeld (s : State) (tile cls vat : Nat) : Bool :=
  s.pwr.lossAt.isSome || bitOf (s.rd Reg.DYN_CTL_INJ_PAUSE tile) cls || (vat != 0 && s.vatFrozen vat)

/-- The class of an F operation's packets (Table 9.1). -/
def FOp.cls (o : FOp) : Nat := if o.kind = .churn then 2 else if o.priv then 3 else 0

/-- The time that an operation's timer has counted (R252). -/
def State.timerRan (s : State) (ran : Nat) (since : Option Nat) : Nat :=
  match since with
  | some t => ran + (s.now - t)
  | none => ran

/-- The class of a remote S-MEM access (Table 9.1). -/
def RemAcc.cls (a : RemAcc) : Nat := if a.priv then 3 else 0

/-- Timers of F operations and S-MEM accesses count only while their class and their vat may inject (R252). -/
def State.retime (s : State) : State :=
  let since (ck cls vat : Nat) : Option Nat := if s.injHeld (ckTile ck) cls vat then none else some s.now
  { s with cmp := { s.cmp with
      fops := s.cmp.fops.map fun e => (e.1, e.2.map fun o =>
        { o with ran := s.timerRan o.ran o.since, since := since e.1 o.cls o.vat })
      sc := s.cmp.sc.map fun e => (e.1, { e.2 with accs := e.2.accs.map fun a =>
        { a with ran := s.timerRan a.ran a.since, since := since e.1 a.cls (s.vatIdOf e.1) } }) } }

/-- An Abandon of a core: the running instruction, its queue and the cluster's counters, or the S-core's context and
its fabric operations, are discarded (R79, R107, R112, R118, R271). -/
def State.abandon (s : State) (core : Nat) : State :=
  let ck := cluOfCore core
  let slot := slotOf core
  if slot < 4 then
    let m1 := s.core (coreOf ck 1)
    let s := (s.setCore core {}).setQue (ck * 4 + slot) []
    let s := if slot = 0 ∧ m1.twin then s.setCore (coreOf ck 1) { m1 with twin := false, run := none } else s
    s.zeroCtrs ck
  else
    ((s.setSc ck {}).dropFabric ck).zeroCtrs ck

/-- The core a churn sink names, by its physical key (R282). -/
def State.sinkCore (s : State) (t k : Nat) : Option Nat :=
  let id := s.rd Reg.CH_SINK_DST_CORE t k
  let p := s.psite (cidTile id) (cidSite id)
  if p = 7 then none else some (cidTile id * 256 + p * 32 + cidClu id * 8 + cidSlot id)

/-- Sinks of a tile whose core satisfies `p` drop their windows (R293). -/
def State.dropSinks (s : State) (p : Nat → Bool) : State :=
  let hit (w : Window) : Bool := decide (64 ≤ w.point) && (match s.sinkCore w.t (w.point - 64) with
    | some c => p c
    | none => true)
  let lost := s.ren.wins.filter hit
  ({ s with ren := { s.ren with wins := s.ren.wins.filter fun w => !hit w } }).each lost fun s w =>
    s.bump Reg.CH_CNT2_SINK_LOST w.t

/-- Fences a core (R401, R402): it receives an Abandon; a ring of a fenced S-core is unbound; a sink on it drops its
window. -/
def State.fence (s : State) (core : Nat) : State :=
  if s.fenced core then s
  else
    let rings := if slotOf core = 4 then s.ringsOf (cluOfCore core) else []
    let s := s.each rings fun s e =>
      ((s.dropRing e.1 e.2).wr Reg.MV_BIND_ENABLE e.1 0 e.2).bump Reg.MV_DROPS_UNBOUND e.1
    ((s.setFence core).abandon core).dropSinks fun c => c == core

/-- The cores of a cluster. -/
def coresOfClu (ck : Nat) : List Nat := (List.range 5).map (coreOf ck)

/-- Stops or starts the scheduled injectors of a cluster, now. -/
def State.stopInj (s : State) (ck v : Nat) : State := s.each (coresOfClu ck) fun s c => s.wr Reg.INJ_STATUS_STOPPED c v

/-- Stops or starts the injectors of clusters: the dynamic ones at once (R271), the scheduled ones at the next slot boundary or,
where `frame` says so, at the next frame boundary (R228). -/
def State.setInjectors (s : State) (cks : List Nat) (v : Nat) (frame : Bool) : State :=
  let s := s.each cks fun s ck => s.wr Reg.DI_STATUS_STOPPED ck v
  { s with sch := { s.sch with injDue := (s.sch.injDue.filter fun e => !cks.contains e.ck) ++ cks.map fun ck => ⟨ck, v, frame⟩ } }

/-- The scheduled injectors whose boundary has come stop or start (R228). -/
def State.dueInjectors (s : State) (frame : Bool) : State :=
  let go := s.sch.injDue.filter fun e => !e.frame || frame
  ({ s with sch := { s.sch with injDue := s.sch.injDue.filter fun e => e.frame && !frame } }).each go fun s e => s.stopInj e.ck e.v

/-- Movers abandon what they run for vats that stop; CONSUMED stays (R201). -/
def State.stopMovers (s : State) (ids : List Nat) : State :=
  s.each (s.tier.mv.filter fun e => ids.contains (s.rd Reg.MV_BIND_VAT e.1 e.2.ring)) fun s e =>
    (s.dropRing e.1 e.2.ring).bump Reg.MV_DROPS_ABANDONED e.1

/-- The clusters of a vat that take part in its reductions: a tile without VLNK drops out (R277). -/
def State.members (s : State) (id : Nat) : List Nat :=
  (s.clusOf id).filter fun lk => s.rd Reg.PW_STATUS_VLNK_GOOD (ckTile lk) == 1

/-- Flag contributions of a vat's clusters. -/
def State.contribs (s : State) (id : Nat) : List Word := (s.members id).map fun lk => mget 0 s.ren.flags (id * 65536 + lk)

/-- Key of what the resident services add to a top-level vat's flags (R478, log 36). -/
def svcFlagKey (id : Nat) : Nat := id * 65536 + 65535
def State.svcFlags (s : State) (id : Nat) : Word := mget 0 s.ren.flags (svcFlagKey id)

/-- The OR and AND reductions of a vat's flags, frozen in fault-hold (R279, R281); those of a vat that spans modules take in what
the other modules contribute (log 25). -/
def State.orFlags (s : State) (id : Nat) : Word :=
  match (s.vat? id).bind Vat.frozen with
  | some f => f.1
  | none => (s.contribs id).foldl (· ||| ·) (s.svcFlags id ||| (if s.spans id then Config.farOr id s.now else 0))

def State.andFlags (s : State) (id : Nat) : Word :=
  match (s.vat? id).bind Vat.frozen with
  | some f => f.2
  | none =>
    let far := if s.spans id then Config.farAnd id s.now else BitVec.allOnes 64
    if s.contribs id = [] ∧ !s.spans id then 0 else (s.contribs id).foldl (· &&& ·) far

/-- Clears the flags and barrier arrivals of vats (R281). -/
def State.clearFlags (s : State) (ids : List Nat) : State :=
  let out (k : Nat) : Bool := !ids.contains (k / 65536)
  { s with ren := { s.ren with flags := mkeep out s.ren.flags, arrive := mkeep out s.ren.arrive,
                               stepArr := mkeep out s.ren.stepArr } }

/-- Stops every core of vats with a Spill; a core on a die that is off, or a fenced core, receives an Abandon. -/
def State.spillVat (s : State) (ids : List Nat) (r : SpillReason) : State × Bool :=
  let cores := ((ids.flatMap s.vatClus).dedup).flatMap coresOfClu
  let dead (c : Nat) : Bool := s.fenced c || !s.dieOn (c / 256) (c / 32 % 8)
  (s.each cores fun s c => if dead c then s.abandon c else s.reqSpill c r, cores.any dead)

/-- FAULT_HOLD of a vat and its sub-vats (R27, R396); `ab` says that some core has been abandoned already. -/
def State.faultHold (s : State) (id : Nat) (ab : Bool) : State :=
  if s.vat? id = none then s
  else
    let ids := s.subtree id
    let (s, dead) := s.spillVat ids .faultHold
    let s := s.each ids fun s i => match s.vat? i with
      | some v => s.setVat { v with run := .held, resumable := v.resumable && !ab && !dead,
                                    frozen := some (s.orFlags i, s.andFlags i) }
      | none => s
    let cks := (ids.flatMap s.vatClus).dedup
    let s := ((s.setInjectors cks 1 false).stopMovers ids).dropSinks fun c => cks.contains (cluOfCore c)
    (s.endHeldCmds ids).retime

/-- Fault-hold of the smallest vat that holds a cluster; answers the vat, 0 where there is none. -/
def State.holdAt (s : State) (ck : Nat) (ab : Bool) : State × Nat :=
  match s.vatOfClu ck with
  | some v => (s.faultHold v.id ab, v.id)
  | none => (s, 0)

/-- RESUMABLE of a vat's hold (R397). -/
def State.resumableOf (s : State) (id : Nat) : Bool := ((s.vat? id).map Vat.resumable).getD false

/-- Pauses a running vat and its sub-vats: Spill with a reason, injectors and movers stopped (R228, R201). -/
def State.pauseVat (s : State) (id : Nat) (r : SpillReason) (svc : Bool) : State :=
  let ids := s.subtree id
  let (s, _) := s.spillVat ids r
  let s := s.each ids fun s i => match s.vat? i with
    | some v => if v.run = .running then s.setVat { v with run := .paused, svcPaused := svc } else s
    | none => s
  ((s.setInjectors ((ids.flatMap s.vatClus).dedup) 1 true).stopMovers ids).retime

/-- A vat and its sub-vats run again (R118, R228, R271): injectors restart; an engine without interrupted work is free
again; S-cores and interrupted instructions come back by S_CORE_RESUME and SPILL_RESUME. -/
def State.resumeVat (s : State) (id : Nat) : State :=
  let ids := s.subtree id
  let s := s.each ids fun s i => match s.vat? i with
    | some v => s.setVat { v with run := .running, resumable := true, frozen := none, svcPaused := false }
    | none => s
  let cks := (ids.flatMap s.vatClus).dedup
  let s := (s.setInjectors cks 0 true).retime
  s.each cks fun s ck =>
    let c := s.sc ck
    let s := s.setSc ck { c with spillReq := false }
    s.each (List.range 4) fun s q =>
      let r := s.core (coreOf ck q)
      s.setCore (coreOf ck q) { r with spillReq := none, spilled := false }

end Sys2Proof.Machine
end

