-- ==== Sys2Proof/Machine/Except.lean ====
section
/-! DEFINITION. Exceptions of the S-core (5.7): taking one (R143 to R145), the pending ones (R146) and the checks every
scalar instruction starts with (R123, R130, R166). -/

namespace Sys2Proof.Machine

/-- Cause codes of Table 5.15. -/
def cIllegal : Nat := 0x01
def cPriv : Nat := 0x02
def cAlign : Nat := 0x03
def cBounds : Nat := 0x04
def cAlias : Nat := 0x05
def cFormat : Nat := 0x06
def cSpan : Nat := 0x07
def cArray : Nat := 0x08
def cEcc : Nat := 0x09
def cFenced : Nat := 0x0A
def cEpoch : Nat := 0x0B
def cPath : Nat := 0x0C
def cEnergy : Nat := 0x0D
def cSlot : Nat := 0x0E
def cPoison : Nat := 0x10
def cTimeout : Nat := 0x11
def cSvc : Nat := 0x12
def cDouble : Nat := 0x13

/-- Causes that Table 5.15 delivers to the service handler only. -/
def svcCause (c : Nat) : Bool := c == cArray || c == cSlot || c == cSvc || c == cDouble

/-- The info word of Table 5.17. -/
def infoWord (src sigCtr tag : Nat) (priv : Bool) (orig : Nat) : Word :=
  w64 (src + sigCtr * 2 ^ 8 + tag % 2 ^ 32 * 2 ^ 16 + b2n priv * 2 ^ 48 + orig * 2 ^ 56)

/-- XSTAT (Table 5.16). -/
def SCore.xstat (c : SCore) : Word :=
  w64 (b2n c.priv + b2n c.inVH * 2 + b2n c.inSH * 4 + b2n c.prevPriv * 8 + c.qdlv.toNat * 16)

/-- An exception in the service handler stops the S-core; the tile controller fences it and holds its vat (R143). -/
def State.stopInService (s : State) (ck cause : Nat) : State :=
  let core := coreOf ck 4
  let vat := s.vatIdOf ck
  let s := s.fence core
  let s := s.setSc ck { s.sc ck with stopped := true }
  let s := (s.holdAt ck true).1
  s.faultRec { type := evCoreFenced, tile := ckTile ck, psite := ckSite ck, lsite := s.lsite (ckTile ck) (ckSite ck),
               cluster := ckClu ck, slot := 4, vat := vat, cause := cause }

/-- Taking an exception (R143, R144): the handler is chosen, its EPC, CAUSE, INFO and ADDR are written, IN_VH is set, or
IN_SH with the privilege saved and raised, and the S-core continues at the handler's entry. A queue source sets its
QDLV bit. -/
def State.takeExc (s : State) (ck cause src sigCtr tag : Nat) (priv : Bool) (addr : Word) : State :=
  let c := s.sc ck
  if c.inSH then s.stopInService ck cause
  else
    let c := { c with wait := none, deadline := none,
                      qdlv := if src < 4 then c.qdlv ||| (1 <<< src) else c.qdlv }
    if !svcCause cause && !c.inVH && !priv && c.vtvec != 0 then
      s.setSc ck { c with vepc := c.pc, vecause := w64 cause, veinfo := infoWord src sigCtr tag priv 0, veaddr := addr,
                          inVH := true, pc := c.vtvec }
    else
      let dbl := !svcCause cause && c.inVH
      s.setSc ck { c with sepc := c.pc, secause := w64 (if dbl then cDouble else cause),
                          seinfo := infoWord src sigCtr tag priv (if dbl then cause else 0), seaddr := addr,
                          inSH := true, prevPriv := c.priv, priv := true, pc := c.stvec }

/-- An exception of source 4 at the current instruction. -/
def State.trap (s : State) (ck cause : Nat) (addr : Word) : State := s.takeExc ck cause 4 0 0 (s.sc ck).priv addr

/-- An exception of source 4 that has no data address and is no fetch fault: the manual states no address (R145), the
register takes a free value (log 12). -/
def State.trapNoAddr (s : State) (ck cause : Nat) : State :=
  let (v, s) := s.draw
  s.trap ck cause v

/-- Makes an exception pending. -/
def State.pend (s : State) (ck : Nat) (e : Exc) : State :=
  let c := s.sc ck
  if c.up then s.setSc ck { c with excs := c.excs ++ [e] } else s

/-- The place of a pending exception in the order of R146. -/
def excRank (e : Exc) : Nat := (if e.src = 4 then 0 else if e.src < 4 then 1 + e.src else if e.src = 5 then 10 else 11) * 2 ^ 32 + e.ord

/-- The pending exception that is delivered first; a queue's waits while a handler runs (R117). One of a fabric operation, an engine or a
store's NACK does not wait: it is delivered inside the handler (log 81). -/
def SCore.nextExc (c : SCore) : Option Exc :=
  (c.excs.filter fun e => !(decide (e.src < 4) && (c.inVH || c.inSH))).foldl
    (fun b e => match b with
      | none => some e
      | some f => if excRank e < excRank f then some e else b) none

/-- Can the S-core execute an instruction now? It has started, is not held, spilled, stopped or waiting, its die is
powered and it is not fenced. -/
def State.sReady (s : State) (ck : Nat) : Bool :=
  let c := s.sc ck
  c.up && !c.held && !c.spilled && !c.stopped && c.wait.isNone && s.dieOn (ckTile ck) (ckSite ck) && !s.fenced (coreOf ck 4)

/-- A scalar instruction: the fetch checks (R123, R166), ILLEGAL, then its body. An S-core that cannot execute leaves
the command without effect (log 1). -/
def State.scalar (s : State) (ck : Nat) (legal : Bool) (body : SCore → State → State) : State :=
  if !s.sReady ck then s
  else
    let c := s.sc ck
    if 0x200000 ≤ c.pc.toNat ∨ (c.priv = false ∧ pail63At 4 ≤ c.pc.toNat) then s.trap ck cBounds c.pc
    else
      let (s, ok) := s.readScr (coreOf ck 4) c.pc.toNat 8 2
      if !ok then s.trap ck cEcc c.pc
      else if !legal then s.trapNoAddr ck cIllegal
      else body c s

/-- The program counter moves past the instruction. -/
def SCore.advance (c : SCore) : SCore := { c with pc := c.pc + 8, fullStall := false }

/-- Writes the S-core and moves on. -/
def State.retire (s : State) (ck : Nat) (c : SCore) : State := s.setSc ck c.advance

end Sys2Proof.Machine
end

