-- ==== Sys2Proof/Machine/Desc.lean ====
section
/-! DEFINITION. Descriptors, pail views and completion records of M-class and V-class commands (R131 to R135, R157 to
R165). -/

namespace Sys2Proof.Machine

/-! ### Views (6.5) -/

/-- Bytes of an element of a whole-byte format. -/
def elemBytes (fmt : Nat) : Nat := elemBits fmt / 8

/-- Bytes of a row of n elements (R42). -/
def rowBytes (fmt n : Nat) : Nat := (elemBits fmt * n + 7) / 8

/-- Word 1 of a handle. -/
def Pail.dim0 (p : Pail) : Nat := bitsOf p.geom 19 0 + 1
def Pail.dim1 (p : Pail) : Nat := bitsOf p.geom 39 20 + 1
def Pail.pitch (p : Pail) : Nat := bitsOf p.geom 63 40
def Pail.br (p : Pail) : Nat := 2 ^ bitsOf p.geom 43 40
def Pail.bc (p : Pail) : Nat := 2 ^ bitsOf p.geom 47 44

/-- The logical size of a view (R161). -/
def Pail.logical (p : Pail) : Nat := if p.view = 0 then p.size else p.dim0 * p.dim1 * elemBytes p.fmt

/-- The stored extent of a view (R161). -/
def Pail.stored (p : Pail) : Nat :=
  if p.view = 0 then 0
  else if p.view = 1 then (p.dim0 - 1) * p.pitch + p.dim1 * elemBytes p.fmt
  else p.dim0 * p.dim1 * elemBytes p.fmt

/-- The scratch offset of a logical byte (R161). -/
def Pail.at (p : Pail) (l : Nat) : Nat :=
  let e := elemBytes p.fmt
  if p.view = 0 then p.base + l
  else if p.view = 1 then
    let r := l / (p.dim0 * e)
    let c := l % (p.dim0 * e) / e
    p.base + c * p.pitch + r * e + l % e
  else
    let r := l / (p.dim1 * e)
    let c := l % (p.dim1 * e) / e
    let t := r / p.br * (p.dim1 / p.bc) + c / p.bc
    p.base + t * p.br * p.bc * e + (r % p.br * p.bc + c % p.bc) * e + l % e

/-- An operand as the rows of bytes it addresses: logical offsets of the rows, bytes in each. -/
structure Opnd where
  pail : Nat
  rows : List Nat
  len : Nat
  write : Bool
  deriving DecidableEq, Repr

/-- n rows at a stride. -/
def rowsAt (off stride n : Nat) : List Nat := (List.range n).map fun i => off + i * stride

/-- Least and greatest of a list. -/
def minOf : List Nat → Nat
  | [] => 0
  | x :: r => r.foldl min x
def maxOf (l : List Nat) : Nat := l.foldl max 0

/-- One past the highest logical byte. -/
def Opnd.top (o : Opnd) : Nat := if o.rows = [] then 0 else maxOf o.rows + o.len

/-- The footprint: lowest scratch offset and one past the highest (R77); empty where nothing is touched. -/
def Opnd.span (o : Opnd) (p : Pail) : Nat × Nat :=
  if o.rows = [] ∨ o.len = 0 then (0, 0)
  else if p.view = 0 then (p.base + minOf o.rows, p.base + o.top)
  else
    let bs := o.rows.flatMap fun r => (List.range o.len).map fun i => p.at (r + i)
    (minOf bs, maxOf bs + 1)

/-- Do two footprints overlap? -/
def overlap (x y : Nat × Nat) : Bool := decide (x.1 < y.2) && decide (y.1 < x.2) && decide (x.1 < x.2) && decide (y.1 < y.2)

/-- Pieces of a byte string that starts at logical byte l, cut at element boundaries. -/
def viewPieces (e : Nat) : Nat → Nat → List Byte → List (Nat × List Byte)
  | 0, _, _ => []
  | n + 1, l, bs =>
    if bs = [] then []
    else
      let k := e - l % e
      (l, bs.take k) :: viewPieces e n (l + k) (bs.drop k)

/-- Writes bytes through a view. -/
def State.writeView (s : State) (core : Nat) (p : Pail) (l : Nat) (bs : List Byte) : State :=
  if p.view = 0 then s.writeScr core (p.base + l) bs
  else s.each (viewPieces (elemBytes p.fmt) bs.length l bs) fun s x => s.writeScr core (p.at x.1) x.2

/-- The bytes of a logical range, without their check bits. -/
def State.peekView (s : State) (core : Nat) (p : Pail) (l n : Nat) : List Nat :=
  (List.range n).map fun i => (s.byte (scrKey core (p.at (l + i)))).toNat

/-- A read of a logical range with its check bits. -/
def State.readView (s : State) (core : Nat) (p : Pail) (l n : Nat) : State × Bool :=
  if p.view = 0 then s.readScr core (p.base + l) n 1
  else
    (((List.range n).map fun i => p.at (l + i) / 8).dedup).foldl
      (fun r w => if r.2 then r.1.readScr core (w * 8) 8 1 else r) (s, true)

/-- The core has a word with an error mark. -/
def State.hasMarks (s : State) (core : Nat) : Bool := s.cmp.ecc.any fun e => decide (e.1 / 2 ^ 21 = core)

/-- Reads every row of an operand with its check bits. -/
def State.readRows (s : State) (core : Nat) (p : Pail) (rows : List Nat) (len : Nat) : State × Bool :=
  if !s.hasMarks core then (s, true)
  else rows.foldl (fun r l => if r.2 then r.1.readView core p l len else r) (s, true)

/-! ### Descriptors -/

/-- A tensor word of Table 5.7 or an operand word of Table 5.8. -/
structure TRef where
  pail : Nat
  off : Nat
  stride : Nat
  fmt : Nat
  deriving DecidableEq, Repr

def tref (w : Nat) : TRef := ⟨w % 64, bitsOf w 29 6, bitsOf w 53 30, bitsOf w 58 54⟩

/-- Bits of a descriptor word. -/
def dbits (d : List Nat) (i hi lo : Nat) : Nat := bitsOf (d.getD i 0) hi lo

/-- May a pail be used at this privilege (R165)? -/
def Pail.usable (p : Pail) (priv write : Bool) : Bool := p.valid && (priv || !p.svc) && !(write && p.ro)

/-- Is the entry an M.MMA of version 1, by its first word (Table 5.18)? -/
def isV1 (e : QEntry) (w0 : Nat) : Bool := e.isM && e.op == 1 && w0 % 16 == 1

/-- The descriptor's words as Tables 5.7 and 5.8 lay them out; a version-1 descriptor holds its record's location in
word 7, which is word 14 of version 2 (Table 5.18). -/
def descNorm (e : QEntry) (ws : List Nat) : List Nat :=
  if isV1 e (ws.getD 0 0) then ws.take 7 ++ [0, 0, 0, 0, 0, 0, 0, ws.getD 7 0, 0] else ws

/-- Bytes of a descriptor. -/
def descLen (e : QEntry) (w0 : Nat) : Nat := if isV1 e w0 then 64 else 128

/-- The bytes that DESC_CRC covers: the descriptor, a version-1 one followed by 64 zero bytes (Table 5.18). -/
def State.descRaw (s : State) (core : Nat) (e : QEntry) : List Nat :=
  let a := scrKey core ((s.pail core e.pail).base + e.off)
  let n := descLen e (s.ld a 8)
  ofBytes (s.ldBytes a n) ++ List.replicate (128 - n) 0

/-- The descriptor's words. -/
def State.descWords (s : State) (core : Nat) (e : QEntry) : List Nat :=
  let a := scrKey core ((s.pail core e.pail).base + e.off)
  descNorm e ((List.range 16).map fun i => s.ld (a + 8 * i) 8)

/-- Reading a descriptor at dispatch: its pail (check 1 of R76 and R96), its range, its check bits. -/
def State.readDesc (s : State) (core : Nat) (e : QEntry) : State × Nat :=
  let p := s.pail core e.pail
  let n := descLen e (s.ld (scrKey core (p.base + e.off)) 8)
  if !p.usable e.priv false || decide (p.size < e.off + n) then (s, cBounds)
  else
    let (s, ok) := s.readScr core (p.base + e.off) n 1
    (s, if ok then 0 else cEcc)

/-- Can the descriptor be read, without an effect on the check bits? -/
def State.descOk (s : State) (core : Nat) (e : QEntry) : Bool :=
  let p := s.pail core e.pail
  let n := descLen e (s.ld (scrKey core (p.base + e.off)) 8)
  p.usable e.priv false && decide (e.off + n ≤ p.size) && (s.marks core (p.base + e.off) n 2).isEmpty

/-- STATUS_EN of Tables 5.7 and 5.8, and the location word. -/
def statusEn (e : QEntry) (d : List Nat) : Bool := if e.isM then dbits d 0 34 34 == 1 else dbits d 0 8 8 == 1
def statusWord (e : QEntry) (d : List Nat) : Nat := if e.isM then d.getD 14 0 else d.getD 13 0

/-- The record's location when it is valid by itself (R135), as a scratch offset. -/
def State.recAt (s : State) (core : Nat) (e : QEntry) : Option Nat :=
  if s.descOk core e then
    let d := s.descWords core e
    let r := tref (statusWord e d)
    let p := s.pail core r.pail
    if statusEn e d && p.usable e.priv true && p.view == 0 && decide (r.off % 16 = 0) && decide (r.off + 16 ≤ p.size) then
      some (p.base + r.off)
    else none
  else none

/-- The completion record (Table 5.10). -/
def QEntry.record (e : QEntry) (cause now : Nat) : List Nat :=
  leBytes 8 (e.tag % 2 ^ 32 + e.arith % 256 * 2 ^ 32 + cause * 2 ^ 40 + b2n e.oob * 2 ^ 48 + b2n e.resumed * 2 ^ 49 +
    b2n e.restarted * 2 ^ 50 + 2 ^ 63) ++ leBytes 8 (now % 2 ^ 64)

/-- Writes the completion record, word 1 before word 0 (R135). -/
def State.writeRec (s : State) (core : Nat) (e : QEntry) (cause : Nat) : State :=
  match (if e.op = 1 ∧ e.isM = false ∨ e.isM ∧ e.op ≠ 1 ∨ e.noRec then none else s.recAt core e) with
  | none => s
  | some a =>
    let bs := toBytes (e.record cause s.now)
    (s.writeScr core (a + 8) (bs.drop 8)).writeScr core a (bs.take 8)

end Sys2Proof.Machine
end

