-- ==== Sys2Proof/Machine/Operands.lean ====
section
/-! DEFINITION. Address operands: panel and system addresses (1.6, R28 to R31), windows granted to vats (R189, R207),
core ids (R18) and the pail addresses of fabric operations (R139). -/

namespace Sys2Proof.Machine

/-- What a panel address names (Table 1.7). A scratch address keeps the core id as issued: logical at vat privilege,
physical at service privilege (R17). -/
inductive Tgt where
  | scr (id off : Nat)
  | t1 (off : Nat)
  | t2 (tile off : Nat)
  | t3 (port off : Nat)
  | host (addr : Nat)
  | csr (addr : Nat)
  | boot (off : Nat)
  deriving DecidableEq, Repr

/-- Installed bytes of T1 and of a tile's T2 (R179, R182). -/
def t1Cap : Nat := 1536000000000
def t2Cap : Nat := 128000000000

/-- Mapped bytes of a T3 port (R186, R207); the whole window in NVME mode, where the device's BARs lie (R187, log 13). -/
def State.t3Mapped (s : State) (port : Nat) : Nat :=
  if s.tier.t3nvme.contains port then 2 ^ 43 else mget 0 s.tier.t3map port * 2 ^ 28

/-- The host tile of a T3 port (R184). -/
def t3Tile (port : Nat) : Nat := if port < 4 then 31 + port else port - 3

/-- The T3 port a tile hosts. -/
def t3Port (t : Nat) : Option Nat := (List.range 8).find? fun p => t3Tile p == t

/-- Splits a panel address; none where the selector is reserved, a must-be-0 bit is set or a tile index exceeds 35
(R29 to R31). -/
def decodePa (a : Nat) : Option Tgt :=
  let sel := bitsOf a 55 52
  let lo := a % 2 ^ 52
  if sel = 0 then (if bitsOf a 51 38 = 0 then some (.scr (bitsOf a 37 24) (a % 2 ^ 24)) else none)
  else if sel = 1 then some (.t1 lo)
  else if sel = 2 then
    (if bitsOf a 51 43 = 0 ∧ bitsOf a 42 37 < 36 then some (.t2 (bitsOf a 42 37) (a % 2 ^ 37)) else none)
  else if sel = 3 then (if bitsOf a 51 46 = 0 then some (.t3 (bitsOf a 45 43) (a % 2 ^ 43)) else none)
  else if sel = 8 then some (.host lo)
  else if sel = 0xE then
    (if bitsOf a 51 38 = 0 ∧ bitOf a 31 = false ∧ bitsOf a 37 32 < 36 then some (.csr (a % 2 ^ 56)) else none)
  else if sel = 0xF then some (.boot lo) else none

/-- Does a range lie in a valid window of a vat (R189, R207)? `lo` is the first byte's PA below the selector. -/
def State.inWindow (s : State) (vat sel lo len : Nat) (write : Bool) : Bool :=
  (List.range 16).any fun w =>
    let i := vat * 16 + w
    let base := s.rd Reg.GRANT_BASE_2M 0 i * 2 ^ 21
    let size := (s.rd Reg.GRANT_PAGES_M1 0 i + 1) * 2 ^ 21
    let fits := if sel = 1 then decide (base + size ≤ t1Cap)
      else if sel = 2 then decide (base % 2 ^ 37 + size ≤ t2Cap) && decide (base / 2 ^ 37 < 36)
      else decide (base % 2 ^ 43 + size ≤ mget 0 s.tier.t3map (base / 2 ^ 43) * 2 ^ 28)
    s.rd Reg.GRANT_VALID 0 i == 1 && s.rd Reg.GRANT_TIER 0 i == sel && fits && (!write || s.rd Reg.GRANT_WRITE 0 i == 1) &&
      decide (base ≤ lo) && decide (lo + len ≤ base + size)

/-- Host functions through which a vat reaches host memory (R461). -/
def State.vatHosted (s : State) (vat : Nat) : Bool :=
  (List.range 63).any (fun v => mget 0 s.host.vfVat (v + 1) == vat && vat != 0) ||
    ((List.range 16).any fun q => s.rd Reg.Q_CFG_VAT (qInst 1 q) == vat && vat != 0 && s.rd Reg.Q_STATUS_ENABLED (qInst 1 q) == 1)

/-- Is a core of the top-level vat of `vat` (R28)? Clusters reserved for vat 0 are in no other vat. -/
def State.inTop (s : State) (vat m tile site cl : Nat) : Bool :=
  match s.vat? (s.topOf vat) with
  | none => false
  | some v => v.id != 0 && (if m = s.ownMod then v.clus.contains (tile * 32 + site * 4 + cl) else v.far.contains (farKeyOf m (tile * 32 + site * 4 + cl)))

/-- A core id as an operand (R18, R28): in range at this privilege, and at vat privilege in the own top-level vat. -/
def State.coreOk (s : State) (vat : Nat) (svc : Bool) (m id : Nat) : Bool :=
  s.isModule m && cidOk id (if svc then 6 else 5) && (svc || s.inTop vat m (cidTile id) (cidSite id) (cidClu id))

/-- May an access of `len` bytes be made (R28, R30, R31, R165, R189, R461)? -/
def State.tgtOk (s : State) (vat : Nat) (svc : Bool) (m : Nat) (t : Tgt) (len : Nat) (write : Bool) : Bool :=
  match t with
  | .scr id off => s.coreOk vat svc m id && decide (off + len ≤ scrSize (cidSlot id)) &&
      (svc || decide (off + len ≤ pail63At (cidSlot id)))
  | .t1 off => decide (off + len ≤ t1Cap) && (svc || s.inWindow (s.topOf vat) 1 off len write)
  | .t2 tile off => decide (off + len ≤ t2Cap) && (svc || s.inWindow (s.topOf vat) 2 (tile * 2 ^ 37 + off) len write)
  | .t3 port off => decide (off + len ≤ if m = s.ownMod then s.t3Mapped port else Config.farMapped m port s.now) &&
      (svc || s.inWindow (s.topOf vat) 3 (port * 2 ^ 43 + off) len write)
  | .host _ => svc || s.vatHosted (s.topOf vat)
  | .csr a => svc && len == 8 && decide (a % 8 = 0)
  | .boot _ => svc

/-- A system address, or a PA where bits 63:56 are 0 (R29, R128): the module and what it names, or none for BOUNDS. -/
def State.resolve (s : State) (vat : Nat) (svc : Bool) (a len : Nat) (write : Bool) : Option (Nat × Tgt) :=
  if bitsOf a 63 62 ≠ 0 then none
  else
    let m := if bitsOf a 61 56 = 0 then s.ownMod else bitsOf a 61 56
    match decodePa (a % 2 ^ 56) with
    | none => none
    | some t => if s.isModule m && s.tgtOk vat svc m t len write then some (m, t) else none

/-- The physical core a core id names on this module; none where its logical site is unmapped (R17, R20). -/
def State.physCore (s : State) (svc : Bool) (id : Nat) : Option Nat :=
  let p := if svc then cidSite id else s.psite (cidTile id) (cidSite id)
  if p = 7 then none else some (cidTile id * 256 + p * 32 + cidClu id * 8 + cidSlot id)

/-- Does anything addressed to a core meet a fence (R20, R21, R402): its die is off, it is fenced, the vat that holds
it is in fault-hold, or its die is under test in place. -/
def State.coreBarred (s : State) (core : Nat) : Bool :=
  s.fenced core || !s.dieOn (core / 256) (core / 32 % 8) ||
    (s.flt.migrs.any fun m => m.tile == core / 256 && m.old == core / 32 % 8 && m.ph == 2) ||
    (match s.vatOfClu (cluOfCore core) with
     | some v => v.run == .held
     | none => false)

/-- An address of R139: offset, pail, system core id. -/
structure PailAddr where
  off : Nat
  pail : Nat
  id : Nat
  mod : Nat
  high : Nat
  deriving DecidableEq, Repr

/-- Splits a word of the layout of R139. -/
def pailAddr (w : Nat) : PailAddr := ⟨w % 2 ^ 24, bitsOf w 29 24, bitsOf w 43 30, bitsOf w 49 44, bitsOf w 63 50⟩

end Sys2Proof.Machine
end

