-- ==== Sys2Proof/Machine/TierMem.lean ====
section
/-! DEFINITION. Accesses to the memory tiers and to host memory at their controllers (7.2 to 7.4, R461): poison,
corrected lines, lost stacks and packages, links that are down. -/

namespace Sys2Proof.Machine

/-- Table 1.2: the host tile of a stack. -/
def stackTile (n : Nat) : Nat :=
  if n < 6 then n else if n < 12 then (n - 6) * 6 + 5 else if n < 18 then 30 + (17 - n) else (23 - n) * 6

/-- The controller of a tier line by the line's byte key ÷ 64: a T1 stack (0 to 23), or 100 + T2 package (tile × 2 +
package) (R179, R182). -/
def lineUnit (lk : Nat) : Nat :=
  let a := lk * 64
  if a < 2 * 2 ^ 52 then (a - 2 ^ 52) / 4096 % 24
  else
    let o := a - 2 * 2 ^ 52
    100 + o / 2 ^ 37 * 2 + o % 2 ^ 37 / 256 % 2

/-- The line's index within its unit (R205). -/
def lineIndex (lk : Nat) : Nat :=
  let a := lk * 64
  if a < 2 * 2 ^ 52 then ((a - 2 ^ 52) / 4096 / 24 * 4096 + (a - 2 ^ 52) % 4096) / 64
  else
    let o := (a - 2 * 2 ^ 52) % 2 ^ 37
    (o / 512 * 256 + o % 256) / 64

/-- A field of T1_STACK, or its counterpart in T2_PKG, for a unit. -/
def unitFld (u : Nat) (t1 t2 : Fld) : Fld × Nat := if u < 100 then (t1, u) else (t2, u - 100)

def State.unitRd (s : State) (u : Nat) (t1 t2 : Fld) : Nat := s.rd (unitFld u t1 t2).1 (unitFld u t1 t2).2
def State.unitBump (s : State) (u : Nat) (t1 t2 : Fld) : State := s.bump (unitFld u t1 t2).1 (unitFld u t1 t2).2
def State.unitWr (s : State) (u : Nat) (t1 t2 : Fld) (v : Nat) : State := s.wr (unitFld u t1 t2).1 (unitFld u t1 t2).2 v

/-- Is a unit lost (R183)? -/
def State.unitLost (s : State) (u : Nat) : Bool := s.unitRd u Reg.TM_STATE_LOST Reg.T2_STATE_LOST == 1

/-- The tile of a unit. -/
def unitTile (u : Nat) : Nat := if u < 100 then stackTile u else (u - 100) / 2

/-- Units that a byte range touches. -/
def rangeUnits (a len : Nat) : List Nat :=
  if len = 0 then []
  else if a < 2 * 2 ^ 52 then
    ((List.range (min 24 ((a + len - 1) / 4096 - a / 4096 + 1))).map fun i => lineUnit ((a / 4096 + i) * 64)).dedup
  else ((List.range (min 2 ((a + len - 1) / 256 - a / 256 + 1))).map fun i => lineUnit ((a / 256 + i) * 4)).dedup

/-- Lines of a range with an entry in the poison map. -/
def State.badLines (s : State) (a len : Nat) : List (Nat × Nat) :=
  if len = 0 then [] else s.tier.poison.filter fun e => decide (a / 64 ≤ e.1) && decide (e.1 ≤ (a + len - 1) / 64)

def State.setPoison (s : State) (lk v : Nat) : State := { s with tier := { s.tier with poison := mset 0 s.tier.poison lk v } }

/-- One marked line meets a read (R180, R181): the state, and whether the reader receives POISON. -/
def State.readLine (s : State) (lk v : Nat) : State × Bool :=
  let u := lineUnit lk
  if v = 2 then ((s.setPoison lk 0).unitBump u Reg.TM_ERR_CORRECTED Reg.T2_ERR_CORRECTED, false)
  else if v = 3 then ((s.setPoison lk 0).unitBump u Reg.TM_ERR_RETRY_OK Reg.T2_ERR_RETRY_OK, false)
  else if v = 1 then (s, true)
  else
    let s := ((s.setPoison lk 1).unitBump u Reg.TM_ERR_POISONED Reg.T2_ERR_POISONED).unitWr u Reg.TM_LAST_LINE Reg.T2_LAST_LINE
      (lineIndex lk)
    ((s.unitWr u Reg.TM_LAST_NEW Reg.T2_LAST_NEW 1).faultRec { type := evMemPoison, tile := unitTile u, d0 := lk * 64 }, true)

/-- A read of a T1 or T2 range by byte key. -/
def State.readTier (s : State) (a len : Nat) : State × Bool :=
  if (rangeUnits a len).any s.unitLost then (s, true)
  else (s.badLines a len).foldl (fun r e => let (s, b) := r.1.readLine e.1 e.2; (s, r.2 || b)) (s, false)

/-- Pieces of a write, cut at 64-byte lines. -/
def linePieces : Nat → Nat → List Byte → List (Nat × List Byte)
  | 0, _, _ => []
  | n + 1, a, bs =>
    if bs = [] then []
    else (a, bs.take (64 - a % 64)) :: linePieces n (a + (64 - a % 64)) (bs.drop (64 - a % 64))

/-- A write of a T1 or T2 range (R177, R181, R183). -/
def State.writeTier (s : State) (a : Nat) (bs : List Byte) : State :=
  let lost := (rangeUnits a bs.length).filter s.unitLost
  if lost = [] ∧ s.badLines a bs.length = [] then s.stBytes a bs
  else
    let s := s.each lost fun s u => s.unitBump u Reg.TM_ERR_LOST_WR Reg.T2_ERR_LOST_WR
    s.each (linePieces bs.length a bs) fun s p =>
      let lk := p.1 / 64
      let u := lineUnit lk
      if lost.contains u then s
      else if p.2.length = 64 then (s.setPoison lk 0).stBytes p.1 p.2
      else if mget 0 s.tier.poison lk = 1 then s.unitBump u Reg.TM_ERR_POISONED Reg.T2_ERR_POISONED
      else s.stBytes p.1 p.2

/-- Is a T3 port's link in L0? -/
def State.t3Up (s : State) (port : Nat) : Bool := s.rd Reg.T3_STATUS_LINK_UP port == 1

/-- Does the CXL device answer a line of a range as poisoned (R186, log 71)? -/
def State.cxlBad (s : State) (p off len : Nat) : Bool :=
  len != 0 && (List.range ((off + len - 1) / 64 - off / 64 + 1)).any fun i => Config.cxlPoison p (off / 64 + i) s.now

/-- n bytes that the spec leaves to a device. -/
def State.drawBytes : Nat → State → State × List Byte
  | 0, s => (s, [])
  | n + 1, s =>
    let (v, s) := s.draw
    let (s, r) := State.drawBytes n s
    (s, BitVec.ofNat 8 v.toNat :: r)

/-- A read at a memory controller: the state, the bytes, and whether the answer is POISON, which a T3 port counts (Table 7.10). A
device's registers behind a port in NVME mode answer a free value (log 19). -/
def State.readMem (s : State) (t : Tgt) (len : Nat) : State × List Byte × Bool :=
  match t with
  | .t1 off => let (s, b) := s.readTier (t1Key off) len; (s, s.ldBytes (t1Key off) len, b)
  | .t2 tile off => let (s, b) := s.readTier (t2Key tile off) len; (s, s.ldBytes (t2Key tile off) len, b)
  | .t3 p off =>
    if !s.t3Up p then (s.bump Reg.T3_STATUS_POISON_RX p, [], true)
    else if s.tier.t3nvme.contains p then let (s, bs) := State.drawBytes len s; (s, bs, false)
    else if s.cxlBad p off len then (s.bump Reg.T3_STATUS_POISON_RX p, s.ldBytes (t3Key p off) len, true)
    else (s, s.ldBytes (t3Key p off) len, false)
  | .host a => if s.hostBad a len then (s, [], true) else (s, s.ldBytes (hostKey a) len, false)
  | _ => (s, s.ldBytes 0 0, false)

/-- A write at a memory controller. -/
def State.writeMem (s : State) (t : Tgt) (bs : List Byte) : State :=
  match t with
  | .t1 off => s.writeTier (t1Key off) bs
  | .t2 tile off => s.writeTier (t2Key tile off) bs
  | .t3 p off =>
    if !s.t3Up p then s.bump Reg.T3_STATUS_LOST_WR p
    else if s.tier.t3nvme.contains p then s
    else s.stBytes (t3Key p off) bs
  | .host a => s.hostWrite a bs
  | _ => s

end Sys2Proof.Machine
end

