-- ==== Sys2Proof/Machine/Packets.lean ====
section
/-! DEFINITION. Packets of the dynamic plane (9.1 to 9.6): tiles and ports, source routes, injection, replies, and the
hops of both routing modes. The module that is modelled is one; a packet that leaves it stays in `fab.net` with
`at_` = 64 until its reply comes back (log 20). -/

namespace Sys2Proof.Machine

/-! ### Tiles and ports -/

def tileX (t : Nat) : Nat := t % 6
def tileY (t : Nat) : Nat := t / 6

/-- Distance in tiles moved. -/
def tileDist (a b : Nat) : Nat :=
  (tileX a - tileX b) + (tileX b - tileX a) + (tileY a - tileY b) + (tileY b - tileY a)

/-- The tile behind an output: 0 north, 1 east, 2 south, 3 west, 4 XR, 5 XC (R33); none at the panel border. -/
def neighbour (t p : Nat) : Option Nat :=
  if p = 0 then (if tileY t = 0 then none else some (t - 6))
  else if p = 1 then (if tileX t = 5 then none else some (t + 1))
  else if p = 2 then (if tileY t = 5 then none else some (t + 6))
  else if p = 3 then (if tileX t = 0 then none else some (t - 1))
  else if p = 4 then some (if tileX t < 3 then t + 3 else t - 3)
  else if p = 5 then some (if tileY t < 3 then t + 18 else t - 18)
  else none

/-- The input port a packet comes by when it left by output p. -/
def oppPort (p : Nat) : Nat := if p < 4 then (p + 2) % 4 else p

/-- Instance of a LINK record: links 0 to 3 are the edges, 4 to 10 the die-to-base links (Table 11.8). -/
def linkInst (t l : Nat) : Nat := t * 16 + l

/-- Instance of an EXPRESS record (Table 11.9). -/
def xpInst (t p : Nat) : Nat := t * 4 + p

def State.vlnk (s : State) (t : Nat) : Bool := s.rd Reg.PW_STATUS_VLNK_GOOD t == 1

/-- Does an output carry a usable lane group (R256)? -/
def State.portUp (s : State) (t p : Nat) : Bool :=
  match neighbour t p with
  | none => false
  | some n => s.vlnk t && s.vlnk n &&
      (if p < 4 then s.rd Reg.LK_STATUS_STATE (linkInst t p) == 2 && s.rd Reg.LK_STATUS_GRP_RETIRED_TX (linkInst t p) != 255
       else s.rd Reg.XP_STATUS_STATE (xpInst t (if p = 4 then 0 else 2)) == 2)

/-- Table 11.6: direction, host tile and arrival tile of a reach port. -/
def reachDir (p : Nat) : Nat := if p < 24 then p / 6 else if p < 28 then 4 else 5
def reachHost (p : Nat) : Nat :=
  if p < 6 then p * 6 + 5 else if p < 12 then (p - 6) * 6 else if p < 18 then 30 + (p - 12) else if p < 24 then p - 18
  else if p < 28 then [7, 10, 25, 28].getD (p - 24) 0 else [14, 15, 20, 21].getD (p - 28) 0
def reachArrive (p : Nat) : Nat :=
  if p < 6 then p * 6 else if p < 12 then (p - 6) * 6 + 5 else if p < 18 then p - 12 else if p < 24 then 30 + (p - 18)
  else if p < 28 then [14, 15, 20, 21].getD (p - 24) 0 else [7, 10, 25, 28].getD (p - 28) 0

/-- The reach port of a direction on a tile. -/
def reachAt (t d : Nat) : Option Nat := (List.range 32).find? fun p => reachHost p == t && reachDir p == d

/-- Is a reach port up (STATE 2 or 3)? -/
def State.reachUp (s : State) (p : Nat) : Bool := s.rd Reg.RP_STATUS_STATE p == 2 || s.rd Reg.RP_STATUS_STATE p == 3

/-! ### Source routes (9.4) -/

/-- Field i of a route. -/
def routeFld (route i : Nat) : Nat := if i < 20 then route / 8 ^ i % 8 else 0

/-- The module one step in a torus direction (R254, R331). -/
def State.modStep (s : State) (m d : Nat) : Nat :=
  let x := m % 4
  let y := m / 4 % 4
  let z := m / 16
  let n := s.host.depthZ
  if d = 0 then (x + 1) % 4 + 4 * y + 16 * z
  else if d = 1 then (x + 3) % 4 + 4 * y + 16 * z
  else if d = 2 then x + 4 * ((y + 1) % 4) + 16 * z
  else if d = 3 then x + 4 * ((y + 3) % 4) + 16 * z
  else if d = 4 then x + 4 * y + 16 * ((z + 1) % n)
  else x + 4 * y + 16 * ((z + n - 1) % n)

/-- A step of the walk that R254 checks: position, rank and code of the last hop within the module, last REACH
direction. -/
structure RWalk where
  m : Nat
  t : Nat
  rank : Nat := 0
  last : Nat := 0
  dir : Option Nat := none

/-- Rank of a hop code in the order of R254 rule 3: XR, XC, east or west, north or south. -/
def hopRank (c : Nat) : Nat := if c = 5 then 1 else if c = 6 then 2 else if c = 2 ∨ c = 4 then 3 else 4

/-- Rules 1 to 5 of R254 over the fields of a route. -/
def State.walkOk (s : State) (dmod dtile : Nat) : RWalk → List Nat → Bool
  | w, [] => w.m == dmod && w.t == dtile
  | w, 0 :: _ => w.m == dmod && w.t == dtile
  | _, 7 :: [] => false
  | w, 7 :: d :: r =>
    decide (d < 6) && s.host.inSystem &&
      (match w.dir with
       | none => true
       | some e => decide (e / 2 < d / 2) || e == d) &&
      (match reachAt w.t d with
       | none => false
       | some p => s.walkOk dmod dtile { m := s.modStep w.m d, t := reachArrive p, dir := some d } r)
  | w, c :: r =>
    let k := hopRank c
    (decide (w.rank < k) || (w.rank == k && decide (3 ≤ k) && w.last == c)) &&
      (match neighbour w.t (c - 1) with
       | none => false
       | some n => s.walkOk dmod dtile { w with t := n, rank := k, last := c } r)

/-- The checks of R253 and R254 on a route register. -/
def State.routeOk (s : State) (tile rr dmod dtile : Nat) : Bool :=
  decide (rr < 2 ^ 60) && s.walkOk dmod dtile { m := s.ownMod, t := tile } ((List.range 20).map (routeFld rr))

/-- Packs hop codes into a route. -/
def packRoute : List Nat → Nat
  | [] => 0
  | c :: r => c + 8 * packRoute r

/-- The hops of a route's first fields, a REACH with its direction. -/
def routeHops : List Nat → List (Nat × Nat)
  | [] => []
  | 7 :: d :: r => (7, d) :: routeHops r
  | c :: r => (c, 0) :: routeHops r

/-- A hop inverted (R257). -/
def invHop (h : Nat × Nat) : List Nat :=
  if h.1 = 7 then [7, if h.2 % 2 = 0 then h.2 + 1 else h.2 - 1]
  else if h.1 = 1 then [3] else if h.1 = 3 then [1] else if h.1 = 2 then [4] else if h.1 = 4 then [2] else [h.1]

/-- The reverse of the fields before HOP (R257). -/
def revRoute (route hop : Nat) : Nat :=
  packRoute ((routeHops ((List.range hop).map (routeFld route))).reverse.flatMap invHop)

/-- The route that a unit computes within its module: east or west first, then north or south (R261). -/
def xyRoute (a b : Nat) : Nat :=
  packRoute (List.replicate (tileX b - tileX a) 2 ++ List.replicate (tileX a - tileX b) 4 ++
    List.replicate (tileY b - tileY a) 3 ++ List.replicate (tileY a - tileY b) 1)

/-! ### Packets on the wire (R243 to R245, Table 9.3) -/

/-- Opcodes of Table 9.2. -/
def opWrite : Nat := 0x01
def opReadReq : Nat := 0x02
def opLoad : Nat := 0x03
def opStore : Nat := 0x04
def opAmo : Nat := 0x05
def opChurn : Nat := 0x08
def opAck : Nat := 0x10
def opNack : Nat := 0x11
def opReadResp : Nat := 0x12
def opLoadResp : Nat := 0x13
def opResend : Nat := 0x14
def opRetry : Nat := 0x15
def opRepairReq : Nat := 0x18
def opRepairData : Nat := 0x19
def opRepairLate : Nat := 0x1A

def isReply (op : Nat) : Bool := decide (0x10 ≤ op) && decide (op ≤ 0x15)

/-- Does a class allow an opcode (R242)? -/
def opAllowed (op cls : Nat) : Bool :=
  if [1, 2, 3, 4, 5].contains op then cls == 0 || cls == 3
  else if op = opChurn then cls == 2
  else if isReply op then cls == 1 || cls == 3
  else if [0x18, 0x19, 0x1A, 0x1B].contains op then cls == 3
  else false

/-- The places of Table 9.3 below HCRC: lowest bit and width of CLASS, OPCODE, EPOCH, RMODE, HOP, VAT, LEN, ROUTE, DADDR,
DMOD, DTILE, SRC, SEQ, OPID, REDOP, SKIM, CAUSE. -/
def hdrLayout : List (Nat × Nat) :=
  [(0, 2), (2, 5), (7, 2), (9, 1), (10, 5), (15, 8), (23, 14), (37, 60), (97, 64), (161, 6), (167, 6), (173, 20), (193, 16), (209, 4),
   (213, 3), (216, 14), (230, 8)]

/-- A packet's field values in the order of `hdrLayout`. -/
def Pkt.hdrVals (p : Pkt) : List Nat :=
  [p.cls, p.op, p.epoch, b2n p.rmode, p.hop, p.vat, p.len, p.route, p.daddr.toNat, p.dmod, p.dtile, p.src, p.seq, p.opid, p.redop,
   p.skim, p.cause]

/-- Bits 239:0 of a header. -/
def Pkt.hdrBody (p : Pkt) : Nat := ((hdrLayout.zip p.hdrVals).map fun e => e.2 % 2 ^ e.1.2 * 2 ^ e.1.1).sum

/-- HCRC over bits 239:0 with HOP taken as 0 (R244). -/
def hcrcOf (body : Nat) : Nat := crc16 (leBytes 30 (body - bitsOf body 14 10 * 2 ^ 10))

/-- The 256-bit header (Table 9.3). -/
def Pkt.header (p : Pkt) : Nat := p.hdrBody + hcrcOf p.hdrBody * 2 ^ 240

/-- The trailer: CRC-32C over the header with HOP taken as 0 and the payload (R245). -/
def trailerOf (hdr : Nat) (payload : List Byte) : Nat :=
  crc32c (leBytes 32 (hdr - bitsOf hdr 14 10 * 2 ^ 10) ++ ofBytes payload)

/-- Flits of a packet (R245). -/
def Pkt.flits (p : Pkt) : Nat := (p.len + 36 + 251) / 252

/-- Flit i of a packet's bytes (R309): 252 of them, zero-filled, and their CRC-32C. -/
def flitAt (w : List Nat) (i : Nat) : List Byte :=
  let b := (w.drop (252 * i)).take 252
  let b := b ++ List.replicate (252 - b.length) 0
  toBytes (b ++ leBytes 4 (crc32c b))

/-- The flits that a packet occupies on a link (R245, R309). -/
def Pkt.flitBytes (p : Pkt) : List (List Byte) :=
  let w := leBytes 32 p.header ++ ofBytes p.payload ++ leBytes 4 (trailerOf p.header p.payload)
  (List.range p.flits).map (flitAt w)

/-- The 256 bytes of a flit that came with a CRC (R309). -/
def flitBytes (data : List Byte) (crc : BitVec 32) : List Byte := data ++ toBytes (leBytes 4 crc.toNat)

/-- Does a flit pass its CRC (R309)? -/
def flitOk (f : List Byte) : Bool := f.length == 256 && leNat (ofBytes (f.drop 252)) == crc32c (ofBytes (f.take 252))

/-! ### Packets -/

/-- A packet with nothing in it. -/
def blankPkt : Pkt :=
  { pid := 0, cls := 0, op := 0, epoch := 0, rmode := false, hop := 0, vat := 0, route := 0, daddr := 0, dmod := 0, dtile := 0,
    src := 0, seq := 0, opid := 0, redop := 0, skim := 0, cause := 0, len := 0, payload := [], owner := .unit, from_ := 0,
    at_ := 0, inPort := 7, out := none, hdrOk := true, crcOk := true, sentAt := 0, retryAt := none, held := false, passed := 0 }

/-- The tile of a system core id, and a base die's id as a source (R246). -/
def sidTile (id : Nat) : Nat := cidTile (id % 2 ^ 14)
def sidMod (id : Nat) : Nat := id / 2 ^ 14
def State.baseSid (s : State) (t : Nat) : Nat := s.ownMod * 2 ^ 14 + tileY t * 2 ^ 11 + tileX t * 2 ^ 8 + 7 * 2 ^ 5

/-- Does a source id name a base die (site 7, R246)? -/
def sidBase (id : Nat) : Bool := cidSite (id % 2 ^ 14) == 7

/-- The source id of a core (R246): logical in the vat classes, physical in class 3. -/
def State.coreSid (s : State) (core : Nat) (phys : Bool) : Nat :=
  s.ownMod * 2 ^ 14 + mkCid (core / 256) (if phys then core / 32 % 8 else s.lsite (core / 256) (core / 32 % 8)) (core / 8 % 4)
    (slotOf core)

/-- DMOD and DTILE of a destination word (R247, R461). -/
def State.destOf (s : State) (w : Nat) : Nat × Nat :=
  if w < 2 ^ 63 then ((pailAddr w).mod, cidTile (pailAddr w).id)
  else
    let m := if bitsOf w 61 56 = 0 then s.ownMod else bitsOf w 61 56
    match decodePa (w % 2 ^ 56) with
    | some (.scr id _) => (m, cidTile id)
    | some (.t1 off) => (m, stackTile (off / 4096 % 24))
    | some (.t2 t _) => (m, t)
    | some (.t3 p _) => (m, t3Tile p)
    | some (.csr a) => (m, bitsOf a 37 32)
    | some (.host _) => (s.rd Reg.FN_SYS_LEAD 0, 0)
    | some (.boot _) => (m, 0)
    | none => (m, 0)

/-- The core of this module that a destination word names. -/
def State.wordCore (s : State) (svc : Bool) (w : Nat) : Option Nat :=
  if w < 2 ^ 63 then s.physCore svc (pailAddr w).id
  else match decodePa (w % 2 ^ 56) with
    | some (.scr id _) => s.physCore svc id
    | _ => none

/-- The epoch of a tile. -/
def State.epochAt (s : State) (t : Nat) : Nat := s.rd Reg.DYN_CTL_EPOCH t

def State.pkt? (s : State) (pid : Nat) : Option Pkt := s.fab.net.find? fun p => p.pid == pid

/-! ### Input buffers (R241, R262, R263) -/

/-- Key of an input of a tile: 0 to 6 and 8 to 13 are the base router's ports (Table 8.2), where 6 has its buffers in the reach
stages and 7 stands for what the base die itself sends; 16 + p is the reach stage of port p, 64 + site × 4 + cluster a cluster
router. -/
def inKey (t port : Nat) : Nat := t * 128 + port

/-- Key of a class of an input, and of the far stage of a reach port. -/
def offKey (t port cls : Nat) : Nat := inKey t port * 4 + cls
def farKey (p cls : Nat) : Nat := (2 ^ 13 + p) * 4 + cls

/-- Bytes of a class buffer (R262). -/
def State.inSize (s : State) (t port cls : Nat) : Nat :=
  if port < 16 then
    s.rd ([Reg.DYN_BUF_BUF_REQ, Reg.DYN_BUF_BUF_RSP, Reg.DYN_BUF_BUF_CHN, Reg.DYN_BUF_BUF_SVC].getD cls Reg.DYN_BUF_BUF_REQ) t * 4096
  else if port < 64 then 65536 else 16384

/-- Flits of a class in an input's buffer. -/
def State.heldFlits (s : State) (t port cls : Nat) : Nat :=
  ((s.fab.net.filter fun q => q.at_ == t && q.inPort == port && q.cls == cls && q.retryAt.isNone).map Pkt.flits).sum

/-- Is a class of an input held OFF (R263)? -/
def State.classOff (s : State) (t port cls : Nat) : Bool := mget 0 s.fab.clsOff (offKey t port cls) != 0

/-- May n flits of a class enter an input: it is ON, and its buffer takes them (R263 to R265; log 20). -/
def State.inOpen (s : State) (t port cls n : Nat) : Bool :=
  port == 7 || (!s.classOff t port cls && decide ((s.heldFlits t port cls + n) * 256 ≤ s.inSize t port cls))

/-! ### Sending over a link (R309 to R311) -/

/-- Key of the sending direction of an output: links by instance, express ports after them, then reach ports, then the dies' own
directions of the die-to-base links. -/
def txKey (t port : Nat) : Nat := if port < 4 then linkInst t port else 576 + xpInst t (if port = 4 then 0 else 2)
def reachKey (p : Nat) : Nat := 720 + p
def upKey (t site : Nat) : Nat := 1024 + linkInst t (4 + site)

/-- Replay buffer, landing-buffer share of a class and pool in flits, and sequence space, of a link (Table 11.1, R309,
R311). -/
def linkCaps (k : Nat) : Nat × Nat × Nat × Nat :=
  if k < 576 then (if k % 16 < 4 then (128, 64, 256, 256) else (128, 32, 128, 256))
  else if k < 720 then (256, 16, 64, 1024)
  else if k < 1024 then (4096, 512, 2048, 16384) else (128, 32, 128, 256)

def State.tx (s : State) (k : Nat) : LinkTx := mget {} s.lnk.tx k
def State.setTx (s : State) (k : Nat) (v : LinkTx) : State := { s with lnk := { s.lnk with tx := mset {} s.lnk.tx k v } }

/-- May n flits of a class be sent: replay space (R310), and credit of the share and the pool (R311)? -/
def State.replayRoom (s : State) (k n : Nat) : Bool := decide ((s.tx k).held.length + n ≤ (linkCaps k).1)
def State.creditRoom (s : State) (k cls n : Nat) : Bool :=
  let x := s.tx k
  decide (n ≤ ((linkCaps k).2.1 - x.share.getD cls 0) + ((linkCaps k).2.2.1 - x.pool))
def State.linkRoom (s : State) (k : Nat) (p : Pkt) : Bool := s.replayRoom k p.flits && s.creditRoom k p.cls p.flits

/-- Sends a packet's flits: they take sequence numbers and credits and stay in the replay buffer. -/
def State.sendFlits (s : State) (k : Nat) (p : Pkt) : State :=
  let x := s.tx k
  let c := linkCaps k
  let n := p.flits
  let own := min n (c.2.1 - x.share.getD p.cls 0)
  s.setTx k { next := (x.next + n) % c.2.2.2
              held := x.held ++ (List.range n).map fun i => ((x.next + i) % c.2.2.2, (p.flitBytes).getD i [])
              share := x.share.set p.cls (x.share.getD p.cls 0 + own)
              pool := x.pool + (n - own) }

/-! ### What a receiver meets (R334) -/

/-- A packet that a receiver holds back (kind 7) goes on once the following packet of its class has come. -/
def State.unhold (s : State) (t inPort cls : Nat) : State :=
  { s with fab := { s.fab with net := s.fab.net.map fun q =>
      if q.at_ = t ∧ q.inPort = inPort ∧ q.cls = cls then { q with held := false } else q } }

/-- A pending error injection of a link that something has come by: of the kinds from `lo` to `hi`, 0 for none. -/
def State.takeInject (s : State) (t inp lo hi : Nat) : State × Nat :=
  match s.lnk.injNext.find? fun e => e.1 == t && e.2.1 == inp && decide (lo ≤ e.2.2) && decide (e.2.2 ≤ hi) with
  | some e => ({ s with lnk := { s.lnk with injNext := s.lnk.injNext.erase e } }, e.2.2)
  | none => (s, 0)

/-- A packet as a receiver takes it: lost by kind 5, with a header bit flipped by kind 6, held back by kind 7, which waits for a
Burboid-mode packet. -/
def State.meet (s : State) (t inp : Nat) (p : Pkt) : State × Option Pkt :=
  let (s, a) := s.takeInject t inp 5 6
  if a = 5 then (s, none)
  else
    let p := { p with hdrOk := p.hdrOk && a != 6 }
    if p.rmode then (s, some p)
    else
      let (s, b) := s.takeInject t inp 7 7
      (s, some { p with held := b == 7 })

/-! ### Entering the plane -/

/-- A packet enters the plane at the tile it stands on. -/
def State.send (s : State) (p : Pkt) : State :=
  { s with fab := { s.fab with net := s.fab.net ++ [{ p with pid := s.fab.nextPid, epoch := s.epochAt p.at_, sentAt := s.now }]
                               nextPid := s.fab.nextPid + 1 } }

/-- Key of the router of a cluster as an input of its tile, and the place at which an injected error of a die-to-base link waits: for what
comes by first, up or down (log 70). -/
def cluPort (ck : Nat) : Nat := 64 + ck % 32
def dieInp (site : Nat) : Nat := 32 + site

/-- Is a packet on its die's ring: it stays there and never enters the base tile (R12)? -/
def Pkt.ring (p : Pkt) : Bool := decide (64 ≤ p.inPort)

/-- The input by which a cluster's packet enters: the destination's cluster router on the own die (R12), else the uplink's. -/
def State.entry (s : State) (ck : Nat) (p : Pkt) : Nat :=
  let l := s.lsite (ckTile ck) (ckSite ck)
  let up := if l < 6 then 8 + l else 15
  match (if p.dmod = s.ownMod ∧ p.op ≠ opChurn then s.wordCore (p.cls == 3) p.daddr.toNat else none) with
  | some c => if c / 32 = ck / 4 then 64 + c / 8 % 32 else up
  | none => up

/-- May a cluster's packet enter: its buffer is open, and the uplink has replay space and credit (R263, R310, R311)? -/
def State.mayEnter (s : State) (ck : Nat) (p : Pkt) : Bool :=
  let e := s.entry ck p
  s.inOpen (ckTile ck) e p.cls p.flits && (decide (64 ≤ e) || s.linkRoom (upKey (ckTile ck) (ckSite ck)) p)

/-- A cluster's packet enters by the ring or the uplink. -/
def State.enterFrom (s : State) (ck : Nat) (p : Pkt) : State :=
  let e := s.entry ck p
  let t := ckTile ck
  if 64 ≤ e then s.send { p with at_ := t, inPort := e }
  else
    let (s, q) := (s.sendFlits (upKey t (ckSite ck)) p).meet t (dieInp (ckSite ck)) p
    let s := s.unhold t e p.cls
    match q with
    | some q => s.send { q with at_ := t, inPort := e }
    | none => { s with fab := { s.fab with nextPid := s.fab.nextPid + 1 } }

/-- Counts a packet that a cluster's injector starts (Table 9.11) and sends it. -/
def State.injectFrom (s : State) (ck : Nat) (p : Pkt) : State := (s.bumpW Reg.DI_STATS_PACKETS ck).enterFrom ck p

/-- May a packet that waits to enter go: its class and vat may inject where it begins an operation (R267, R271), nothing of its sender
and class waits before it, and there is room? -/
def State.mayGo (s : State) (q : Parked) : Bool :=
  (s.fab.parked.find? fun r => r.by_ == q.by_ && r.p.cls == q.p.cls).all (· == q) &&
    (match q.by_ with
     | none => !q.starts || !s.injHeld q.p.at_ q.p.cls 0
     | some ck => (!q.starts || !s.injHeld (ckTile ck) q.p.cls q.p.vat) && s.mayEnter ck q.p)

/-- It enters. -/
def State.go (s : State) (q : Parked) : State :=
  match q.by_ with
  | none => s.send q.p
  | some ck => if q.starts then s.injectFrom ck q.p else s.enterFrom ck q.p

/-- Packets that wait enter while one of them may. -/
def State.unparkN : Nat → State → State
  | 0, s => s
  | n + 1, s =>
    match s.fab.parked.find? s.mayGo with
    | none => s
    | some q => State.unparkN n (State.go { s with fab := { s.fab with parked := s.fab.parked.erase q } } q)

def State.unpark (s : State) : State := State.unparkN s.fab.parked.length s

/-- A packet of a cluster, or of the base die it stands at, enters now or waits. -/
def State.sendBy (s : State) (by_ : Option Nat) (starts : Bool) (p : Pkt) : State :=
  let q : Parked := ⟨by_, starts, p⟩
  if s.mayGo q then s.go q else { s with fab := { s.fab with parked := s.fab.parked ++ [q] } }

/-! ### Leaving a router -/

/-- The port record of an output: 0 to 5, and 6 for the reach ports together (R274), which are outputs 16 to 47. -/
def recPort (o : Nat) : Nat := if o < 16 then o else 6

/-- Once no head waits any more for an output, WAIT_CYCLES rises by the CK_F cycles of the wait (Table 9.10). -/
def State.settleWait (s : State) (t port : Nat) : State :=
  let k := t * 16 + port
  let v := mget 0 s.fab.waitFrom k
  if v = 0 ∨ (s.fab.net.any fun q => q.at_ == t && q.out.map recPort == some port) then s
  else ({ s with fab := { s.fab with waitFrom := mset 0 s.fab.waitFrom k 0 } }).bumpW Reg.PORT_WAIT_CYCLES t (2 * (s.now + 1 - v)) port

/-- A packet is gone. -/
def State.dropPkt (s : State) (pid : Nat) : State :=
  let gone := s.fab.net.filter fun p => p.pid == pid
  let s := { s with fab := { s.fab with net := s.fab.net.filter fun p => p.pid != pid } }
  s.each gone fun s p => match p.out with
    | some o => s.settleWait p.at_ (recPort o)
    | none => s
def State.setPkt (s : State) (p : Pkt) : State :=
  { s with fab := { s.fab with net := s.fab.net.map fun q => if q.pid = p.pid then p else q } }

/-- Where a reply of tile t goes: DMOD, DTILE, RMODE and ROUTE (R257, R260, R261). `base` says that a base die sends it;
a NACK to a reply is routed afresh. -/
def State.replyRoute (s : State) (p : Pkt) (t dmod dtile : Nat) (base rev : Bool) : Bool × Nat :=
  if p.rmode && rev then (true, revRoute p.route p.hop)
  else if base && dmod == s.ownMod then (true, xyRoute t dtile)
  else (false, 0)

/-- The reply to a packet's SRC (R242, R246, R249, R257, R261), from a cluster or, for none, from the base die of tile t, whose id
is then its source; DADDR names the consumer (log 66). A refusal of what a base die has sent matches nothing there. -/
def State.replyPkt (s : State) (p : Pkt) (t : Nat) (by_ : Option Nat) (op cause : Nat) (payload : List Byte) : Pkt :=
  let dmod := sidMod p.src
  let dtile := sidTile p.src
  let r := s.replyRoute p t dmod dtile by_.isNone (!isReply p.op)
  { p with op := op, cls := if p.cls = 3 then 3 else 1, rmode := r.1, route := r.2, hop := 0, daddr := w64 (p.src % 2 ^ 20 * 2 ^ 30),
           dmod := dmod, dtile := dtile, src := if by_.isNone then s.baseSid t else p.src, cause := cause, len := payload.length,
           payload := payload, owner := if isReply p.op && sidBase p.src then .stray else p.owner, redop := 0, skim := 0, at_ := t,
           inPort := 7, out := none, hdrOk := true, crcOk := true, retryAt := none, held := false, passed := 0, waitAt := 0 }

/-- Sends a reply. -/
def State.reply (s : State) (p : Pkt) (t : Nat) (by_ : Option Nat) (op cause : Nat) (payload : List Byte) : State :=
  s.sendBy by_ false (s.replyPkt p t by_ op cause payload)

/-- A router discards a packet and answers NACK. -/
def State.nackDrop (s : State) (p : Pkt) (cause : Nat) : State := (s.dropPkt p.pid).reply p p.at_ none opNack cause []

/-- PATH_BROKEN at a router (R256, R258). -/
def State.broken (s : State) (p : Pkt) : State := (s.bump Reg.DYN_DROP0_PATH_NACK p.at_).nackDrop p cPath

/-! ### Hops -/

/-- Has a packet reached its final router (R255, R259), or is it on the ring of its die? -/
def State.arrived (s : State) (p : Pkt) : Bool :=
  decide (p.at_ < 36) && (p.ring || (if p.rmode then routeFld p.route p.hop == 0 else p.dmod == s.ownMod && p.dtile == p.at_))

/-- R255: packets of one class that left one injector on the same route keep their order. -/
def State.inOrder (s : State) (p : Pkt) : Bool :=
  !p.rmode || !(s.fab.net.any fun q => decide (q.pid < p.pid) && q.cls == p.cls && q.rmode && q.from_ == p.from_ &&
    q.src == p.src && q.route == p.route && q.retryAt.isNone && decide (q.hop ≤ p.hop) && decide (q.at_ < 36))

/-- Is the output of a head open to it: the next input's class and buffer, and the link's replay space and credit? -/
def State.outOpen (s : State) (p : Pkt) (o : Nat) : Bool :=
  if o < 16 then (match neighbour p.at_ o with
    | some n => s.inOpen n (oppPort o) p.cls p.flits && s.linkRoom (txKey p.at_ o) p
    | none => false)
  else mget 0 s.fab.clsOff (farKey (o - 16) p.cls) == 0 && s.linkRoom (reachKey (o - 16)) p

/-- The order of the classes on an output (R264, 1). -/
def clsRank (cls : Nat) : Nat := if cls = 3 then 0 else if cls = 1 then 1 else if cls = 2 then 2 else 3

/-- Has a head waited 64 flit times on its output (R264, 2)? -/
def State.aged (s : State) (p : Pkt) : Bool :=
  match p.out with
  | some o => decide (64 ≤ (s.rd Reg.PORT_FLITS p.at_ (recPort o) + 2 ^ 48 - p.waitAt) % 2 ^ 48)
  | none => false

/-- The place of a head's input port in the round of its class on an output (R264, 3). -/
def State.roundAt (s : State) (p : Pkt) (o : Nat) : Nat :=
  (p.inPort + 128 - mget 0 s.fab.served (offKey p.at_ o p.cls) % 128) % 128

/-- Does a router serve head q before head p on an output (R264)? -/
def State.servedBefore (s : State) (q p : Pkt) (o : Nat) : Bool :=
  if q.cls = p.cls then
    decide (s.roundAt q o < s.roundAt p o) || (s.roundAt q o == s.roundAt p o && decide (q.pid < p.pid))
  else if s.aged q != s.aged p then s.aged q else decide (clsRank q.cls < clsRank p.cls)

/-- Is it a head's turn on an output: no other head that waits for it and could go is served before. -/
def State.turnOf (s : State) (p : Pkt) (o : Nat) : Bool :=
  !s.fab.net.any fun q => q.pid != p.pid && q.at_ == p.at_ && q.out == some o && q.retryAt.isNone && !q.held && s.outOpen q o &&
    s.servedBefore q p o

/-- A packet waits at an output; a full replay buffer that stops it is counted (Table 11.8). -/
def State.waitOut (s : State) (p : Pkt) (o k : Nat) : State :=
  let s := if k < 576 && !s.replayRoom k p.flits && p.out.isNone then s.bump Reg.LK_ERR_REPLAY_FULL k else s
  let w := p.at_ * 16 + recPort o
  let s := if mget 0 s.fab.waitFrom w = 0 then { s with fab := { s.fab with waitFrom := mset 0 s.fab.waitFrom w (s.now + 1) } } else s
  if p.out = some o then s
  else
    let s := s.setPkt { p with out := some o, waitAt := s.rd Reg.PORT_FLITS p.at_ (recPort o) }
    match p.out with
    | some b => s.settleWait p.at_ (recPort b)
    | none => s

/-- A head has gone out: its flits are on the link and counted, its input port was served last. -/
def State.sentOut (s : State) (p : Pkt) (o k : Nat) : State :=
  let s := (s.sendFlits k p).bumpW Reg.PORT_FLITS p.at_ p.flits (recPort o)
  { s with fab := { s.fab with served := mset 0 s.fab.served (offKey p.at_ o p.cls) (p.inPort + 1) } }

/-- Moves a packet through output `port` of its tile to the next tile; it waits, with its output assigned, while the output is not
open to it or another head is served before (R263, R264, R310, R311). -/
def State.move (s : State) (p : Pkt) (port adv : Nat) : State :=
  match neighbour p.at_ port with
  | none => s.broken p
  | some n =>
    let k := txKey p.at_ port
    if !s.outOpen p port || !s.turnOf p port then s.waitOut p port k
    else
      let (s, q) := (s.sentOut p port k).meet n (oppPort port) p
      match q with
      | none => s.dropPkt p.pid
      | some q =>
        let s := s.unhold n (oppPort port) p.cls
        let s := s.setPkt { q with at_ := n, inPort := oppPort port, hop := p.hop + adv, out := none }
        if p.out.isSome then s.settleWait p.at_ port else s

/-- Leaves the module by a reach port; a packet that starts an operation is kept, `at_` = 64, until its reply comes back. -/
def State.leave (s : State) (p : Pkt) (port adv : Nat) : State :=
  let k := reachKey port
  if !s.outOpen p (16 + port) || !s.turnOf p (16 + port) then s.waitOut p (16 + port) k
  else
    let s := s.sentOut p (16 + port) k
    if isReply p.op then s.dropPkt p.pid
    else
      let s := s.setPkt { p with at_ := 64, hop := p.hop + adv, out := none }
      if p.out.isSome then s.settleWait p.at_ 6 else s

/-- The checks every router makes on a header (R242, R244, R283): a bad one is discarded and counted. -/
def Pkt.headerOk (p : Pkt) : Bool := p.hdrOk && opAllowed p.op p.cls && (p.op != opChurn || decide (p.redop ≤ 2))

def State.dropHeader (s : State) (p : Pkt) : State := (s.bump Reg.DYN_DROP0_HDR_DROP p.at_).dropPkt p.pid

/-- The valid node entry of a tile for a VAT and TREE (R282). -/
def State.nodeOf (s : State) (t vat tree : Nat) : Option Nat :=
  (List.range 64).find? fun n => s.rd Reg.CH_NODE_VALID t n == 1 && s.rd Reg.CH_NODE_VAT t n == vat && s.rd Reg.CH_NODE_TREE t n == tree

/-- The node that must take a packet before it goes on (R282); FLAGS_ONLY packets pass every node (R290). -/
def State.nodeFor (s : State) (p : Pkt) : Option Nat :=
  if p.op = opChurn ∧ p.redop ≠ 2 ∧ p.passed ≠ p.at_ + 1 then s.nodeOf p.at_ p.vat ((p.payload.getD 4 0).toNat) else none

/-- May a packet's head be looked at: it stands in a router of the panel, and nothing holds it back. -/
def Pkt.free (p : Pkt) : Bool := decide (p.at_ < 36) && !p.ring && p.retryAt.isNone && !p.held

/-- PACKET_HOP_SOURCE_ROUTE (R255, R256). -/
def State.doHopSource (s : State) (pid : Nat) : State :=
  match s.pkt? pid with
  | none => s
  | some p =>
    if !p.rmode || !p.free || !s.inOrder p || (s.nodeFor p).isSome then s
    else if !p.headerOk then s.dropHeader p
    else
      let c := routeFld p.route p.hop
      if c = 0 then s
      else if c = 7 then
        match reachAt p.at_ (routeFld p.route (p.hop + 1)) with
        | some port => if s.reachUp port then s.leave p port 2 else s.broken p
        | none => s.broken p
      else if s.portUp p.at_ (c - 1) then s.move p (c - 1) 1
      else s.broken p

/-- Flits of a class that a router holds for an output (R258). -/
def State.queued (s : State) (t port cls : Nat) : Nat :=
  ((s.fab.net.filter fun q => q.at_ == t && q.out == some port && q.cls == cls).map Pkt.flits).sum

/-- The candidate outputs of R258 towards a tile. -/
def State.candidates (s : State) (t target : Nat) : List Nat :=
  let mask := s.rd Reg.TILE_ACT_ENTRY t target
  (List.range 6).filter fun p =>
    bitOf mask p && s.portUp t p &&
      (match neighbour t p with
       | none => false
       | some n => decide (tileDist n target < tileDist t target) &&
           (!decide (tileX target < tileX t) || decide (tileX n < tileX t)))

/-- The candidate with the fewest queued flits, ties to the lowest code (R258). -/
def State.choose (s : State) (t target cls : Nat) : Option Nat :=
  (s.candidates t target).foldl (fun b p => match b with
    | none => some p
    | some q => if s.queued t p cls < s.queued t q cls then some p else some q) none

/-- Is an output that a head has been given still in use? -/
def State.stillUp (s : State) (t o : Nat) : Bool := if o < 16 then s.portUp t o else s.reachUp (o - 16)

/-- Sends a packet on by an output. -/
def State.goOut (s : State) (p : Pkt) (o adv : Nat) : State := if o < 16 then s.move p o adv else s.leave p (o - 16) adv

/-- The output that the active tables give a packet (R258); none where it finds no way. -/
def State.lookUp (s : State) (p : Pkt) : Option Nat :=
  if p.dmod = s.ownMod then s.choose p.at_ p.dtile p.cls
  else
    let e := s.rd Reg.MOD_ACT_ENTRY p.at_ p.dmod
    if 6 ≤ e % 8 then none
    else if bitsOf e 8 3 = p.at_ then ((reachAt p.at_ (e % 8)).filter fun r => s.reachUp r).map (16 + ·)
    else s.choose p.at_ (bitsOf e 8 3) p.cls

/-- PACKET_HOP_BURBOID (R258, R259): the epoch is compared at the lookup; a head that waits for an output keeps it. -/
def State.doHopBurboid (s : State) (pid : Nat) : State :=
  match s.pkt? pid with
  | none => s
  | some p =>
    if p.rmode || !p.free || (s.nodeFor p).isSome then s
    else if !p.headerOk then s.dropHeader p
    else if s.arrived p then s
    else
      match p.out.filter fun o => s.stillUp p.at_ o with
      | some o => s.goOut p o 0
      | none =>
        if p.epoch ≠ s.epochAt p.at_ then (s.bump Reg.DYN_DROP0_EPOCH_NACK p.at_).nackDrop p cEpoch
        else match s.lookUp p with
          | some o => s.goOut p o 0
          | none => s.broken p

/-- Tries the hop that a packet's mode asks for. -/
def State.doHopOf (s : State) (source : Bool) (pid : Nat) : State := if source then s.doHopSource pid else s.doHopBurboid pid

/-! ### Down to a die -/

/-- May a packet go down to a cluster: its router's buffer is open, and the die-to-base link has replay space and credit? A packet
on the ring of the die is there. -/
def State.downOpen (s : State) (p : Pkt) (ck : Nat) : Bool :=
  p.ring || (s.inOpen p.at_ (cluPort ck) p.cls p.flits && s.linkRoom (linkInst p.at_ (4 + ckSite ck)) p)

/-- A packet goes down to a cluster (R309, Table 9.10): as its router takes it, or none where it is lost or held back on the way. -/
def State.down (s : State) (p : Pkt) (ck : Nat) : State × Option Pkt :=
  if p.ring then (s, some p)
  else
    let t := p.at_
    let l := s.lsite t (ckSite ck)
    let s := s.sendFlits (linkInst t (4 + ckSite ck)) p
    let s := if l < 6 then s.bumpW Reg.PORT_FLITS t p.flits (8 + l) else s
    match s.meet t (dieInp (ckSite ck)) p with
    | (s, none) => (s.dropPkt p.pid, none)
    | (s, some q) =>
      let q := { q with inPort := cluPort ck }
      let s := (s.unhold t (cluPort ck) p.cls).setPkt q
      if q.held then (s, none) else if q.headerOk then (s, some q) else (s.dropHeader q, none)

/-- PACKET_TRUNCATION (R272): a link fails under a packet that is crossing the panel; its parts are discarded. -/
def State.doTruncation (s : State) (pid : Nat) : State :=
  match s.pkt? pid with
  | none => s
  | some p => if p.at_ < 36 ∧ p.retryAt.isNone then (s.bump Reg.DYN_DROP2_TRUNC p.at_).dropPkt pid else s

def execPacketTruncation (pid : Nat) (s : State) : Host.Outcome State Fault Refusal := .next (s.doTruncation pid)

/-! ### Buffer registers -/

/-- DYN_BUF_WRITE (R262): sizes of 4 to 64 units of 4 KiB, together at most the pool of 512 KiB; a write outside is
ignored as a whole and sets CFG_CLAMP. Bit 32 is W1C (Table 9.9). -/
def State.doDynBuf (s : State) (t : Nat) (v : Nat) : State :=
  let sz := [bitsOf v 6 0, bitsOf v 14 8, bitsOf v 22 16, bitsOf v 30 24]
  let s := if bitOf v 32 then s.wr Reg.DYN_BUF_CFG_CLAMP t 0 else s
  if sz.all (fun n => decide (4 ≤ n) && decide (n ≤ 64)) && decide (sz.sum ≤ 128) then
    (((s.wr Reg.DYN_BUF_BUF_REQ t (sz.getD 0 0)).wr Reg.DYN_BUF_BUF_RSP t (sz.getD 1 0)).wr Reg.DYN_BUF_BUF_CHN t
      (sz.getD 2 0)).wr Reg.DYN_BUF_BUF_SVC t (sz.getD 3 0)
  else s.wr Reg.DYN_BUF_CFG_CLAMP t 1

def execDynBufWrite (t : Tile) (v : Word) (s : State) : Host.Outcome State Fault Refusal := .next (s.doDynBuf t.val v.toNat)

/-- DYN_TMO_WRITE (R273, Table 9.9): 100 to 100,000 µs, else ignored with CFG_CLAMP. -/
def State.doDynTmo (s : State) (t : Nat) (v : Nat) : State :=
  let n := bitsOf v 16 0
  if 100 ≤ n ∧ n ≤ 100000 then s.wr Reg.DYN_TMO_OP_TIMEOUT t n else s.wr Reg.DYN_BUF_CFG_CLAMP t 1

def execDynTmoWrite (t : Tile) (v : Word) (s : State) : Host.Outcome State Fault Refusal := .next (s.doDynTmo t.val v.toNat)

/-- Packets of paused classes that routers of the module still hold, replies of those classes among them (R268). Staged churn
partials are no held flits (R290). -/
def State.pausedPkts (s : State) : List Pkt :=
  s.fab.net.filter fun p => decide (p.at_ < 36) && p.retryAt.isNone && bitOf (s.rd Reg.DYN_CTL_INJ_PAUSE 0) p.cls

/-- DRAINED: the paused classes without a flit in any router (Table 9.9). -/
def State.drainedMask (s : State) : Nat :=
  let m := s.rd Reg.DYN_CTL_INJ_PAUSE 0
  ((List.range 4).map fun c => if bitOf m c && !(s.pausedPkts.any fun p => p.cls == c) then 2 ^ c else 0).sum

end Sys2Proof.Machine
end

