-- ==== Sys2Proof/Machine/Dest.lean ====
section
/-! DEFINITION. The checks that a packet meets at its destination before it is applied (R168, R270, Table 9.8). -/

namespace Sys2Proof.Machine

/-- Rows 1 to 4 of Table 9.8, or `go`: the packet may be applied. -/
inductive Verdict where
  | go
  | killed (nack : Bool)
  | fenced
  | resend
  | bounds
  deriving DecidableEq, Repr

/-- The vat in course of disable that holds a cluster (R420). -/
def State.killedAt (s : State) (lk : Option Nat) : Option Nat :=
  (lk.bind s.smallestAt).bind fun v => (s.chain v.id).find? fun i => ((s.vat? i).bind Vat.killing).isSome

/-- The check of R168 on a handle. -/
def Pail.takes (p : Pail) (svc write : Bool) (off len : Nat) : Bool :=
  p.valid && !(write && p.ro) && (svc || !p.svc) && decide (off + len ≤ p.size)

/-- A packet for a core id: what Table 9.8 says first, and the physical core. -/
def State.judgeCore (s : State) (p : Pkt) (id : Nat) (ok : Nat → Bool) : Verdict × Nat :=
  let svc := p.cls == 3
  let core := s.physCore svc id
  let lk := if svc then core.bind fun c => s.logOf (cluOfCore c) else some (cidTile id * 32 + cidSite id * 4 + cidClu id)
  match s.killedAt lk with
  | some v => (.killed (!(s.chain p.vat).contains v), 0)
  | none =>
    match core with
    | none => (.fenced, 0)
    | some c =>
      if s.coreBarred c then (.fenced, c) else if !p.crcOk then (.resend, c) else if ok c then (.go, c) else (.bounds, c)

/-- A packet that is not applied: counted at the tile and answered as its row of Table 9.8 says, by a cluster or, for none, by the
base die. -/
def State.refuse (s : State) (p : Pkt) (v : Verdict) (by_ : Option Nat) : State :=
  let t := p.at_
  let s := s.dropPkt p.pid
  match v with
  | .go => s
  | .killed nack =>
    let s := s.bump Reg.DYN_DROP1_KILLED t
    if nack then s.reply p t none opNack cFenced [] else s
  | .fenced => (s.bump Reg.DYN_DROP1_FENCED_NACK t).reply p t none opNack cFenced []
  | .resend => (s.bump Reg.DYN_DROP1_RESEND t).reply p t by_ opResend 0 []
  | .bounds => (s.bump Reg.DYN_DROP1_BOUNDS_NACK t).reply p t by_ opNack cBounds []

/-- Rows 1 and 2 are the base router's; what the others judge has gone down to its die (R270). -/
def Verdict.below : Verdict → Bool
  | .killed _ => false
  | .fenced => false
  | _ => true

end Sys2Proof.Machine
end

