-- ==== Sys2Proof/Machine/Smem.lean ====
section
/-! DEFINITION. Class S-MEM (Table 5.5, R128, R129): accesses to the own cluster's scratch are carried out at once, every
other access leaves as a packet (R251, R261). -/

namespace Sys2Proof.Machine

/-- What an S-MEM opcode does. -/
structure MemOp where
  op : Nat
  size : Nat
  signed : Bool := false
  fp : Bool := false
  redop : Nat := 0
  deriving DecidableEq, Repr

/-- A load's value as its register takes it. -/
def MemOp.value (m : MemOp) (v : Nat) : Word :=
  let n := v % 256 ^ m.size
  if m.signed then BitVec.ofInt 64 (toSigned (8 * m.size) n) else w64 n

def MemOp.put (m : MemOp) (sc : SCore) (rd : Nat) (v : Nat) : SCore :=
  if m.fp then sc.setF rd (m.value v) else sc.setX rd (m.value v)

/-- An AMO's new value: 0 adds, 1 swaps (Table 9.2). -/
def amoNew (redop old v : Nat) : Nat := if redop = 0 then (old + v) % 2 ^ 64 else v

/-- An access carried out in a scratch of the own cluster. -/
def State.smemLocal (s : State) (ck core off : Nat) (m : MemOp) (rd : Nat) (data : Nat) (ea : Word) (sc : SCore) : State :=
  if m.op = opStore then (s.writeScr core off (toBytes (leBytes m.size data))).retire ck sc
  else
    let (s, ok) := s.readScr core off m.size 2
    if !ok then s.trap ck cEcc ea
    else
      let old := s.ld (scrKey core off) m.size
      let s := if m.op = opAmo then s.writeScr core off (toBytes (leBytes 8 (amoNew m.redop old data))) else s
      s.retire ck (m.put sc rd old)

/-- The stream an access is numbered in (R251): its destination core, or its destination tile above 2^20; accesses at
service privilege have streams of their own. -/
def streamOf (m : Nat) (t : Tgt) (dtile : Nat) (svc : Bool) : Nat :=
  (match t with
   | .scr id _ => m * 2 ^ 14 + id
   | _ => 2 ^ 20 + m * 64 + dtile) + (if svc then 2 ^ 30 else 0)

/-- Is a stream one of a destination core (the eight of R251)? -/
def coreStream (k : Nat) : Bool := decide (k % 2 ^ 30 < 2 ^ 20)

/-- Streams of destination cores with accesses outstanding. -/
def SCore.streams (c : SCore) : List Nat := ((c.accs.map RemAcc.dst).filter coreStream).dedup

/-- The packet of a remote access (R246, R247, R251, R261). -/
def State.smemPkt (s : State) (ck : Nat) (a : RemAcc) : Pkt :=
  let w := a.addr.toNat % 2 ^ 62 + 2 ^ 63
  let d := s.destOf w
  let direct := a.priv && d.1 == s.ownMod
  let pay := if a.op = opLoad then [] else toBytes (leBytes a.size a.data.toNat)
  { blankPkt with cls := if a.priv then 3 else 0, op := a.op, rmode := direct,
                  route := if direct then xyRoute (ckTile ck) d.2 else 0, vat := if a.priv then 0 else s.vatIdOf ck,
                  daddr := w64 w, dmod := d.1, dtile := d.2, src := s.coreSid (coreOf ck 4) a.priv, seq := a.seq,
                  redop := a.redop, len := a.size, payload := pay, owner := .smem a.dst, from_ := ck, at_ := ckTile ck }

/-- An access that leaves the cluster: a load or AMO blocks the S-core, a store does not (R111). It waits while its
class or vat may not inject, for a ninth destination core (R251, R267), and for room on its way (R263, R310, R311). -/
def State.smemRemote (s : State) (ck : Nat) (m : MemOp) (rd : Nat) (data : Word) (ea : Word) (mod : Nat) (t : Tgt)
    (sc : SCore) : State :=
  let vat := if sc.priv then 0 else s.vatIdOf ck
  let k := streamOf mod t (s.destOf (ea.toNat % 2 ^ 62 + 2 ^ 63)).2 sc.priv
  if s.injHeld (ckTile ck) (if sc.priv then 3 else 0) vat then s
  else if coreStream k && !sc.streams.contains k && decide (8 ≤ sc.streams.length) then s
  else
    let seq := mget 0 sc.seqs k
    let a : RemAcc := { op := m.op, redop := m.redop, data := data, dst := k, seq := seq, addr := ea, isLoad := m.op == opLoad, rd := rd,
                        size := m.size, signed := m.signed, fp := m.fp, priv := sc.priv, since := some s.now }
    if !s.mayEnter ck (s.smemPkt ck a) then s
    else
      let sc := { sc with seqs := mset 0 sc.seqs k ((seq + 1) % 2 ^ 16), accs := sc.accs ++ [a] }
      let s := s.injectFrom ck (s.smemPkt ck a)
      if m.op = opStore then s.retire ck sc else s.setSc ck { sc with wait := some .load }

/-- An S-MEM instruction (R128 to R130): ILLEGAL, ALIGN, BOUNDS, then the access. -/
def State.smem (s : State) (c : Clu) (f : FmtM) (m : MemOp) : State :=
  let ck := cluKey c
  let rd := f.rd.toNat
  s.scalar ck (f.rsv == 0 && (!m.fp || decide (rd < 16))) fun sc s =>
    let ea := sc.getX f.rs1.toNat + f.imm.signExtend 64
    let data := if m.fp then sc.getF rd else sc.getX rd
    if ea.toNat % m.size ≠ 0 then s.trap ck cAlign ea
    else if !f.space then
      if 0x200000 ≤ ea.toNat ∨ (sc.priv = false ∧ pail63At 4 ≤ ea.toNat) then s.trap ck cBounds ea
      else s.smemLocal ck (coreOf ck 4) ea.toNat m rd data.toNat ea sc
    else
      match s.resolve (s.vatIdOf ck) sc.priv ea.toNat m.size (m.op != opLoad) with
      | none => s.trap ck cBounds ea
      | some (mod, .scr id off) =>
        (match (if mod = s.ownMod then s.physCore sc.priv id else none) with
         | some core =>
           if cluOfCore core = ck then
             if s.coreBarred core then s.trap ck cFenced ea else s.smemLocal ck core off m rd data.toNat ea sc
           else s.smemRemote ck m rd data ea mod (.scr id off) sc
         | none => s.smemRemote ck m rd data ea mod (.scr id off) sc)
      | some (mod, t) => if m.op = opAmo then s.trap ck cBounds ea else s.smemRemote ck m rd data ea mod t sc

/-- LB (R128). -/
def execLb (c : Clu) (f : FmtM) (s : State) : Host.Outcome State Fault Refusal := .next (s.smem c f { op := opLoad, size := 1, signed := true })
/-- LH (R128). -/
def execLh (c : Clu) (f : FmtM) (s : State) : Host.Outcome State Fault Refusal := .next (s.smem c f { op := opLoad, size := 2, signed := true })
/-- LW (R128). -/
def execLw (c : Clu) (f : FmtM) (s : State) : Host.Outcome State Fault Refusal := .next (s.smem c f { op := opLoad, size := 4, signed := true })
/-- LD (R128). -/
def execLd (c : Clu) (f : FmtM) (s : State) : Host.Outcome State Fault Refusal := .next (s.smem c f { op := opLoad, size := 8, signed := true })
/-- LBU (R128). -/
def execLbu (c : Clu) (f : FmtM) (s : State) : Host.Outcome State Fault Refusal := .next (s.smem c f { op := opLoad, size := 1 })
/-- LHU (R128). -/
def execLhu (c : Clu) (f : FmtM) (s : State) : Host.Outcome State Fault Refusal := .next (s.smem c f { op := opLoad, size := 2 })
/-- LWU (R128). -/
def execLwu (c : Clu) (f : FmtM) (s : State) : Host.Outcome State Fault Refusal := .next (s.smem c f { op := opLoad, size := 4 })
/-- SB (R128). -/
def execSb (c : Clu) (f : FmtM) (s : State) : Host.Outcome State Fault Refusal := .next (s.smem c f { op := opStore, size := 1 })
/-- SH (R128). -/
def execSh (c : Clu) (f : FmtM) (s : State) : Host.Outcome State Fault Refusal := .next (s.smem c f { op := opStore, size := 2 })
/-- SW (R128). -/
def execSw (c : Clu) (f : FmtM) (s : State) : Host.Outcome State Fault Refusal := .next (s.smem c f { op := opStore, size := 4 })
/-- SD (R128). -/
def execSd (c : Clu) (f : FmtM) (s : State) : Host.Outcome State Fault Refusal := .next (s.smem c f { op := opStore, size := 8 })
/-- FLW (R128). -/
def execFlw (c : Clu) (f : FmtM) (s : State) : Host.Outcome State Fault Refusal := .next (s.smem c f { op := opLoad, size := 4, fp := true })
/-- FLD (R128). -/
def execFld (c : Clu) (f : FmtM) (s : State) : Host.Outcome State Fault Refusal := .next (s.smem c f { op := opLoad, size := 8, fp := true })
/-- FSW (R128). -/
def execFsw (c : Clu) (f : FmtM) (s : State) : Host.Outcome State Fault Refusal := .next (s.smem c f { op := opStore, size := 4, fp := true })
/-- FSD (R128). -/
def execFsd (c : Clu) (f : FmtM) (s : State) : Host.Outcome State Fault Refusal := .next (s.smem c f { op := opStore, size := 8, fp := true })
/-- AMOADD.D (R129). -/
def execAmoaddD (c : Clu) (f : FmtM) (s : State) : Host.Outcome State Fault Refusal := .next (s.smem c f { op := opAmo, size := 8 })
/-- AMOSWAP.D (R129). -/
def execAmoswapD (c : Clu) (f : FmtM) (s : State) : Host.Outcome State Fault Refusal := .next (s.smem c f { op := opAmo, size := 8, redop := 1 })

/-- MFENCE (Table 5.5): waits until every store and AMO issued so far is acknowledged. -/
def execMfence (c : Clu) (f : FmtM) (s : State) : Host.Outcome State Fault Refusal :=
  .next (s.scalar (cluKey c) (decide (f = ⟨0, 0, false, 0, 0⟩)) fun sc s =>
    if sc.accs = [] then s.retire (cluKey c) sc else s)

end Sys2Proof.Machine
end

