-- ==== Sys2Proof/Machine/FabOps.lean ====
section
/-! DEFINITION. Fabric operations of class F (R139, R140, R248 to R254, R284, R285), inject-pause and the change of the
direction tables (R267, R268). -/

namespace Sys2Proof.Machine

/-! ### Injection -/

/-- CH_VAT as a tile holds it (R283). -/
def State.chMode (s : State) (tile vat : Nat) : Nat := s.rd Reg.CH_VAT_MODE tile vat
def State.chSkim (s : State) (tile vat : Nat) : Nat := s.rd Reg.CH_VAT_SKIM tile vat

/-- Payload bytes of packet i of an operation, and where they lie (R248, R285). -/
def FOp.step (o : FOp) : Nat := if o.kind = .churn then 8160 else 8192
def FOp.bytes (o : FOp) (i : Nat) : Nat := min o.step (o.len - i * o.step)

/-- Fields of RS3[63:32] of F.CHURN (Table 10.3). -/
def FOp.tree (o : FOp) : Nat := bitsOf o.hi 7 0
def FOp.index (o : FOp) : Nat := bitsOf o.hi 13 8
def FOp.scale (o : FOp) : Int := toSigned 9 (bitsOf o.hi 22 14)

/-- The element format a churn mode carries (Table 10.4). -/
def modeFmt (mode : Nat) : Nat := if mode = 0 then 0x01 else if mode = 1 then 0x11 else 0

/-- The churn block (Table 10.4). -/
def churnBlock (step tree count mask : Nat) (scale fmt : Nat) (uncomb ovf : Bool) : List Byte :=
  toBytes (leBytes 8 (step % 2 ^ 32 + tree * 2 ^ 32 + count % 2 ^ 24 * 2 ^ 40) ++ leBytes 8 mask ++
    leBytes 8 (scale % 2 ^ 16 + fmt * 2 ^ 16 + b2n uncomb * 2 ^ 21 + b2n ovf * 2 ^ 22) ++ leBytes 8 0)

/-- The local core and scratch offset of an operation. -/
def State.fopLocal (s : State) (ck : Nat) (o : FOp) : Nat × Nat :=
  let a := pailAddr o.loc.toNat
  let core := coreOf ck (a.id % 8)
  (core, (s.pail core a.pail).base + a.off)

/-- Do an operation's packets carry bytes of its source (R284, R285)? -/
def State.fopReads (s : State) (ck : Nat) (o : FOp) : Bool :=
  o.kind == .put || (o.kind == .churn && s.chMode (ckTile ck) o.vat != 2)

/-- The header of packet i of an operation (R246 to R248, R285). -/
def State.fopHead (s : State) (ck : Nat) (o : FOp) (i : Nat) : Pkt :=
  let n := if s.fopReads ck o then o.bytes i else 0
  let d := s.destOf o.remote.toNat
  { blankPkt with cls := o.cls, op := if o.kind = .put then opWrite else if o.kind = .get then opReadReq else opChurn,
                  rmode := o.route.isSome, route := o.route.getD 0, vat := o.vat, daddr := w64 (o.remote.toNat + i * o.step),
                  dmod := d.1, dtile := d.2, src := s.coreSid (s.fopLocal ck o).1 (o.cls == 3), seq := i, opid := o.opid,
                  redop := if o.kind = .churn then s.chMode (ckTile ck) o.vat else 0,
                  skim := if o.kind = .churn then s.chSkim (ckTile ck) o.vat else 0,
                  len := if o.kind = .put then n else if o.kind = .get then 16 else 32 + n, owner := .fop, from_ := ck, at_ := ckTile ck }

/-- Builds packet i of an operation: the state after the source has been read, the packet, and whether the read was
good (R246 to R248, R285). -/
def State.fopPkt (s : State) (ck : Nat) (o : FOp) (i : Nat) : State × Pkt × Bool :=
  let (core, off) := s.fopLocal ck o
  let x := i * o.step
  let n := o.bytes i
  let p := s.fopHead ck o i
  let (s, ok) := if s.fopReads ck o && o.data.isNone then s.readScr core (off + x) n 4 else (s, true)
  let bytes := if !s.fopReads ck o then [] else match o.data with
    | some l => (l.drop x).take n
    | none => s.ldBytes (scrKey core (off + x)) n
  let pay := match o.kind with
    | .put => bytes
    | .get => toBytes (leBytes 8 (o.loc.toNat + x) ++ leBytes 8 n)
    | .churn => churnBlock (s.rd Reg.LG_VAT_STEP 0 o.vat) o.tree 1 (2 ^ o.index) (o.scale % (2 ^ 16 : Nat)).toNat
        (modeFmt (s.chMode (ckTile ck) o.vat)) false false ++ bytes
  (s, { p with payload := pay }, ok)

/-- Replaces or removes an operation. -/
def State.setFop (s : State) (ck : Nat) (o : FOp) : State :=
  s.setFops ck ((s.fops ck).map fun q => if q.opid = o.opid then o else q)
def State.dropFop (s : State) (ck opid : Nat) : State :=
  let s := s.setFops ck ((s.fops ck).filter fun q => q.opid != opid)
  let w := s.rd Reg.DI_STATUS_OUTSTANDING ck
  s.wr Reg.DI_STATUS_OUTSTANDING ck (w - w / 2 ^ opid % 2 * 2 ^ opid)

/-- The injector ends an operation with a cause (R140, Table 9.11). -/
def State.failFop (s : State) (ck : Nat) (o : FOp) (cause seq : Nat) : State :=
  let s := (((s.dropFop ck o.opid).wr Reg.DI_LAST_OPID ck o.opid).wr Reg.DI_LAST_CAUSE ck cause).wr Reg.DI_LAST_SEQ ck seq
  s.pend ck ⟨cause, 5, o.ord, o.sigCtr, 0, o.priv, o.remote⟩

/-- Injects packet i; a source word with an uncorrectable error ends the operation (R140, R154). -/
def State.injectFop (s : State) (ck : Nat) (o : FOp) (i : Nat) : State :=
  let (s, p, ok) := s.fopPkt ck o i
  if ok then s.injectFrom ck p else s.failFop ck o cEcc i

/-- May the injector of a cluster start packets of an operation (R267, R271)? -/
def State.mayInject (s : State) (ck : Nat) (o : FOp) : Bool :=
  s.rd Reg.DI_STATUS_STOPPED ck == 0 && !s.injHeld (ckTile ck) o.cls o.vat

/-- The packet that an operation has to start next: one that is to be sent again, else the next of its order (R248, R250). -/
def FOp.next (o : FOp) : Option Nat :=
  match o.again with
  | i :: _ => some i
  | [] => if o.sent < o.total then some o.sent else none

/-- The operation with packet i started. -/
def FOp.started (o : FOp) (i : Nat) : FOp :=
  if o.again = [] then { o with sent := i + 1 } else { o with again := o.again.tail }

/-- What the injector of a cluster starts now: of the operations round-robin by OPID the first whose class and vat may inject and
whose packet has room (R248, R263, R267, R271). -/
def State.nextDue (s : State) (ck : Nat) : Option (FOp × Nat) :=
  ((List.range 16).map fun k => (mget 0 s.fab.turn ck + k) % 16).findSome? fun id =>
    match (s.fops ck).find? fun o => o.opid == id with
    | none => none
    | some o => (o.next.filter fun i => s.mayInject ck o && s.mayEnter ck (s.fopHead ck o i)).map fun i => (o, i)

/-- Packets that the injector of a cluster has still to start. -/
def State.dueCount (s : State) (ck : Nat) : Nat := ((s.fops ck).map fun o => o.total - o.sent + o.again.length).sum

/-- The injector starts packets of F operations while it may, n at most. -/
def State.pumpN (ck : Nat) : Nat → State → State
  | 0, s => s
  | n + 1, s =>
    match s.nextDue ck with
    | none => s
    | some (o, i) =>
      let s := s.setFop ck (o.started i)
      State.pumpN ck n (State.injectFop { s with fab := { s.fab with turn := mset 0 s.fab.turn ck ((o.opid + 1) % 16) } } ck (o.started i) i)

/-- S-MEM accesses that are to be sent again go before them. -/
def State.pumpAccs (s : State) (ck : Nat) : State :=
  s.each ((s.sc ck).accs.filter RemAcc.again) fun s a =>
    let c := s.sc ck
    if s.injHeld (ckTile ck) a.cls (if a.priv then 0 else s.vatIdOf ck) || !s.mayEnter ck (s.smemPkt ck a) then s
    else (s.setSc ck { c with accs := c.accs.map fun b => if b.dst = a.dst ∧ b.seq = a.seq then { b with again := false } else b }).injectFrom
      ck (s.smemPkt ck a)

/-- The injector of a cluster starts every packet it may start. -/
def State.pump (s : State) (ck : Nat) : State :=
  let s := s.pumpAccs ck
  State.pumpN ck (s.dueCount ck) s

/-- Whatever waits to enter the plane and may goes on (R263, R267, R271). -/
def State.pumpAll (s : State) : State :=
  let s := s.unpark
  s.each ((s.cmp.fops.map Prod.fst ++ (s.cmp.sc.filter fun e => e.2.accs.any RemAcc.again).map Prod.fst).dedup) fun s ck => s.pump ck

/-- Carries out what moves packets, then lets what waits for the room go on. -/
def State.moved (s : State) (f : State → State) : State := (f s).pumpAll

/-- PACKET_HOP_SOURCE_ROUTE (R255, R256). -/
def execPacketHopSourceRoute (pid : Nat) (s : State) : Host.Outcome State Fault Refusal := .next (s.moved fun s => s.doHopOf true pid)

/-- PACKET_HOP_BURBOID (R258, R259). -/
def execPacketHopBurboid (pid : Nat) (s : State) : Host.Outcome State Fault Refusal := .next (s.moved fun s => s.doHopOf false pid)

/-! ### ON and OFF (R263) -/

/-- Keys of the classes of the receiver behind an output of a tile: the next tile's input, the cluster routers of the die below, the
far stages of its reach ports. -/
def State.recvKeys (s : State) (t port : Nat) : List Nat :=
  if port < 6 then (match neighbour t port with
    | some n => (List.range 4).map (offKey n (oppPort port))
    | none => [])
  else if port = 6 then ((List.range 32).filter fun p => reachHost p == t).flatMap fun p => (List.range 4).map (farKey p)
  else if port < 8 then []
  else (List.range 4).flatMap fun c => (List.range 4).map (offKey t (cluPort (s.psite t (port - 8) * 4 + c)))

/-- CK_F cycles of the OFF period of an output's receiver that still runs. -/
def State.offRuns (s : State) (t port : Nat) : Nat :=
  match ((s.recvKeys t port).map fun k => mget 0 s.fab.clsOff k).filter (· != 0) with
  | [] => 0
  | v :: r => 2 * (s.now + 1 - r.foldl min v)

/-- CK_F cycles for which heads have waited for an output so far, in a wait that still runs (Table 9.10). -/
def State.waitRuns (s : State) (t port : Nat) : Nat :=
  let v := mget 0 s.fab.waitFrom (t * 16 + port)
  if v = 0 then 0 else 2 * (s.now + 1 - v)

/-- A class of a receiver turns OFF or ON; `out` is the sender's output, whose OFF_CYCLES rise by the period, two CK_F cycles to a
CK_T period, when its receiver's last class turns ON (Table 9.10). -/
def State.setOff (s : State) (k : Nat) (out : Option (Nat × Nat)) (off : Bool) : State :=
  let put (s : State) (v : Nat) : State := { s with fab := { s.fab with clsOff := mset 0 s.fab.clsOff k v } }
  let v := mget 0 s.fab.clsOff k
  let others := ((((out.map fun o => s.recvKeys o.1 o.2).getD []).filter (· != k)).map fun j => mget 0 s.fab.clsOff j).filter (· != 0)
  if off then (if v = 0 then put s (others.foldl min (s.now + 1)) else s)
  else if v = 0 then s
  else
    let s := put s 0
    match out, others with
    | some o, [] => s.bumpW Reg.PORT_OFF_CYCLES o.1 (2 * (s.now + 1 - v)) o.2
    | _, _ => s

/-- A receiver judges the free space of a class of an input (R263): OFF at 5,120 bytes or less, ON again at 13,568. -/
def State.judgeBuf (s : State) (t port cls : Nat) (out : Option (Nat × Nat)) : State :=
  let free := s.inSize t port cls - s.heldFlits t port cls * 256
  let k := offKey t port cls
  if mget 0 s.fab.clsOff k = 0 then (if free ≤ 5120 then s.setOff k out true else s)
  else if 13568 ≤ free then s.setOff k out false else s

/-- CLASS_ON_OFF (R241, R263). -/
def State.doClassOnOff (s : State) (cls : Nat) (off : Bool) : BufRef → State
  | .base t port => if port.toNat < 6 ∨ (8 ≤ port.toNat ∧ port.toNat < 14) then
      s.judgeBuf t.val port.toNat cls ((neighbour t.val port.toNat).map fun n => (n, oppPort port.toNat)) else s
  | .cluster c => s.judgeBuf c.tile.val (cluPort (cluKey c)) cls
      (if s.lsite c.tile.val c.site.val < 6 then some (c.tile.val, 8 + s.lsite c.tile.val c.site.val) else none)
  | .stage p => s.judgeBuf (reachHost p.val) (16 + p.val) cls none
  | .far p => s.setOff (farKey p.val cls) (some (reachHost p.val, 6)) off

def execClassOnOff (b : BufRef) (cls : BitVec 2) (off : Bool) (s : State) : Host.Outcome State Fault Refusal :=
  .next (s.moved fun s => s.doClassOnOff cls.toNat off b)

/-- A vat runs again and its injectors go on. -/
def State.runVat (s : State) (id : Nat) : State := (s.resumeVat id).pumpAll

/-! ### Issue -/

/-- The core ids, pails and ranges of R139, R18, R28 and R165. -/
def State.fopAddrOk (s : State) (ck : Nat) (kind : FKind) (priv : Bool) (remote loc len : Nat) : Bool :=
  let r := pailAddr remote
  let l := pailAddr loc
  let svcDst := priv && kind != .churn
  let dstOk := if kind == .churn && priv then s.isModule r.mod && cidOk r.id 5 else s.coreOk (s.vatIdOf ck) svcDst r.mod r.id
  let locOk := decide (l.mod = s.ownMod) && cidOk l.id (if priv then 6 else 5) && (match s.physCore priv l.id with
    | some core => cluOfCore core == ck && (s.pail core l.pail).usable priv (kind == .get) && decide (l.off + len ≤ (s.pail core l.pail).size)
    | none => false)
  r.high == 0 && l.high == 0 && dstOk && locOk && decide (len % 8 = 0) && decide (8 ≤ len) && decide (len ≤ 16777216) &&
    decide (r.off + len ≤ 2 ^ 24) && (priv || (!(r.pail == 0 || r.pail == 63) && !(l.pail == 0 || l.pail == 63)))

/-- The conditions of R284 on RS3[63:32]. -/
def State.churnOk (s : State) (ck : Nat) (priv : Bool) (hi : Nat) : Bool :=
  let v := bitsOf hi 30 23
  let vat := if priv then v else s.vatIdOf ck
  let mode := s.chMode (ckTile ck) vat
  decide (hi < 2 ^ 31) && (if priv then v != 0 && (s.vat? v).isSome else v == 0) &&
    (bitsOf hi 22 14 == 0 || (mode != 0 && mode != 2))

/-- F.PUT, F.GET and F.CHURN (R139, R140, R248, R254): the checks, ILLEGAL, ALIGN, then BOUNDS, and the start of the
operation. A 17th outstanding operation stalls the S-core. ALIGN and BOUNDS report RS1 whichever operand fails (log 81). -/
def State.fop (s : State) (c : Clu) (f : FmtF) (kind : FKind) : State :=
  let ck := cluKey c
  s.scalar ck (f.rsv == 0 && (f.route == 1 || (f.route == 0 && f.rr == 0))) fun sc s =>
    let remote := sc.getX f.rs1.toNat
    let loc := sc.getX f.rs2.toNat
    let rs3 := (sc.getX f.rs3.toNat).toNat
    let len := rs3 % 2 ^ 32
    let hi := rs3 / 2 ^ 32
    let rr := (sc.getX f.rr.toNat).toNat
    let d := s.destOf (remote.toNat % 2 ^ 63)
    match (List.range 16).find? fun i => (s.fops ck).all fun o => o.opid != i with
    | none => s
    | some opid =>
      if remote.toNat % 8 ≠ 0 ∨ loc.toNat % 8 ≠ 0 then s.trap ck cAlign remote
      else if !s.fopAddrOk ck kind sc.priv remote.toNat loc.toNat len || (kind == .churn && !s.churnOk ck sc.priv hi) ||
          (kind != .churn && decide (hi ≠ 0)) || (f.route == 1 && !s.routeOk (ckTile ck) rr d.1 d.2) then
        s.trap ck cBounds remote
      else
        let vat := if sc.priv then (if kind = .churn then bitsOf hi 30 23 else 0) else s.vatIdOf ck
        let step := if kind = .churn then 8160 else 8192
        let total := if kind = .churn ∧ s.chMode (ckTile ck) vat = 2 then 1 else (len + step - 1) / step
        let o : FOp := ⟨opid, sc.nextF, kind, remote, loc, len, hi, if f.route = 1 then some rr else none, f.sigCtr.toNat, f.sigEn,
          vat, sc.priv, 0, total, [], [], 0, none, [], none⟩
        let o := { o with since := if s.injHeld (ckTile ck) o.cls o.vat then none else some s.now }
        let s := s.setFops ck (s.fops ck ++ [o])
        let s := s.wr Reg.DI_STATUS_OUTSTANDING ck (s.rd Reg.DI_STATUS_OUTSTANDING ck + 2 ^ opid)
        ((s.retire ck { sc with nextF := sc.nextF + 1 }).pump ck)

/-- F.PUT (R139, R248). -/
def execFPut (c : Clu) (f : FmtF) (s : State) : Host.Outcome State Fault Refusal := .next (s.fop c f .put)
/-- F.GET (R139, R248). -/
def execFGet (c : Clu) (f : FmtF) (s : State) : Host.Outcome State Fault Refusal := .next (s.fop c f .get)
/-- F.CHURN (R284, R285). -/
def execFChurn (c : Clu) (f : FmtF) (s : State) : Host.Outcome State Fault Refusal := .next (s.fop c f .churn)

/-- F.WAIT (Table 5.12): waits until no F operation of this S-core is outstanding. -/
def execFWait (c : Clu) (f : FmtF) (s : State) : Host.Outcome State Fault Refusal :=
  .next (s.scalar (cluKey c) (decide (f = ⟨0, 0, 0, 0, 0, false, 0, 0⟩)) fun sc s =>
    if s.fops (cluKey c) = [] then s.retire (cluKey c) sc else s)

/-- F_OPERATION_COMPLETE (R140, R249): every packet has been acknowledged; the operation signals. -/
def State.doFopComplete (s : State) (ck opid : Nat) : State :=
  match (s.fops ck).find? fun o => o.opid == opid with
  | none => s
  | some o =>
    if o.sent = o.total ∧ o.acked.length = o.total then
      let s := s.dropFop ck opid
      if o.sigEn then s.signal ck o.sigCtr else s
    else s

def execFOperationComplete (c : Clu) (opid : BitVec 4) (s : State) : Host.Outcome State Fault Refusal :=
  .next (s.doFopComplete (cluKey c) opid.toNat)

/-! ### S-MEM accesses that fail (R128, R252) -/

/-- An access is answered. -/
def State.dropAcc (s : State) (ck : Nat) (a : RemAcc) : State :=
  s.setSc ck { s.sc ck with accs := (s.sc ck).accs.filter fun b => !(b.dst == a.dst && b.seq == a.seq) }

/-- The cause of an access that was refused (R111, R128): a precise exception at a load or AMO, for a store one that is
pending with the store's address. -/
def State.failAcc (s : State) (ck : Nat) (a : RemAcc) (cause : Nat) : State :=
  let s := s.dropAcc ck a
  if a.op = opStore then s.pend ck ⟨cause, 4, 0, 0, 0, a.priv, a.addr⟩
  else if (s.sc ck).wait = some .load then s.trap ck cause a.addr
  else s

/-! ### Inject-pause and epochs (9.7) -/

/-- Sets a DYN_CTL field on every tile. -/
def State.wrDyn (s : State) (f : Fld) (v : Nat) : State := s.each (List.range 36) fun s t => s.wr f t v

/-- A service-privileged F instruction that reads RS1 alone (Table 5.12): PRIV at vat privilege. -/
def State.fsvc (s : State) (c : Clu) (f : FmtF) (legal : Bool) (act : Word → SCore → State → State) : State :=
  s.scalar (cluKey c) (legal && f.rsv == 0 && f.route == 0 && f.rr == 0 && f.rs3 == 0) fun sc s =>
    if !sc.priv then s.trapNoAddr (cluKey c) cPriv else act (sc.getX f.rs1.toNat) sc s

/-- F.IPAUSE (R267): inject-pause, panel-wide, for the classes in RS1[3:0]. -/
def execFIpause (c : Clu) (f : FmtF) (s : State) : Host.Outcome State Fault Refusal :=
  .next (s.fsvc c f (f.rs2 == 0 && f.sigCtr == 0 && !f.sigEn) fun w sc s =>
    let m := s.rd Reg.DYN_CTL_INJ_PAUSE 0 ||| w.toNat % 16
    let s := { s with fab := { s.fab with pauseAt := s.now } }
    ((s.wrDyn Reg.DYN_CTL_INJ_PAUSE m).retime).retire (cluKey c) sc)

/-- F.IRESUME (R269): clears it; the held operations inject with the current epoch and their timers go on. -/
def execFIresume (c : Clu) (f : FmtF) (s : State) : Host.Outcome State Fault Refusal :=
  .next (s.fsvc c f (f.rs2 == 0 && f.sigCtr == 0 && !f.sigEn) fun w sc s =>
    let m := s.rd Reg.DYN_CTL_INJ_PAUSE 0
    let m := m - (m &&& w.toNat % 16)
    ((((s.wrDyn Reg.DYN_CTL_INJ_PAUSE m).retime).retire (cluKey c) sc).pumpAll))

/-- F.EPOCH (R268): a change of the active tables and of the epoch begins, or waits until the one in progress has ended. -/
def execFEpoch (c : Clu) (f : FmtF) (s : State) : Host.Outcome State Fault Refusal :=
  .next (s.fsvc c f (f.rs1 == 0 && f.rs2 == 0 && f.sigCtr == 0 && !f.sigEn) fun _ sc s =>
    let s := if s.fab.epochBusy then { s with fab := { s.fab with epochQueue := s.fab.epochQueue ++ [cluKey c] } }
      else ({ s with fab := { s.fab with epochBusy := true } }).wrDyn Reg.DYN_CTL_COMMIT_BUSY 1
    s.retire (cluKey c) sc)

/-- Copies every tile's staged table into its active table and advances the epoch (R268, step 3). -/
def State.commitTables (s : State) : State :=
  let s := s.each (List.range 36) fun s t =>
    let s := s.each (List.range 36) fun s i => s.wr Reg.TILE_ACT_ENTRY t (s.rd Reg.TILE_STG_MASK t i) i
    s.each (List.range 64) fun s m =>
      s.wr Reg.MOD_ACT_ENTRY t (s.rd Reg.MOD_STG_DIR t m + s.rd Reg.MOD_STG_EXIT_TILE t m * 8) m
  let s := s.wrDyn Reg.DYN_CTL_EPOCH ((s.rd Reg.DYN_CTL_EPOCH 0 + 1) % 4)
  match s.fab.epochQueue with
  | [] => ({ s with fab := { s.fab with epochBusy := false } }).wrDyn Reg.DYN_CTL_COMMIT_BUSY 0
  | _ :: r => { s with fab := { s.fab with epochQueue := r } }

/-- EPOCH_COMMIT (R268): the drain reads zero; the tables change. -/
def State.doEpochCommit (s : State) : State :=
  if s.fab.epochBusy ∧ s.pausedPkts = [] then s.commitTables else s

def execEpochCommit (s : State) : Host.Outcome State Fault Refusal := .next s.doEpochCommit

/-- EPOCH_DRAIN_TIMEOUT (R268): 50 µs after the last F.IPAUSE every router discards the packets of paused classes it
still holds, with NACK EPOCH, and the tables change. -/
def State.doEpochDrain (s : State) : State :=
  if s.fab.epochBusy ∧ s.pausedPkts ≠ [] ∧ s.fab.pauseAt + us 50 ≤ s.now then
    (s.each s.pausedPkts fun s p => (s.bump Reg.DYN_DROP0_DRAIN_DROP p.at_).nackDrop p cEpoch).commitTables
  else s

def execEpochDrainTimeout (s : State) : Host.Outcome State Fault Refusal := .next s.doEpochDrain

end Sys2Proof.Machine
end

