-- ==== Sys2Proof/Machine/Churn.lean ====
section
/-! DEFINITION. Churn: nodes, sinks, windows and step records (10.2 to 10.8). A partial that arrives for a chunk of
another shape, or after its window's deadline, goes on unstaged (log 22). -/

namespace Sys2Proof.Machine

/-! ### Churn blocks and sums -/

/-- A churn block as read from a payload (Table 10.4). -/
structure ChBlock where
  step : Nat
  tree : Nat
  count : Nat
  mask : Nat
  scale : Nat
  fmt : Nat
  uncomb : Bool
  ovf : Bool
  deriving DecidableEq, Repr

def chBlock (bs : List Byte) : ChBlock :=
  let w (i : Nat) : Nat := leNat (ofBytes ((bs.drop (8 * i)).take 8))
  ⟨w 0 % 2 ^ 32, bitsOf (w 0) 39 32, bitsOf (w 0) 63 40, w 1, w 2 % 2 ^ 16, bitsOf (w 2) 20 16, bitOf (w 2) 21, bitOf (w 2) 22⟩

def ChBlock.bytes (b : ChBlock) : List Byte := churnBlock b.step b.tree b.count b.mask b.scale b.fmt b.uncomb b.ovf

/-- MODE of an element format (Table 10.2). -/
def fmtMode (fmt : Nat) : Nat := if fmt = 0x01 then 0 else if fmt = 0x11 then 1 else 2

/-- One element added (R287): binary32 rounded to nearest even, or INT64 saturating, with the overflow. -/
def addElem (fmt : Nat) (x y : List Byte) : List Byte × Bool :=
  let a := leNat (ofBytes x)
  let b := leNat (ofBytes y)
  if fmt = 0x01 then
    (toBytes (leBytes 4 (fpRound fp32 0 0 false (Num.add 0 (fpDecode fp32 a) (fpDecode fp32 b))).1), false)
  else
    let z := toSigned 64 a + toSigned 64 b
    let hi : Int := (2 ^ 63 - 1 : Nat)
    let r := if hi < z then hi else if z < -hi - 1 then -hi - 1 else z
    (toBytes (leBytes 8 (ofSigned 64 r)), r != z)

/-- Elements added pairwise. -/
def addElems (fmt : Nat) : Nat → List Byte → List Byte → List Byte × Bool
  | 0, x, _ => (x, false)
  | n + 1, x, y =>
    if x = [] then ([], false)
    else
      let k := if fmt = 0x01 then 4 else 8
      let e := addElem fmt (x.take k) (y.take k)
      let r := addElems fmt n (x.drop k) (y.drop k)
      (e.1 ++ r.1, e.2 || r.2)

/-- STEP a is older than b (R299). -/
def stepOlder (a b : Nat) : Bool :=
  let d := (b + 2 ^ 32 - a % 2 ^ 32) % 2 ^ 32
  decide (1 ≤ d) && decide (d < 2 ^ 31)

/-! ### Staging (R282, R290) -/

def Part.units (p : Part) : Nat := (32 + p.elems.length + 255) / 256
def Staged.units (g : Staged) : Nat := match g.sent with
  | some p => (p.len + 255) / 256
  | none => (g.parts.map Part.units).sum

def State.staging (s : State) (t : Nat) : Nat := ((s.ren.staged.filter fun g => g.t == t).map Staged.units).sum

/-- USED and PEAK follow the staging of a tile. -/
def State.showStaging (s : State) (t : Nat) : State :=
  let u := s.staging t
  let s := (s.wr Reg.CH_STAGE_USED t u).wr Reg.CH_STAGE_PEAK t (max u (s.rd Reg.CH_STAGE_PEAK t))
  { s with ren := { s.ren with peak := mset 0 s.ren.peak t (max u (mget 0 s.ren.peak t)) } }

def State.setStaged (s : State) (t : Nat) (l : List Staged) : State := ({ s with ren := { s.ren with staged := l } }).showStaging t

/-- The fixed order of R287. -/
def partKey (p : Part) : Nat :=
  (p.port * 2 ^ 7 + ((List.range 64).find? fun i => bitOf p.mask.toNat i).getD 64) * 2 ^ 20 + p.src

def insertPart (p : Part) : List Part → List Part
  | [] => [p]
  | q :: r => if partKey p < partKey q then p :: q :: r else q :: insertPart p r

/-- The partials of a chunk added left to right. -/
def combine (x y : Part) : Part :=
  let r := addElems x.fmt x.elems.length x.elems y.elems
  { x with mask := x.mask ||| y.mask, count := x.count + y.count, uncomb := x.uncomb || y.uncomb,
           ovf := x.ovf || y.ovf || r.2, elems := r.1 }

/-- The source that a node writes into what it sends (R246, R288), and its number as a sender. -/
def nodeFrom (t : Nat) : Nat := 2 ^ 20 + t

/-- A node forwards what it has staged of a chunk, combined, and keeps it until its answer comes (R288); an inject-pause of the churn
class holds the packet back (R267). -/
def State.forwardStaged (s : State) (g : Staged) : State :=
  let rest := s.ren.staged.filter fun h => h ≠ g
  match g.parts.foldl (fun l p => insertPart p l) [] with
  | [] => s.setStaged g.t rest
  | p :: r =>
    let c := r.foldl combine p
    let pay := churnBlock g.step g.tree c.count c.mask.toNat c.scale c.fmt c.uncomb c.ovf ++ c.elems
    let k : Pkt := { blankPkt with
      cls := 2, op := opChurn, rmode := p.rmode, route := p.route / 8 ^ p.hop, vat := g.vat, daddr := g.daddr, dmod := g.dmod,
      dtile := g.dtile, src := s.baseSid g.t, redop := fmtMode c.fmt, skim := p.skim, len := pay.length, payload := pay,
      owner := .node g.t s.fab.nextPid, from_ := nodeFrom g.t, at_ := g.t, passed := g.t + 1 }
    let s := s.bumpW Reg.CH_CNT0_COMBINED g.t (if r = [] then 0 else r.length + 1)
    let s := { s with fab := { s.fab with nextPid := s.fab.nextPid + 1 } }
    (s.sendBy none true k).setStaged g.t (rest ++ [{ g with parts := [], sent := some k }])

/-- Chunks of a node that are staged and not yet forwarded. -/
def State.stagedAt (s : State) (t node : Nat) (p : Staged → Bool) : List Staged :=
  s.ren.staged.filter fun g => g.t == t && g.node == node && g.sent.isNone && p g

/-! ### Windows (R298 to R301) -/

def ptKey (t point : Nat) : Nat := t * 128 + point

def State.win? (s : State) (t point : Nat) : Option Window := s.ren.wins.find? fun w => w.t == t && w.point == point

def State.setWin (s : State) (w : Window) : State :=
  { s with ren := { s.ren with wins := s.ren.wins.map fun v => if v.t = w.t ∧ v.point = w.point then w else v } }

/-- Has a window's deadline passed, or its tail limit (`n` = 2)? -/
def Window.past (w : Window) (now n : Nat) : Bool := w.skim != 0 && decide (w.tOpen + n * us (10 * w.skim) ≤ now)

/-- Removes a window and remembers its STEP. -/
def State.endWin (s : State) (w : Window) : State :=
  { s with ren := { s.ren with wins := s.ren.wins.filter fun v => !(v.t == w.t && v.point == w.point)
                               closed := mset 0 s.ren.closed (ptKey w.t w.point) (w.step + 1) } }

/-- A node's window closes (R288, R300): what waits for an answer is freed, what is still staged goes on (log 22). -/
def State.closeNode (s : State) (w : Window) : State :=
  let s := s.setStaged w.t (s.ren.staged.filter fun g => !(g.t == w.t && g.node == w.point && g.step == w.step && g.sent.isSome))
  (s.each (s.stagedAt w.t w.point fun g => g.step == w.step) State.forwardStaged).endWin w

/-! ### Sinks (R291, R292, R301, R304) -/

/-- Chunks of a sink's shard. -/
def State.sinkChunks (s : State) (t k mode : Nat) : Nat :=
  if mode = 2 then 1 else (s.rd Reg.CH_SINK_SHARD_BYTES_M1 t k + 8160) / 8160

/-- The scratch offset of a log entry, where it lies in LOG_PAIL. -/
def State.sinkLog (s : State) (t k core c : Nat) : Option Nat :=
  let p := s.pail core (s.rd Reg.CH_SINK_LOG_PAIL t k)
  let off := s.rd Reg.CH_SINK_LOG_OFF t k + 16 * c
  if p.takes true true off 16 then some (p.base + off) else none

/-- A log entry (Table 10.5). -/
structure LogEnt where
  count : Nat
  mask : Nat
  multi : Bool
  ovf : Bool
  bad : Bool
  deriving DecidableEq, Repr

/-- Reads the log entries of a window's step; an entry of another step, or one that cannot be read, counts nothing. -/
def State.sinkLogs (s : State) (w : Window) (core : Nat) : List LogEnt :=
  (List.range (s.sinkChunks w.t (w.point - 64) w.mode)).map fun c =>
    match s.sinkLog w.t (w.point - 64) core c with
    | none => ⟨0, 0, false, false, false⟩
    | some a =>
      let w0 := s.ld (scrKey core a) 8
      if (s.marks core a 16 2).isEmpty && w0 % 2 ^ 32 == w.step then
        ⟨bitsOf w0 55 32, s.ld (scrKey core (a + 8)) 8, bitOf w0 56, bitOf w0 57, bitOf w0 58⟩
      else ⟨0, 0, false, false, false⟩

/-- The step record (Table 10.9). -/
def State.stepRecord (s : State) (w : Window) (logs : List LogEnt) (gap sup : Bool) : List Nat :=
  let k := w.point - 64
  let count := ((logs.head?).map LogEnt.count).getD 0
  let quorum := s.rd Reg.CH_SINK_QUORUM w.t k
  let mask := w.admitted.toNat
  let q := decide (count < quorum)
  let g := gap || logs.any fun e => e.mask != mask || e.count != count
  let sc := logs.any LogEnt.bad
  let ov := logs.any LogEnt.ovf
  let mc := (logs.filter LogEnt.multi).length
  let status := if q || g || sc || ov || sup then 2 else 1
  [1 + w.mode * 2 ^ 4 + status * 2 ^ 6 + b2n q * 2 ^ 8 + b2n g * 2 ^ 9 + b2n sc * 2 ^ 10 + b2n ov * 2 ^ 12 + b2n sup * 2 ^ 13 +
      b2n (decide (0 < mc)) * 2 ^ 16 + s.rd Reg.CH_SINK_SKIM_EN w.t k * 2 ^ 17 + w.tree * 2 ^ 24 + w.vat * 2 ^ 32,
    w.step + count * 2 ^ 32,
    quorum + w.skim * 2 ^ 24 + w.scale * 2 ^ 38,
    mask,
    (BitVec.ofNat 64 (s.rd Reg.CH_SINK_EXPECT_MASK w.t k) &&& ~~~w.admitted).toNat,
    w.lateMask.toNat,
    w.tOpen % 2 ^ 64,
    (s.now - w.tOpen) % 2 ^ 32 + min w.latePkts 65535 * 2 ^ 32 + min mc 65535 * 2 ^ 48]

/-- A sink closes its window: the record, words 1 to 7 before word 0, and the signal (R292, R301, R304). -/
def State.closeSink (s : State) (w : Window) (gap sup : Bool) : State :=
  let k := w.point - 64
  match s.sinkCore w.t k with
  | none => s.endWin w
  | some core =>
    let ws := s.stepRecord w (s.sinkLogs w core) gap sup
    let p := s.pail core (s.rd Reg.CH_SINK_REC_PAIL w.t k)
    let off := s.rd Reg.CH_SINK_REC_OFF w.t k
    let bs := toBytes (ws.flatMap (leBytes 8))
    let s := if p.takes true true off 64 then
        (s.writeScr core (p.base + off + 8) (bs.drop 8)).writeScr core (p.base + off) (bs.take 8)
      else s
    let s := s.endWin w
    if s.rd Reg.CH_SINK_SIG_EN w.t k = 1 then s.signal (cluOfCore core) (s.rd Reg.CH_SINK_SIG_CTR w.t k) else s

/-- Does a sink's window close now (R292, R301)? -/
def State.trySink (s : State) (w : Window) : State :=
  let k := w.point - 64
  let logs := match s.sinkCore w.t k with
    | some core => s.sinkLogs w core
    | none => []
  if s.rd Reg.CH_SINK_SKIM_EN w.t k = 0 then
    let total := s.rd Reg.CH_SINK_TOTAL w.t k
    if logs.any fun e => decide (total < e.count) then s.closeSink w true false
    else if logs.all fun e => e.count == total then s.closeSink w false false
    else s
  else if w.past s.now 1 then
    if logs.all (fun e => e.mask == w.admitted.toNat && e.count == ((logs.head?).map LogEnt.count).getD 0) then s.closeSink w false false
    else s
  else if logs.all fun e => e.mask == s.rd Reg.CH_SINK_EXPECT_MASK w.t k then s.closeSink w false false
  else s

def State.closeWin (s : State) (w : Window) (sup : Bool) : State :=
  let s := if sup then s.bump Reg.CH_CNT2_SUPERSEDED w.t else s
  if w.point < 64 then s.closeNode w else s.closeSink w false sup

/-! ### Sorting (Table 10.7) -/

/-- What becomes of a packet at a reducing point. -/
inductive Sorting where
  | admitted
  | tail
  | discard
  deriving DecidableEq, Repr

/-- Is a step older than the open window of a point, or that of a closed one? -/
def State.stale (s : State) (t point step : Nat) : Bool :=
  let last := mget 0 s.ren.closed (ptKey t point)
  (match s.win? t point with
   | some w => stepOlder step w.step
   | none => false) || (last != 0 && (step == last - 1 || stepOlder step (last - 1)))

/-- Sorts a packet. `timed` says whether the point has a deadline; a sink without one keeps windows by step in the same
way (log 23). -/
def State.sortPkt (s : State) (t point : Nat) (timed : Bool) (p : Pkt) (b : ChBlock) : State × Sorting :=
  if s.stale t point b.step then
    let s := s.bump Reg.CH_CNT1_STALE t
    (match s.win? t point with
      | some w => s.setWin { w with latePkts := w.latePkts + 1 }
      | none => s, .discard)
  else
    let s := match s.win? t point with
      | some w => if w.step = b.step then s else s.closeWin w true
      | none => s
    match s.win? t point with
    | none =>
      let w : Window := ⟨t, point, p.vat, b.tree, b.step, s.now, if timed then p.skim else 0, w64 b.mask, 0, 0, b.scale,
        fmtMode b.fmt, false⟩
      ({ s with ren := { s.ren with wins := s.ren.wins ++ [w] } }, .admitted)
    | some w =>
      let m := w64 b.mask
      if !w.past s.now 1 then (s.setWin { w with admitted := w.admitted ||| m }, .admitted)
      else if m &&& ~~~w.admitted = 0 then (s, .tail)
      else if m &&& w.admitted = 0 then
        ((s.bump Reg.CH_CNT1_LATE t).setWin { w with lateMask := w.lateMask ||| m, latePkts := w.latePkts + 1 }, .discard)
      else (s.bump Reg.CH_CNT1_SPLIT t, .discard)

/-! ### Rows -/

/-- A churn packet goes on past this tile's node. -/
def State.passNode (s : State) (p : Pkt) : State := s.setPkt { p with passed := p.at_ + 1 }

/-- It goes on with UNCOMB set (R290). -/
def State.passUncomb (s : State) (p : Pkt) (b : ChBlock) : State :=
  (s.bump Reg.CH_CNT0_UNCOMB p.at_).setPkt
    { p with passed := p.at_ + 1, payload := ChBlock.bytes { b with uncomb := true } ++ p.payload.drop 32 }

/-- A node or sink takes a packet into custody, or discards it, and answers ACK as the base die (R261, R286, R289). -/
def State.ackDrop (s : State) (p : Pkt) : State := (s.dropPkt p.pid).reply p p.at_ none opAck 0 []

/-- The input port of a packet in the order of R287: reach stages are port 6. -/
def partPort (p : Pkt) : Nat := if p.inPort < 16 then p.inPort else 6

/-- Has the tile its maximum of open windows, so that a packet which needs a new one goes on (R290)? -/
def State.windowsFull (s : State) (t n : Nat) : Bool :=
  (s.win? t n).isNone && decide (Config.maxWindows ≤ (s.ren.wins.filter fun w => w.t == t).length)

/-- CHURN_STAGE (R287 to R290, R298 to R300): a packet meets the node of a tile. -/
def State.doChurnStage (s : State) (pid : Nat) : State :=
  match s.pkt? pid with
  | none => s
  | some p =>
    if p.op ≠ opChurn ∨ 36 ≤ p.at_ ∨ p.retryAt.isSome ∨ p.held then s
    else if !p.headerOk then s.dropHeader p
    else match s.nodeFor p with
      | none => s
      | some n =>
        if !p.crcOk then (s.dropPkt pid).reply p p.at_ none opResend 0 []
        else
          let t := p.at_
          let b := chBlock p.payload
          let skim := s.rd Reg.CH_NODE_SKIM_NODE t n == 1
          if skim && s.windowsFull t n && !s.stale t n b.step then s.passUncomb p b
          else
          let (s, k) := if skim then s.sortPkt t n true p b else (s, .admitted)
          let same (g : Staged) : Bool := g.vat == p.vat && g.tree == b.tree && g.step == b.step && g.daddr == p.daddr
          let old := (s.stagedAt t n same).head?
          let elems := p.payload.drop 32
          let part : Part := ⟨partPort p, p.src, w64 b.mask, b.count, b.scale, b.fmt, b.uncomb, b.ovf, p.rmode, p.route, p.hop, p.skim,
            p.seq, p.opid, elems⟩
          let fits (g : Staged) : Bool := g.parts.all fun q => q.elems.length == elems.length && q.scale == b.scale && q.fmt == b.fmt
          if k = .discard then s.ackDrop p
          else if k = .tail ∧ old = none then s.passNode p
          else if (old.map fits).getD true = false then (s.bump Reg.CH_CNT0_MISMATCH t).passNode p
          else if 16384 < s.staging t + part.units then s.passUncomb p b
          else
            let g : Staged := old.getD ⟨t, n, p.vat, b.tree, b.step, p.daddr, p.dmod, p.dtile, [], 0, s.now, none⟩
            let g' := { g with parts := g.parts ++ [part], combined := g.combined + 1 }
            let s := (s.setStaged t ((s.ren.staged.filter fun h => h ≠ g) ++ [g'])).ackDrop p
            if s.rd Reg.CH_NODE_EXPECT t n ≤ g'.combined then s.forwardStaged g' else s

def execChurnStage (pid : Nat) (s : State) : Host.Outcome State Fault Refusal := .next (s.moved fun s => s.doChurnStage pid)

/-- HOLD of a node in CK_T cycles (Table 10.10). -/
def State.nodeHold (s : State) (t n : Nat) : Nat :=
  let h := s.rd Reg.CH_NODE_HOLD t n
  if h = 0 then us 100000 else us (10 * h)

/-- NODE_HOLD_EXPIRY (R288): chunks whose first partial has waited HOLD go on. -/
def State.doNodeHold (s : State) (t n : Nat) : State :=
  if s.rd Reg.CH_NODE_SKIM_NODE t n = 1 then s
  else s.each (s.stagedAt t n fun g => decide (g.since + s.nodeHold t n ≤ s.now)) State.forwardStaged

def execNodeHoldExpiry (t : Tile) (node : BitVec 6) (s : State) : Host.Outcome State Fault Refusal :=
  .next (s.doNodeHold t.val node.toNat)

/-- The sink that a packet reaches (R282). -/
def State.sinkOf (s : State) (t vat tree id : Nat) : Option Nat :=
  (List.range 16).find? fun k => s.rd Reg.CH_SINK_VALID t k == 1 && s.rd Reg.CH_SINK_VAT t k == vat &&
    s.rd Reg.CH_SINK_TREE t k == tree && s.rd Reg.CH_SINK_DST_CORE t k == id

/-- The chunk of a packet at its sink; none where R291 refuses it. A packet that names another pail than DST_PAIL lies
outside the shard (log 24). -/
def State.sinkChunk (s : State) (t k : Nat) (a : PailAddr) (mode len : Nat) : Option Nat :=
  let base := s.rd Reg.CH_SINK_DST_OFF t k
  if a.pail = s.rd Reg.CH_SINK_DST_PAIL t k ∧ base ≤ a.off ∧ (a.off - base) % 8160 = 0 ∧
      a.off + len ≤ base + s.rd Reg.CH_SINK_SHARD_BYTES_M1 t k + 1 then some (if mode = 2 then 0 else (a.off - base) / 8160)
  else none

/-- Applies an admitted packet to the shard and its log entry at scratch offset `la` (R291): the first partial of a step is written as
it arrives, a later one of another SCALE is not added; either way another SCALE sets SCALE_BAD. -/
def State.sinkApply (s : State) (core off la : Nat) (w : Window) (b : ChBlock) (elems : List Byte) : State :=
  let w0 := s.ld (scrKey core la) 8
  let fresh := w0 % 2 ^ 32 != b.step
  let e : LogEnt := if fresh then ⟨0, 0, false, false, false⟩
    else ⟨bitsOf w0 55 32, s.ld (scrKey core (la + 8)) 8, bitOf w0 56, bitOf w0 57, bitOf w0 58⟩
  let (s, e) :=
    if fresh then (s.writeScr core off elems, { e with count := b.count, mask := b.mask, ovf := b.ovf, bad := b.scale != w.scale })
    else if b.scale ≠ w.scale then (s, { e with bad := true })
    else
      let r := addElems b.fmt elems.length (s.ldBytes (scrKey core off) elems.length) elems
      (s.writeScr core off r.1, { e with count := e.count + b.count, mask := e.mask ||| b.mask,
                                         multi := e.multi || b.fmt == 0x01, ovf := e.ovf || b.ovf || r.2 })
  s.writeScr core la (toBytes (leBytes 8 (b.step + e.count % 2 ^ 24 * 2 ^ 32 + b2n e.multi * 2 ^ 56 + b2n e.ovf * 2 ^ 57 +
    b2n e.bad * 2 ^ 58) ++ leBytes 8 e.mask))

/-- A packet that is let through to a sink is sorted and applied (R291, R292, R299). -/
def State.sinkTake (s : State) (p : Pkt) (k core la off : Nat) (b : ChBlock) : State :=
  let t := p.at_
  let elems := p.payload.drop 32
  let (s, c) := s.sortPkt t (64 + k) (s.rd Reg.CH_SINK_SKIM_EN t k == 1) p b
  if c = .discard then s.ackDrop p
  else
    let (s, ok1) := s.readScr core la 16 4
    let (s, ok2) := if ok1 then s.readScr core off elems.length 4 else (s, false)
    if !ok2 then (s.dropPkt p.pid).reply p t none opNack cEcc []
    else match s.win? t (64 + k) with
      | none => s
      | some w => ((s.sinkApply core off la w b elems).ackDrop p).trySink w

/-- CHURN_SINK_APPLY (R286, R291, R292, R301). -/
def State.doSinkApply (s : State) (pid : Nat) : State :=
  match s.pkt? pid with
  | none => s
  | some p =>
    if p.op ≠ opChurn ∨ p.retryAt.isSome ∨ p.held ∨ !s.arrived p ∨ (s.nodeFor p).isSome then s
    else if !p.headerOk then s.dropHeader p
    else
      let t := p.at_
      let b := chBlock p.payload
      let a := pailAddr p.daddr.toNat
      let elems := p.payload.drop 32
      let sink := s.sinkOf t p.vat b.tree a.id
      let chunk := sink.bind fun k => s.sinkChunk t k a (fmtMode b.fmt) elems.length
      let la (core : Nat) : Option Nat := sink.bind fun k => chunk.bind fun c => s.sinkLog t k core c
      let (v, core) := s.judgeCore p a.id fun core => (s.pail core a.pail).takes false true a.off elems.length && (la core).isSome
      let off := (s.pail core a.pail).base + a.off
      if !v.below then s.refuse p v none
      else if !s.downOpen p (cluOfCore core) then s
      else match s.down p (cluOfCore core) with
        | (s, none) => s
        | (s, some p) => match v, sink, la core with
          | .go, some k, some la => s.sinkTake p k core la off b
          | .go, _, _ => s.refuse p .bounds none
          | v, _, _ => s.refuse p v none

def execChurnSinkApply (pid : Nat) (s : State) : Host.Outcome State Fault Refusal := .next (s.moved fun s => s.doSinkApply pid)

/-- A reducing point's number: node n or 64 + sink. -/
def pointOf : ReducePoint → Nat
  | .node n => n.toNat
  | .sink k => 64 + k.toNat

/-- WINDOW_DEADLINE (R300, R301). -/
def State.doDeadline (s : State) (t point : Nat) : State :=
  match s.win? t point with
  | none => s
  | some w =>
    if w.passed || !w.past s.now 1 then s
    else
      let s := s.setWin { w with passed := true }
      if point < 64 then s.each (s.stagedAt t point fun g => g.step == w.step) State.forwardStaged else s.trySink { w with passed := true }

def execWindowDeadline (t : Tile) (p : ReducePoint) (s : State) : Host.Outcome State Fault Refusal :=
  .next (s.doDeadline t.val (pointOf p))

/-- WINDOW_TAIL_LIMIT (R300, R301). -/
def State.doTailLimit (s : State) (t point : Nat) : State :=
  match s.win? t point with
  | none => s
  | some w => if w.past s.now 2 then s.closeWin w false else s

def execWindowTailLimit (t : Tile) (p : ReducePoint) (s : State) : Host.Outcome State Fault Refusal :=
  .next (s.doTailLimit t.val (pointOf p))

/-- An answer to what a node forwarded (R288): ACK and NACK free it, RESEND sends it again. -/
def State.nodeAnswer (s : State) (t id op : Nat) : State :=
  let mine (g : Staged) : Bool := match g.sent with
    | some k => k.owner == .node t id
    | none => false
  match s.ren.staged.find? mine with
  | none => s.bump Reg.DYN_DROP2_LOST_REPLY t
  | some g =>
    if op = opResend then
      match g.sent with
      | some k => s.sendBy none true k
      | none => s
    else
      let s := if op = opAck then s else s.bump Reg.CH_CNT1_SINK_NACK t
      s.setStaged t (s.ren.staged.filter fun h => !mine h)

/-- Release or disable of vats (R282, R293): staged partials are discarded, entries and windows cleared. -/
def State.releaseChurn (s : State) (ids : List Nat) : State :=
  let gone := s.ren.staged.filter fun g => ids.contains g.vat
  let s := { s with ren := { s.ren with staged := s.ren.staged.filter fun g => !ids.contains g.vat
                                        wins := s.ren.wins.filter fun w => !ids.contains w.vat } }
  let s := s.each gone fun s g => (s.bump Reg.CH_CNT2_KILLED g.t g.parts.length).showStaging g.t
  s.each (List.range 36) fun s t =>
    let s := s.each ((List.range 64).filter fun n => ids.contains (s.rd Reg.CH_NODE_VAT t n)) fun s n =>
      let s := s.each [Reg.CH_NODE_VALID, Reg.CH_NODE_VAT, Reg.CH_NODE_TREE, Reg.CH_NODE_EXPECT, Reg.CH_NODE_SKIM_NODE,
        Reg.CH_NODE_HOLD] fun s f => s.wr f t 0 n
      { s with ren := { s.ren with closed := mset 0 s.ren.closed (ptKey t n) 0 } }
    s.each ((List.range 16).filter fun k => ids.contains (s.rd Reg.CH_SINK_VAT t k)) fun s k =>
      let s := s.each [Reg.CH_SINK_VALID, Reg.CH_SINK_VAT, Reg.CH_SINK_TREE, Reg.CH_SINK_DST_CORE, Reg.CH_SINK_SIG_EN,
        Reg.CH_SINK_SIG_CTR, Reg.CH_SINK_DST_PAIL, Reg.CH_SINK_SKIM_EN, Reg.CH_SINK_DST_OFF, Reg.CH_SINK_SHARD_BYTES_M1,
        Reg.CH_SINK_LOG_PAIL, Reg.CH_SINK_REC_PAIL, Reg.CH_SINK_LOG_OFF, Reg.CH_SINK_REC_OFF, Reg.CH_SINK_EXPECT_MASK,
        Reg.CH_SINK_TOTAL, Reg.CH_SINK_QUORUM] fun s f => s.wr f t 0 k
      { s with ren := { s.ren with closed := mset 0 s.ren.closed (ptKey t (64 + k)) 0 } }

/-- CH_VAT_WRITE (R283, R305): at tile (0, 0), copied to every tile. -/
def State.doChVat (s : State) (vat v : Nat) : State :=
  if bitsOf v 1 0 = 3 ∨ 10000 < bitsOf v 15 2 then s.wr Reg.CH_STAGE_CFG_CLAMP 0 1
  else s.each (List.range 36) fun s t => (s.wr Reg.CH_VAT_MODE t (bitsOf v 1 0) vat).wr Reg.CH_VAT_SKIM t (bitsOf v 15 2) vat

def execChVatWrite (vat : BitVec 8) (v : Word) (s : State) : Host.Outcome State Fault Refusal :=
  .next (s.doChVat vat.toNat v.toNat)

/-- CH_NODE_WRITE (R305). -/
def State.doChNode (s : State) (t n v : Nat) : State :=
  if bitsOf v 20 17 = 0 then s.wr Reg.CH_STAGE_CFG_CLAMP t 1
  else
    (((((s.wr Reg.CH_NODE_VALID t (bitsOf v 0 0) n).wr Reg.CH_NODE_VAT t (bitsOf v 8 1) n).wr Reg.CH_NODE_TREE t (bitsOf v 16 9) n).wr
      Reg.CH_NODE_EXPECT t (bitsOf v 20 17) n).wr Reg.CH_NODE_SKIM_NODE t (bitsOf v 21 21) n).wr Reg.CH_NODE_HOLD t (bitsOf v 35 22) n

def execChNodeWrite (t : Tile) (node : BitVec 6) (v : Word) (s : State) : Host.Outcome State Fault Refusal :=
  .next (s.doChNode t.val node.toNat v.toNat)

end Sys2Proof.Machine
end

