-- ==== Sys2Proof/Machine/Dvfs.lean ====
section
/-! DEFINITION. CK_C settings of a tile and the voltages that go with them (13.5, R386). -/

namespace Sys2Proof.Machine

/-- Nominal setpoints of VLOG and VMEM (Table 13.4), mV. -/
def vlogNominal (setting : Nat) : Nat := [820, 740, 680, 590].getD setting 590
def vmemNominal (setting : Nat) : Nat := [780, 750, 720, 700].getD setting 700

/-- The setpoints that follow from the setting and the VLOG trim, capped at the domain's maximum (R386, Table 12.3). -/
def State.showVoltage (s : State) (t : Nat) : State :=
  let n := s.rd Reg.CK_STATUS_SETTING t
  (s.wr Reg.PW_DOM_SETPOINT t (min 850 (vlogNominal n + s.rd Reg.CK_STATUS_VTRIM t)) 0).wr Reg.PW_DOM_SETPOINT t (vmemNominal n) 1

/-- A change waits for a held slot, for a spill on a core of the tile, and for the ramp of a die (R390). -/
def State.divBlocked (s : State) (t : Nat) : Bool :=
  s.sch.holdAt.isSome || s.sch.inHeld ||
    (s.pwr.ups.any fun u => u.tile == t && u.rampAt.any fun r => decide (s.now < r + 20160)) ||
    (s.cmp.cores.any fun e => e.1 / 256 == t && e.2.spillReq.isSome && !e.2.spilled) ||
    s.cmp.sc.any fun e => e.1 / 32 == t && e.2.spillReq && !e.2.spilled

/-- The setting changes (R389): the cores stop for a moment and go on. -/
def State.applyDiv (s : State) (t setting : Nat) : State :=
  let s := { s with clk := { s.clk with divWait := mset 0 s.clk.divWait t 0 } }
  ((s.wr Reg.CK_STATUS_SETTING t setting).wr Reg.CK_STATUS_CHANGING t 0).showVoltage t

/-- A request for a setting (R389, R390): carried out, or kept until nothing blocks it. -/
def State.requestDiv (s : State) (t setting : Nat) : State :=
  let s := s.wr Reg.CK_CTL_DIV_REQ t setting
  if s.divBlocked t then
    ({ s with clk := { s.clk with divWait := mset 0 s.clk.divWait t (setting + 1) } }).wr Reg.CK_STATUS_CHANGING t 1
  else s.applyDiv t setting

/-- Kept requests that nothing blocks any more. -/
def State.runDivs (s : State) : State :=
  s.each s.clk.divWait fun s e => if s.divBlocked e.1 then s else s.applyDiv e.1 (e.2 - 1)

end Sys2Proof.Machine
end

