-- ==== Sys2Proof/Machine/Queue.lean ====
section
/-! DEFINITION. The cluster command queues (4.8, 5.4): creating an entry, dispatch, completion, failure and release of a
failed head, and the commands without a descriptor. -/

namespace Sys2Proof.Machine

/-- Opcodes of classes M and V (Tables 5.6, 5.9). -/
def mOps : List Nat := [1, 2, 3]
def vOps : List Nat :=
  [0x01, 0x10, 0x11, 0x12, 0x13, 0x14, 0x15, 0x16, 0x17, 0x18, 0x19, 0x1A, 0x1B, 0x20, 0x28, 0x29, 0x2A, 0x2B, 0x30,
   0x31, 0x32, 0x38, 0x39, 0x3A, 0x40, 0x48, 0x49, 0x4A]

/-- A command without a descriptor: its RS, DPAIL and DOFF must be 0 (Tables 5.6, 5.9). -/
def isSig (isM : Bool) (op : Nat) : Bool := if isM then op == 2 || op == 3 else op == 1

/-- CMD_ENTRY_CREATE (R113, R131): the checks in order ILLEGAL, BOUNDS, ALIGN; a full queue stalls the S-core (R116). -/
def State.doCmdEntryCreate (s : State) (ck : Nat) (isM : Bool) (op : Nat) (f : FmtQ) : State :=
  let q := f.queue.toNat
  let legal := (if isM then mOps else vOps).contains op && f.rsvA == 0 && f.rsvB == 0 &&
    (!isSig isM op || (f.rs == 0 && f.dpail == 0 && f.doff == 0))
  s.scalar ck legal fun sc s =>
    let off := f.doff.toNat + (sc.getX f.rs.toNat).toNat
    if isM != decide (q < 2) then s.trapNoAddr ck cBounds
    else if off % 64 ≠ 0 then s.trap ck cAlign (w64 off)
    else
      let l := s.que (ck * 4 + q)
      if 32 ≤ l.length then
        if sc.fullStall then s
        else (s.setSc ck { sc with fullStall := true }).bump Reg.CQ_STATS_FULL_STALLS (ck * 4 + q)
      else
        (s.setQue (ck * 4 + q) (l ++ [⟨isM, op, f.dpail.toNat, off, sc.cmdtag.toNat % 2 ^ 32, sc.cmdwait, sc.cmdsig, sc.priv,
          .waiting, 0, false, false, false, false, 0, []⟩])).retire ck sc

def execCmdEntryCreate (c : Clu) (isM : Bool) (op : BitVec 8) (f : FmtQ) (s : State) : Host.Outcome State Fault Refusal :=
  .next (s.doCmdEntryCreate (cluKey c) isM op.toNat f)

/-- Is a core able to work: powered, not fenced, neither held nor spilled? -/
def State.coreUp (s : State) (core : Nat) : Bool :=
  let c := s.core core
  s.dieOn (core / 256) (core / 32 % 8) && !s.fenced core && !c.held && !c.spilled

/-- May its queue dispatch: the vat runs, the S-core's context is back, no Spill is pending, no twin instruction claims
the core (R88, R118)? -/
def State.mayDispatch (s : State) (core : Nat) : Bool :=
  let c := s.core core
  s.coreUp core && c.spillReq.isNone && !c.twin && !(s.sc (cluOfCore core)).spilled && !s.vatFrozen (s.vatIdOf (cluOfCore core))

/-- Replaces the head of a queue. -/
def State.setHead (s : State) (qk : Nat) (e : QEntry) : State := s.setQue qk (e :: (s.que qk).tail)

/-- The counter condition of R114. -/
def State.waitMet (s : State) (ck : Nat) (e : QEntry) : Bool :=
  !e.wait.getLsbD 4 || ctrReached (s.ctr ck (e.wait.toNat % 16)) (e.wait.toNat / 2 ^ 32)

/-- QUEUE_DISPATCH (R114): the head is dispatched once its counter condition holds. -/
def State.doQueueDispatch (s : State) (ck q : Nat) : State :=
  match (s.que (ck * 4 + q)).head? with
  | none => s
  | some e =>
    if e.st = .waiting ∧ s.mayDispatch (coreOf ck q) ∧ s.waitMet ck e then s.setHead (ck * 4 + q) { e with st := .running }
    else s

def execQueueDispatch (c : Clu) (q : Queue) (s : State) : Host.Outcome State Fault Refusal :=
  .next (s.doQueueDispatch (cluKey c) q.val)

/-- The running head of a queue when it is this command and its core can work. -/
def State.running (s : State) (ck q : Nat) (isM : Bool) (op : Nat) : Option QEntry :=
  match (s.que (ck * 4 + q)).head? with
  | none => none
  | some e => if e.st = .running ∧ e.isM = isM ∧ e.op = op ∧ s.coreUp (coreOf ck q) then some e else none

/-- A command's work has ended with a cause, 0 for none. -/
def State.endWork (s : State) (ck q : Nat) (e : QEntry) (cause arith : Nat) : State :=
  s.setHead (ck * 4 + q) { e with st := .ended cause, arith := arith % 256 }

/-- A command that only waits and signals (Table 5.6, Table 5.9, R149). -/
def State.doSig (s : State) (ck q : Nat) (isM : Bool) (op : Nat) : State :=
  match s.running ck q isM op with
  | none => s
  | some e => s.endWork ck q e 0 0

def execMSig (c : Clu) (q : Queue) (s : State) : Host.Outcome State Fault Refusal := .next (s.doSig (cluKey c) q.val true 2)
def execMLdw (c : Clu) (q : Queue) (s : State) : Host.Outcome State Fault Refusal := .next (s.doSig (cluKey c) q.val true 3)
def execVSig (c : Clu) (q : Queue) (s : State) : Host.Outcome State Fault Refusal := .next (s.doSig (cluKey c) q.val false 1)

/-- VALID of an M-core's progress record becomes 0 (R81, R117). -/
def State.recInvalid (s : State) (core : Nat) : State :=
  let off := pail63At (slotOf core) + 0x38
  let w := s.ld (scrKey core off) 8
  s.writeScr core off (toBytes (leBytes 8 (w - (w / 2 ^ 32 % 2) * 2 ^ 32)))

/-- VALID becomes 0 in every record of a queue's M.MMA: in twin mode M1's too (R81, R88). -/
def State.recsInvalid (s : State) (ck q : Nat) : State :=
  let s := s.recInvalid (coreOf ck q)
  if q = 0 ∧ (s.core (coreOf ck 1)).twin then s.recInvalid (coreOf ck 1) else s

/-- CQ_LAST of a queue (Table 4.7). -/
def State.setLast (s : State) (qk : Nat) (e : QEntry) (cause : Nat) : State :=
  ((s.wr Reg.CQ_LAST_TAG qk e.tag).wr Reg.CQ_LAST_ARITH_STATUS qk e.arith).wr Reg.CQ_LAST_CAUSE qk cause

/-- Ends a twin claim of M1 (R88). -/
def State.freeTwin (s : State) (ck q : Nat) : State :=
  if q = 0 ∧ (s.core (coreOf ck 1)).twin then
    s.setCore (coreOf ck 1) { s.core (coreOf ck 1) with twin := false, run := none }
  else s

/-- COMMAND_COMPLETION (R114, R135, R81, Table 4.7): the record, VALID = 0 in an M.MMA's progress record, CQ_LAST, the
sticky flags, the count; the entry leaves the queue and its counter rises. -/
def State.doCommandCompletion (s : State) (ck q : Nat) : State :=
  match (s.que (ck * 4 + q)).head? with
  | none => s
  | some e =>
    if e.st = .ended 0 then
      let qk := ck * 4 + q
      let core := coreOf ck q
      let s := if e.isM ∧ e.op = 1 then s.recsInvalid ck q else s
      let s := ((s.writeRec core e 0).setLast qk e 0).bumpW Reg.CQ_STATS_COMPLETED qk
      let s := s.wr Reg.CQ_STICKY_ARITH_OR qk (s.rd Reg.CQ_STICKY_ARITH_OR qk ||| e.arith)
      let s := if e.oob then s.wr Reg.CQ_STICKY_IDX_OOB qk 1 else s
      let s := (s.setCore core { s.core core with run := none }).freeTwin ck q
      let s := s.setQue qk (s.que qk).tail
      if e.sig.getLsbD 4 then s.signal ck (e.sig.toNat % 16) else s
    else s

def execCommandCompletion (c : Clu) (q : Queue) (s : State) : Host.Outcome State Fault Refusal :=
  .next (s.doCommandCompletion (cluKey c) q.val)

/-- The exception that a failed head delivers (R117, R145). -/
def State.queueExc (s : State) (ck q cause : Nat) (e : QEntry) : Exc :=
  ⟨cause, q, 0, 0, e.tag, e.priv, w64 ((s.pail (coreOf ck q) e.pail).base + e.off)⟩

/-- COMMAND_FAILURE (R117, R135): the queue halts with the command at its head, marked failed; the S-core's exception
becomes pending. -/
def State.doCommandFailure (s : State) (ck q : Nat) : State :=
  match (s.que (ck * 4 + q)).head? with
  | none => s
  | some e =>
    match e.st with
    | .ended cause =>
      if cause = 0 then s
      else
        let qk := ck * 4 + q
        let core := coreOf ck q
        let s := ((s.writeRec core e cause).setLast qk e cause).bump Reg.CQ_STATS_FAILURES qk
        let s := (s.setCore core { s.core core with run := none }).freeTwin ck q
        (s.setHead qk { e with st := .failed cause }).pend ck (s.queueExc ck q cause e)
    | _ => s

def execCommandFailure (c : Clu) (q : Queue) (s : State) : Host.Outcome State Fault Refusal :=
  .next (s.doCommandFailure (cluKey c) q.val)

/-- A failed head is released: its QDLV bit clears (R144) and an exception of it that has not been delivered yet is
dropped with it. -/
def State.released (s : State) (ck q : Nat) : State :=
  let c := s.sc ck
  s.setSc ck { c with qdlv := c.qdlv &&& ~~~((1 : BitVec 4) <<< q), excs := c.excs.filter fun e => e.src != q }

/-- Is the head of a queue failed (HEAD = 5)? -/
def State.headFailed (s : State) (qk : Nat) : Bool :=
  match (s.que qk).head? with
  | some e => (match e.st with
    | .failed _ => true
    | _ => false)
  | none => false

/-- RETRY (R117): the failed command is dispatched again; ignored unless HEAD = 5. -/
def State.doRetry (s : State) (ck q : Nat) : State :=
  if s.headFailed (ck * 4 + q) then
    match (s.que (ck * 4 + q)).head? with
    | some e => (s.setHead (ck * 4 + q) { e with st := .waiting, arith := 0, oob := false, resumed := false,
                                                 restarted := false, noRec := false, fails := 0, excess := [] }).released ck q
    | none => s
  else s

def execRetry (c : Clu) (q : Queue) (s : State) : Host.Outcome State Fault Refusal := .next (s.doRetry (cluKey c) q.val)

/-- SKIP (R117): the failed command is dropped without signalling; ignored unless HEAD = 5. -/
def State.doSkip (s : State) (ck q : Nat) : State :=
  if s.headFailed (ck * 4 + q) then (s.setQue (ck * 4 + q) (s.que (ck * 4 + q)).tail).released ck q else s

def execSkip (c : Clu) (q : Queue) (s : State) : Host.Outcome State Fault Refusal := .next (s.doSkip (cluKey c) q.val)

/-- FLUSH (R117): every entry is dropped; a running or held head is stopped as an Abandon stops it, an interrupted M
head's record is marked VALID = 0. -/
def State.doFlush (s : State) (ck q : Nat) : State :=
  let qk := ck * 4 + q
  let core := coreOf ck q
  let s := match (s.que qk).head? with
    | some e => if e.st = QSt.interrupted ∧ q < 2 then s.recsInvalid ck q else s
    | none => s
  let s := (s.setCore core { s.core core with run := none }).freeTwin ck q
  (s.setQue qk []).released ck q

def execFlush (c : Clu) (q : Queue) (s : State) : Host.Outcome State Fault Refusal := .next (s.doFlush (cluKey c) q.val)

end Sys2Proof.Machine
end

