-- ==== Sys2Proof/Machine/MatrixCalc.lean ====
section
/-! DEFINITION. The matrix engine's arithmetic and geometry (02, 3.1 to 3.5): operand classes, the fold order, the
descriptor's checks, block sums, float chunks and write-out. -/

namespace Sys2Proof.Machine

/-! ### Operand classes -/

/-- Operand classes of Table 2.5. -/
inductive MClass where
  | fp8 | mx | int8 | ql4 | bf16 | fp16 | fp32
  deriving DecidableEq, Repr

/-- The class of a pair of formats, in either order (R45). -/
def mClass (a b : Nat) : Option MClass :=
  let f8 (x : Nat) : Bool := [4, 5, 8, 9].contains x
  let m64 (x : Nat) : Bool := [0xA, 0xB, 0xC].contains x
  if (f8 a || m64 a) && (f8 b || m64 b) then some (if f8 a || f8 b then .fp8 else .mx)
  else if (a == 6 || a == 0xD) && (b == 6 || b == 0xD) then some .int8
  else if a = 0xE ∧ b = 0xE then some .ql4
  else if a = 2 ∧ b = 2 then some .bf16
  else if a = 3 ∧ b = 3 then some .fp16
  else if a = 1 ∧ b = 1 then some .fp32
  else none

/-- K-block and fold rows of Table 3.1. -/
def MClass.kblk : MClass → Nat
  | .mx => 256
  | .ql4 => 512
  | .fp32 => 64
  | _ => 128

def MClass.foldRows : MClass → Nat
  | .bf16 => 64
  | .fp16 => 64
  | .fp32 => 32
  | _ => 256

/-- FLOAT mode (Table 2.5). -/
def MClass.float : MClass → Bool
  | .bf16 => true
  | .fp16 => true
  | .fp32 => true
  | _ => false

/-! ### The descriptor (Table 5.7) -/

def mFmtA (d : List Nat) : Nat := dbits d 0 17 13
def mFmtB (d : List Nat) : Nat := dbits d 0 22 18
def mFmtOut (d : List Nat) : Nat := dbits d 0 27 23
def mFmtInit (d : List Nat) : Nat := dbits d 0 32 28
def mConv (d : List Nat) : Bool := dbits d 0 5 4 == 1
def mTwin (d : List Nat) : Bool := dbits d 0 6 6 == 1
def mTrapSpan (d : List Nat) : Bool := dbits d 0 7 7 == 1
def mAnchorSel (d : List Nat) : Bool := dbits d 0 8 8 == 1
def mSat (d : List Nat) : Bool := dbits d 0 9 9 == 1
def mRnd (d : List Nat) : Nat := dbits d 0 12 10
def mInitEn (d : List Nat) : Bool := dbits d 0 33 33 == 1
def mAnchor (d : List Nat) : Int := toSigned 10 (dbits d 0 44 35)
def mM (d : List Nat) : Nat := dbits d 1 15 0 + 1
def mN (d : List Nat) : Nat := dbits d 1 27 16 + 1
def mK (d : List Nat) : Nat := dbits d 1 43 28 + 1
def mRefA (d : List Nat) : TRef := tref (d.getD 2 0)
def mRefAs (d : List Nat) : TRef := tref (d.getD 3 0)
def mRefB (d : List Nat) : TRef := tref (d.getD 4 0)
def mRefBs (d : List Nat) : TRef := tref (d.getD 5 0)
def mRefOut (d : List Nat) : TRef := tref (d.getD 6 0)
def mRefInit (d : List Nat) : TRef := tref (d.getD 7 0)

/-- The operand class; FP8 stands where the pair is refused. -/
def mCls (d : List Nat) : MClass := (mClass (mFmtA d) (mFmtB d)).getD .fp8

/-- Convolution words (Table 3.4). -/
structure ConvP where
  inH : Nat
  inW : Nat
  inC : Nat
  nb : Nat
  kh : Nat
  kw : Nat
  sh : Nat
  sw : Nat
  dh : Nat
  dw : Nat
  padT : Nat
  padB : Nat
  padL : Nat
  padR : Nat
  pix : Nat
  row : Nat
  img : Nat
  deriving DecidableEq, Repr

def convP (d : List Nat) : ConvP :=
  { inH := dbits d 8 15 0 + 1, inW := dbits d 8 31 16 + 1, inC := dbits d 8 47 32 + 1, nb := dbits d 8 63 48 + 1,
    kh := dbits d 9 3 0 + 1, kw := dbits d 9 7 4 + 1, sh := dbits d 9 11 8 + 1, sw := dbits d 9 15 12 + 1,
    dh := dbits d 9 19 16 + 1, dw := dbits d 9 23 20 + 1, padT := dbits d 9 31 24, padB := dbits d 9 39 32,
    padL := dbits d 9 47 40, padR := dbits d 9 55 48, pix := dbits d 10 23 0, row := dbits d 10 47 24,
    img := dbits d 11 23 0 }

/-- An output dimension of R74; 0 stands for a value below 1. -/
def outDim (n padA padB dil taps stride : Nat) : Nat :=
  let x : Int := (n : Int) + padA + padB - dil * (taps - 1 : Nat) - 1
  if x < 0 then 0 else x.toNat / stride + 1

def ConvP.oh (c : ConvP) : Nat := outDim c.inH c.padT c.padB c.dh c.kh c.sh
def ConvP.ow (c : ConvP) : Nat := outDim c.inW c.padL c.padR c.dw c.kw c.sw

/-- The input coordinate of output position o and tap t, or none in the padding. -/
def tapAt (o stride pad t dil n : Nat) : Option Nat :=
  if o * stride + t * dil < pad then none
  else if o * stride + t * dil - pad < n then some (o * stride + t * dil - pad) else none

/-- Image, input row and column of element (m, k) of a convolution's A, with its channel (R74). -/
def ConvP.at (c : ConvP) (m k : Nat) : Option (Nat × Nat × Nat × Nat) :=
  let i := m / (c.oh * c.ow)
  let r := m % (c.oh * c.ow)
  let tap := k / c.inC
  match tapAt (r / c.ow) c.sh c.padT (tap / c.kw) c.dh c.inH, tapAt (r % c.ow) c.sw c.padL (tap % c.kw) c.dw c.inW with
  | some h, some w => some (i, h, w, k % c.inC)
  | _, _ => none

/-- Unpadded input coordinates that some output position reads. -/
def tapsIn (n o stride pad taps dil : Nat) : List Nat :=
  (((List.range o).flatMap fun x => (List.range taps).filterMap fun t => tapAt x stride pad t dil n)).dedup

/-- A's row segments (R74, R75): offsets and bytes. -/
def mRowsA (d : List Nat) : List Nat × Nat :=
  let r := mRefA d
  if mConv d then
    let c := convP d
    ((List.range c.nb).flatMap fun i => (tapsIn c.inH c.oh c.sh c.padT c.kh c.dh).flatMap fun h =>
      (tapsIn c.inW c.ow c.sw c.padL c.kw c.dw).map fun w => r.off + c.img * i + c.row * h + c.pix * w, rowBytes (mFmtA d) c.inC)
  else (rowsAt r.off r.stride (mM d), rowBytes (mFmtA d) (mK d))

/-- A's scale segments. -/
def mRowsAs (d : List Nat) : List Nat × Nat :=
  let r := mRefAs d
  if mConv d then
    let c := convP d
    ((List.range c.nb).flatMap fun i => (tapsIn c.inH c.oh c.sh c.padT c.kh c.dh).flatMap fun h =>
      (tapsIn c.inW c.ow c.sw c.padL c.kw c.dw).map fun w => r.off + ((i * c.inH + h) * c.inW + w) * (c.inC / 32), c.inC / 32)
  else (rowsAt r.off r.stride (mM d), (mK d + 31) / 32)

/-- The operands of an instruction, inputs first; the last is the output (R77). -/
def mOpnds (d : List Nat) : List Opnd :=
  let b := mRefB d
  let bs := mRefBs d
  let o := mRefOut d
  let i := mRefInit d
  [⟨(mRefA d).pail, (mRowsA d).1, (mRowsA d).2, false⟩, ⟨b.pail, rowsAt b.off b.stride (mN d), rowBytes (mFmtB d) (mK d), false⟩] ++
    (if isBlockFmt (mFmtA d) then [⟨(mRefAs d).pail, (mRowsAs d).1, (mRowsAs d).2, false⟩] else []) ++
    (if isBlockFmt (mFmtB d) then [⟨bs.pail, rowsAt bs.off bs.stride (mN d), (mK d + 31) / 32, false⟩] else []) ++
    (if mInitEn d then [⟨i.pail, rowsAt i.off i.stride (mM d), mN d * elemBytes (mFmtInit d), false⟩] else []) ++
    [⟨o.pail, rowsAt o.off o.stride (mM d), mN d * elemBytes (mFmtOut d), true⟩]

/-- Formats of those operands, in the same order (R163). -/
def mFmts (d : List Nat) : List Nat :=
  [mFmtA d, mFmtB d] ++ (if isBlockFmt (mFmtA d) then [0xF] else []) ++ (if isBlockFmt (mFmtB d) then [0xF] else []) ++
    (if mInitEn d then [mFmtInit d] else []) ++ [mFmtOut d]

/-! ### Checks at issue (R76) -/

/-- Check 2, as far as the descriptor alone decides it (R36, R41, R45, R46, R49, R57, R60, R75, R131, R132, Table 5.18). -/
def mFormatBad (e : QEntry) (d : List Nat) : Bool :=
  let v := dbits d 0 3 0
  let exact := !(mCls d).float
  let v1 := v == 1
  !(v == 1 || v == 2) || decide (1 < dbits d 0 5 4) || dbits d 0 63 45 != 0 || dbits d 1 63 44 != 0 ||
    ((List.range 6).any fun i => dbits d (2 + i) 63 54 != 0) || dbits d 14 63 30 != 0 || d.getD 15 0 != 0 ||
    (v == 2 && decide (e.off % 128 ≠ 0)) ||
    (v1 && (dbits d 0 8 4 != 0 || dbits d 0 33 28 != 0 || dbits d 0 44 35 != 0 || decide (3 < mRnd d) ||
      ([mFmtA d, mFmtB d, mFmtOut d].any fun f => !(decide (1 ≤ f ∧ f ≤ 9) || f == 0xF)))) ||
    (!isBlockFmt (mFmtA d) && d.getD 3 0 != 0) || (!isBlockFmt (mFmtB d) && d.getD 5 0 != 0) ||
    (!mInitEn d && d.getD 7 0 != 0) || (!statusEn e d && d.getD 14 0 != 0) ||
    (if mConv d then dbits d 9 63 56 != 0 || dbits d 10 63 48 != 0 || dbits d 11 63 24 != 0
     else (List.range 4).any fun i => d.getD (8 + i) 0 != 0) ||
    (if mRnd d = 4 then dbits d 12 63 32 != 0 else d.getD 12 0 != 0 || d.getD 13 0 != 0) ||
    (mClass (mFmtA d) (mFmtB d)).isNone || !([1, 2, 3, 4, 5, 7, 0x10].contains (mFmtOut d)) ||
    (mFmtOut d == 0x10 && !exact) || decide (0x11 < mFmtInit d) ||
    (mInitEn d && mFmtInit d != (if exact then 0x10 else 1)) || decide (4 < mRnd d) ||
    (mAnchorSel d && (decide (mAnchor d < -254) || decide (254 < mAnchor d))) ||
    ((isBlockFmt (mFmtA d) || isBlockFmt (mFmtB d)) && decide (mK d % 32 ≠ 0)) ||
    (mConv d && ((mRefA d).stride != 0 || (mRefAs d).stride != 0 || (isBlockFmt (mFmtA d) && decide ((convP d).inC % 32 ≠ 0)))) ||
    decide ((tref (d.getD 14 0)).off % 16 ≠ 0)

/-- Check 3's dimensions (R68, R75). -/
def mDimsBad (d : List Nat) : Bool :=
  mConv d && (let c := convP d
    c.pix == 0 || c.row == 0 || c.img == 0 || c.oh == 0 || c.ow == 0 || mM d != c.nb * c.oh * c.ow ||
      mK d != c.kh * c.kw * c.inC)

/-- Checks 2 to 4 of R76 and R96 as far as the pails decide them: linear pails for descriptor and record, FMT of the
pails, footprints, overlaps. `ex` exempts input/output pairs (the destination of a scatter in ADD mode). The flag says
that the record's location failed its overlap test. -/
def State.pailFormatBad (s : State) (core : Nat) (e : QEntry) (os : List Opnd) (fmts : List Nat) (rec : Option TRef) : Bool :=
  (s.pail core e.pail).view != 0 ||
    (match rec with
     | some r => (s.pail core r.pail).view != 0 || decide (r.off % 16 ≠ 0)
     | none => false) ||
    ((os.zip fmts).any fun x => let p := s.pail core x.1.pail
      p.fmt != 0 && p.fmt != x.2)

def State.boundsBad (s : State) (core : Nat) (os : List Opnd) (rec : Option TRef) : Bool :=
  (os.any fun o => decide ((s.pail core o.pail).logical < o.top)) ||
    (match rec with
     | some r => decide ((s.pail core r.pail).size < r.off + 16)
     | none => false)

/-- ALIAS of the output against the inputs and the descriptor, and of the record against everything (R77, R96, R134). -/
def State.aliasBad (s : State) (core : Nat) (e : QEntry) (dlen : Nat) (ins outs : List Opnd) (rec : Option TRef) : Bool × Bool :=
  let sp (o : Opnd) : Nat × Nat := o.span (s.pail core o.pail)
  let db := (s.pail core e.pail).base + e.off
  let desc := (db, db + dlen)
  let recBad := match rec with
    | some r =>
      let a := (s.pail core r.pail).base + r.off
      ((ins ++ outs).any fun o => overlap (a, a + 16) (sp o)) || overlap (a, a + 16) desc
    | none => false
  (recBad || outs.any (fun o => (ins.any fun i => overlap (sp o) (sp i)) || overlap (sp o) desc), recBad)

/-- Check 1: every named pail may be used (R76, R96, R165). -/
def State.pailsBad (s : State) (core : Nat) (e : QEntry) (os : List Opnd) (rec : Option TRef) : Bool :=
  (os.any fun o => !(s.pail core o.pail).usable e.priv o.write) ||
    (match rec with
     | some r => !(s.pail core r.pail).usable e.priv true
     | none => false)

/-- The record a descriptor names. -/
def recRef (e : QEntry) (d : List Nat) : Option TRef := if statusEn e d then some (tref (statusWord e d)) else none

/-- Checks 1 to 4 of R76: the cause, 0 for none, and whether the record's location failed. -/
def State.mChecks (s : State) (core : Nat) (e : QEntry) (d : List Nat) : Nat × Bool :=
  let os := mOpnds d
  let r := recRef e d
  if s.pailsBad core e os r || (mTwin d && decide (slotOf core ≠ 0)) then (cBounds, false)
  else if mFormatBad e d || s.pailFormatBad core e os (mFmts d) r then (cFormat, false)
  else if mDimsBad d || s.boundsBad core os r then (cBounds, false)
  else
    let al := s.aliasBad core e (if isV1 e (d.getD 0 0) then 64 else 128) (os.filter fun o => !o.write) (os.filter Opnd.write) r
    (if al.1 then cAlias else 0, al.2)

/-! ### Reading operands -/

/-- Element i of a row at a logical offset (R42). -/
def State.elem (s : State) (core : Nat) (p : Pail) (row fmt i : Nat) : Nat :=
  let w := elemBits fmt
  let b := i * w / 8
  leNat (s.peekView core p (row + b) ((i * w % 8 + w + 7) / 8)) / 2 ^ (i * w % 8) % 2 ^ w

/-- Where element (m, k) of A lies: row offset, index in the row, scale byte's offset; none in the padding. -/
def mAtA (d : List Nat) (m k : Nat) : Option (Nat × Nat × Nat) :=
  let r := mRefA d
  let sc := mRefAs d
  if mConv d then
    let c := convP d
    (c.at m k).map fun x => (r.off + c.img * x.1 + c.row * x.2.1 + c.pix * x.2.2.1, x.2.2.2,
      sc.off + ((x.1 * c.inH + x.2.1) * c.inW + x.2.2.1) * (c.inC / 32) + x.2.2.2 / 32)
  else some (r.off + m * r.stride, k, sc.off + m * sc.stride + k / 32)

/-- The scale byte of an operand, 0x7F without scales (R43). -/
def State.scaleByte (s : State) (core : Nat) (r : TRef) (fmt off : Nat) : Nat :=
  if isBlockFmt fmt then s.elem core (s.pail core r.pail) off 0xF 0 else 0x7F

/-- A's scale byte for block j of row m; none where the block lies wholly in padding. -/
def State.scaleA (s : State) (core : Nat) (d : List Nat) (m j : Nat) : Option Nat :=
  ((((List.range 32).map fun i => 32 * j + i).filter fun k => decide (k < mK d)).findSome? fun k => mAtA d m k).map fun x =>
    s.scaleByte core (mRefAs d) (mFmtA d) x.2.2

/-- B's scale byte for block j of column n. -/
def State.scaleB (s : State) (core : Nat) (d : List Nat) (n j : Nat) : Nat :=
  s.scaleByte core (mRefBs d) (mFmtB d) ((mRefBs d).off + n * (mRefBs d).stride + j)

/-- Pattern of A's element; none in the padding, which reads as zero (R74). -/
def State.patA (s : State) (core : Nat) (d : List Nat) (m k : Nat) : Option Nat :=
  (mAtA d m k).map fun x => s.elem core (s.pail core (mRefA d).pail) x.1 (mFmtA d) x.2.1

/-- Pattern of B's element (k, n). -/
def State.patB (s : State) (core : Nat) (d : List Nat) (n k : Nat) : Nat :=
  s.elem core (s.pail core (mRefB d).pail) ((mRefB d).off + n * (mRefB d).stride) (mFmtB d) k

/-! ### Weight blocks (R65, R68) -/

/-- First k of a k-block, and the first k behind it. -/
def mLo (d : List Nat) (kb : Nat) : Nat := kb * (mCls d).kblk
def mHi (d : List Nat) (kb : Nat) : Nat := min (mLo d kb + (mCls d).kblk) (mK d)

/-- The columns of an n-block. -/
def mCols (d : List Nat) (nb : Nat) : List Nat := (List.range (min 128 (mN d - 128 * nb))).map fun j => 128 * nb + j

/-- The weight block (nb, kb) as it stands in the scratch. -/
def State.blkOf (s : State) (core : Nat) (d : List Nat) (nb kb : Nat) : WBuf :=
  ⟨nb, kb, (mCols d nb).map fun n => ((List.range (mHi d kb - mLo d kb)).map fun i => s.patB core d n (mLo d kb + i),
    if isBlockFmt (mFmtB d) then (List.range ((mHi d kb - mLo d kb + 31) / 32)).map fun j => s.scaleB core d n (mLo d kb / 32 + j) else [])⟩

/-- Pattern of B's element (k, n) in a weight buffer, and the scale byte of its block j. -/
def WBuf.pat (b : WBuf) (d : List Nat) (n k : Nat) : Nat := ((b.cols.getD (n - 128 * b.nb) ([], [])).1).getD (k - mLo d b.kb) 0
def WBuf.scale (b : WBuf) (d : List Nat) (n j : Nat) : Nat :=
  ((b.cols.getD (n - 128 * b.nb) ([], [])).2).getD (j - mLo d b.kb / 32) 0x7F

/-! ### Exact and span sums (R46 to R51, R54) -/

/-- A block pair's exact sum: rational part in units of 2^(c − 32), or of 2^c with the √2 part for QL4; special values. -/
structure BlkSum where
  p : Int := 0
  q : Int := 0
  nan : Bool := false
  pinf : Bool := false
  ninf : Bool := false
  deriving DecidableEq, Repr

/-- The product of two QL4 nibbles: rational and √2 part (R44). -/
def ql4Mul (x y : Nat) : Int × Int :=
  let a := x % 8
  let b := y % 8
  if a = 0 ∨ b = 0 then (0, 0)
  else
    let sg : Int := if (x / 8 + y / 8) % 2 = 1 then -1 else 1
    if (a + b) % 2 = 0 then (sg * (2 ^ ((a + b - 2) / 2) : Nat), 0) else (0, sg * (2 ^ ((a + b - 3) / 2) : Nat))

/-- Adds one product. -/
def BlkSum.add (b : BlkSum) (ql4 : Bool) (fa fb x y : Nat) : BlkSum :=
  if ql4 then
    let z := ql4Mul x y
    { b with p := b.p + z.1, q := b.q + z.2 }
  else match Num.mul (elemVal fa x) (elemVal fb y) with
    | .nan => { b with nan := true }
    | .inf neg => if neg then { b with ninf := true } else { b with pinf := true }
    | .fin neg m e _ =>
      let v : Int := m * (2 ^ (e + 32).toNat : Nat)
      { b with p := b.p + (if neg then -v else v) }

/-- The sum of block j of output (m, n) and its combined exponent; none where it lies wholly in padding (R75). A scale
of 0xFF sets NAN. -/
def State.blkSum (s : State) (core : Nat) (d : List Nat) (wb : WBuf) (m n j : Nat) : Option (BlkSum × Int) :=
  (s.scaleA core d m j).map fun ea =>
    let eb := wb.scale d n j
    let ks := ((List.range 32).map fun i => 32 * j + i).filter fun k => decide (k < mK d)
    let ql4 := decide (mCls d = .ql4)
    let b := ks.foldl (fun b k => b.add ql4 (mFmtA d) (mFmtB d) ((s.patA core d m k).getD 0) (wb.pat d n k)) ({} : BlkSum)
    (if ea = 0xFF ∨ eb = 0xFF then { nan := true } else b, (ea : Int) + eb - 254)

/-- A block sum enters an accumulator of EXACT or EXACT_QL4 mode with anchor a. -/
def Acc.addExact (x : Acc) (a : Int) (b : BlkSum) (c : Int) : Acc :=
  let f : Int := (2 ^ (c - a + 31).toNat : Nat)
  { x with p := x.p + b.p * f, q := x.q + b.q * f, nan := x.nan || b.nan, pinf := x.pinf || b.pinf, ninf := x.ninf || b.ninf }

/-- Binary32 addition, round to nearest even. -/
def f32add (x y : Num) : Num := fpDecode fp32 (fpRound fp32 0 0 false (Num.add 0 x y)).1

/-- Rounds to binary32, nearest even. -/
def f32 (x : Num) : Num := fpDecode fp32 (fpRound fp32 0 0 false x).1

/-- The FP32 pattern of a value that FP32 holds. -/
def f32bits (x : Num) : Nat := (fpRound fp32 0 0 false x).1

/-- A block sum's value, rounded once to FP32 (R51). -/
def BlkSum.toF32 (b : BlkSum) (ql4 : Bool) (c : Int) : Num :=
  if b.nan || (b.pinf && b.ninf) then .nan
  else if b.pinf then .inf false
  else if b.ninf then .inf true
  else f32 (if ql4 then Num.ofQuad b.p b.q c else .ofScaled b.p (c - 32))

/-- A block sum enters the running sum of span mode. -/
def Acc.addSpan (x : Acc) (ql4 : Bool) (b : BlkSum) (c : Int) : Acc :=
  { x with f := BitVec.ofNat 32 (f32bits (f32add (fpDecode fp32 x.f.toNat) (b.toF32 ql4 c))) }

/-! ### Float sums (R53) -/

/-- One level of the balanced tree. -/
def pairUp (add : Num → Num → Num) : List Num → List Num
  | x :: y :: r => add x y :: pairUp add r
  | l => l

/-- The balanced pairwise tree of a list whose length is a power of two, at least 2. -/
def treeSum (add : Num → Num → Num) : Nat → List Num → List Num
  | 0, l => l
  | n + 1, l => treeSum add n (pairUp add l)

/-- Chunk g of output (m, n), padded with +0 products. -/
def State.chunkSum (s : State) (core : Nat) (d : List Nat) (wb : WBuf) (m n g : Nat) : Num :=
  let cls := mCls d
  let size := if cls = .fp32 then 8 else 32
  let prods := (List.range size).map fun i =>
    let k := g * size + i
    if mK d ≤ k then .fin false 0 0 false
    else
      let x := (s.patA core d m k).map (elemVal (mFmtA d)) |>.getD (.fin false 0 0 false)
      let z := Num.mul x (elemVal (mFmtB d) (wb.pat d n k))
      if cls = .fp32 then f32 z else z
  ((treeSum f32add (if cls = .fp32 then 3 else 5) prods).head?).getD (.fin false 0 0 false)

/-! ### Accumulators -/

/-- MODE codes of Table 2.6. -/
def accMode (cls : MClass) (span : Bool) : Nat := if cls.float then 4 else if span then 3 else if cls = .ql4 then 2 else 1

/-- The accumulator of output (m, n) over the k-block in the front buffer. -/
def State.accStep (s : State) (core : Nat) (d : List Nat) (span : Bool) (a : Int) (wb : WBuf) (m n : Nat) (x : Acc) : Acc :=
  let cls := mCls d
  let lo := mLo d wb.kb
  let hi := mHi d wb.kb
  let x := { x with live := true }
  if cls.float then
    let size := if cls = .fp32 then 8 else 32
    ((List.range (cls.kblk / size)).map fun i => lo / size + i).foldl (fun x g =>
      if hi ≤ g * size then x
      else { x with f := BitVec.ofNat 32 (f32bits (f32add (fpDecode fp32 x.f.toNat) (s.chunkSum core d wb m n g))) }) x
  else
    ((List.range (cls.kblk / 32)).map fun i => lo / 32 + i).foldl (fun x j =>
      if hi ≤ j * 32 then x
      else match s.blkSum core d wb m n j with
        | none => x
        | some b => if span then x.addSpan (decide (cls = .ql4)) b.1 b.2 else x.addExact a b.1 b.2) x

/-- The initial accumulator of output (m, n) (R49). -/
def State.accInit (s : State) (core : Nat) (d : List Nat) (m n : Nat) : Acc :=
  if mInitEn d then
    let r := mRefInit d
    let w := s.elem core (s.pail core r.pail) (r.off + m * r.stride) (mFmtInit d) n
    if (mCls d).float then { f := BitVec.ofNat 32 w, live := true }
    else
      { live := true
        p := if mCls d = .ql4 then toSigned 56 w else toSigned 112 w
        q := if mCls d = .ql4 then toSigned 56 (w / 2 ^ 56) else 0
        nan := bitOf w 125, pinf := bitOf w 126, ninf := bitOf w 127 }
  else {}

/-- Does a sum lie outside its two's-complement range (R50)? -/
def outside (w : Nat) (x : Int) : Bool := decide (x < -(2 ^ (w - 1) : Nat)) || decide ((2 ^ (w - 1) : Nat) ≤ x)

def Acc.overflow (x : Acc) (mode : Nat) : Bool :=
  if mode = 1 then outside 112 x.p else if mode = 2 then outside 56 x.p || outside 56 x.q else false

/-- What the exact sums of an accumulator have beyond the fields of its word (log 43). -/
def Acc.excess (x : Acc) (mode : Nat) : Int × Int :=
  if mode = 1 then (x.p - toSigned 112 (ofSigned 112 x.p), 0)
  else if mode = 2 then (x.p - toSigned 56 (ofSigned 56 x.p), x.q - toSigned 56 (ofSigned 56 x.q))
  else (0, 0)

/-- The accumulator word (Table 2.6): EMPTY before an initial word or a streamed row has reached it. -/
def Acc.word (x : Acc) (mode : Nat) (a : Int) : Nat :=
  let sum := if mode = 1 then ofSigned 112 x.p else if mode = 2 then ofSigned 56 x.p + ofSigned 56 x.q * 2 ^ 56 else x.f.toNat
  if !x.live then 0
  else sum + (if mode = 1 ∨ mode = 2 then ofSigned 10 a else 0) * 2 ^ 112 + mode * 2 ^ 122 + b2n x.nan * 2 ^ 125 +
    b2n x.pinf * 2 ^ 126 + b2n x.ninf * 2 ^ 127

/-- The accumulator that a word holds, with what its sums have beyond its fields. -/
def accOfWord (w : Nat) (ex : Int × Int) : Acc :=
  let mode := w / 2 ^ 122 % 8
  { p := (if mode = 1 then toSigned 112 w else if mode = 2 then toSigned 56 w else 0) + ex.1
    q := (if mode = 2 then toSigned 56 (w / 2 ^ 56) else 0) + ex.2
    f := if 3 ≤ mode then BitVec.ofNat 32 w else 0
    live := mode != 0
    nan := bitOf w 125, pinf := bitOf w 126, ninf := bitOf w 127 }

/-- The value an accumulator is written out as (R54, R56). -/
def Acc.value (x : Acc) (mode : Nat) (a : Int) : Num :=
  if 3 ≤ mode then fpDecode fp32 x.f.toNat
  else if x.nan || (x.pinf && x.ninf) then .nan
  else if x.pinf then .inf false
  else if x.ninf then .inf true
  else if mode = 1 then .ofScaled x.p (a - 63) else Num.ofQuad x.p x.q (a - 31)

/-- Write-out of output (m, n): the pattern and the flags (R50, R54 to R60). A SUM outside its range stands as a free value in a
WIDE word, the same in every run (R62, log 15). -/
def writeOut (d : List Nat) (mode : Nat) (a : Int) (m n : Nat) (x : Acc) : Nat × Nat :=
  let ovf := x.overflow mode
  let y := { x with nan := x.nan || ovf }
  let fl := if ovf then aOvf else 0
  let v := y.value mode a
  if mFmtOut d = 0x10 then
    let w := y.word mode a
    (if ovf then w - w % 2 ^ 112 + (Config.ovfSum x.p x.q).toNat else w, fl + (if v.isNan then aNan else if v.isInf then aInf else 0))
  else
    let r := if mRnd d = 4 then stochR (dbits d 12 31 0) (m + dbits d 13 31 0) (n + dbits d 13 63 32) else 0
    let o := elemRound (mFmtOut d) (mRnd d) r (mSat d) v
    (o.1, fl ||| o.2)

/-! ### The fold order (R68) -/

/-- Folds of the m-group mg. -/
def mFrs (d : List Nat) (mg : Nat) : Nat :=
  let rows := min 256 (mM d - 256 * mg)
  (rows + (mCls d).foldRows - 1) / (mCls d).foldRows

def mKbs (d : List Nat) : Nat := (mK d + (mCls d).kblk - 1) / (mCls d).kblk
def mMgs (d : List Nat) : Nat := (mM d + 255) / 256
def mNbs (d : List Nat) : Nat := (mN d + 127) / 128

/-- Folds of one n-block, and of the instruction. -/
def mPerNb (d : List Nat) : Nat := ((List.range (mMgs d)).map fun g => mKbs d * mFrs d g).sum
def mFolds (d : List Nat) : Nat := mNbs d * mPerNb d

/-- Coordinates (nb, mg, kb, fr) of a fold. -/
def mCoord (d : List Nat) (fold : Nat) : Nat × Nat × Nat × Nat :=
  let r := fold % mPerNb d
  let full := mKbs d * mFrs d 0
  let mg := min (r / full) (mMgs d - 1)
  let r := r - mg * full
  (fold / mPerNb d, mg, r / mFrs d mg, r % mFrs d mg)

/-- The weight block of the loop step after (nb, mg, kb) (R68); none after the last. -/
def mNextBlk (d : List Nat) (nb mg kb : Nat) : Option (Nat × Nat) :=
  if kb + 1 < mKbs d then some (nb, kb + 1)
  else if mg + 1 < mMgs d then some (nb, 0)
  else if nb + 1 < mNbs d then some (nb + 1, 0)
  else none

end Sys2Proof.Machine
end

