-- ==== Sys2Proof/Machine/Matrix.lean ====
section
/-! DEFINITION. M.MMA (R68, R76, R91), Spill, Hold and Abandon of cores and the resumption of an interrupted command
(R79 to R84, R107), and check failures (R85 to R88). -/

namespace Sys2Proof.Machine

/-! ### The pre-pass (R46 to R52) -/

/-- Least and greatest of the scale bytes that take part. -/
def scaleRange (l : List (Option Nat)) : Option (Nat × Nat) :=
  match (l.filterMap id).filter fun e => e != 0xFF with
  | [] => none
  | x :: r => some ((x :: r).foldl min x, maxOf (x :: r))

/-- c_min and c_max over the block pairs that take part. -/
def State.cRange (s : State) (core : Nat) (d : List Nat) : Option (Int × Int) :=
  let js := List.range ((mK d + 31) / 32)
  let one (j : Nat) : Option ((Nat × Nat) × (Nat × Nat)) :=
    let a := if isBlockFmt (mFmtA d) || mConv d then scaleRange ((List.range (mM d)).map fun m => s.scaleA core d m j)
      else some (0x7F, 0x7F)
    let b := if isBlockFmt (mFmtB d) then scaleRange ((List.range (mN d)).map fun n => some (s.scaleB core d n j))
      else some (0x7F, 0x7F)
    match a, b with
    | some x, some y => some (x, y)
    | _, _ => none
  (js.filterMap one).foldl (fun r x =>
    let lo : Int := (x.1.1 : Int) + x.2.1 - 254
    let hi : Int := (x.1.2 : Int) + x.2.2 - 254
    match r with
    | none => some (lo, hi)
    | some r => some (min r.1 lo, max r.2 hi)) none

/-- Does an initial word match the mode and the anchor (R49)? -/
def initOk (mode : Nat) (a : Int) (w : Nat) : Bool := w / 2 ^ 122 % 8 == mode && toSigned 10 (w / 2 ^ 112) == a

/-- The scale pre-pass: check bits of what it reads, then the initial accumulator and the window. Answers the cause, 0 for
none, and the run. -/
def State.prepass (s : State) (core : Nat) (d : List Nat) : State × Nat × MRun :=
  let ws := d.map w64
  if (mCls d).float then (s, 0, { desc := ws, prepass := true })
  else
    let os := (mOpnds d).zip (mFmts d)
    let pre := (os.filter fun x => !x.1.write && (x.2 == 0xF || x.2 == 0x10)).map Prod.fst
    let (s, ok) := pre.foldl (fun r o => if r.2 then r.1.readRows core (s.pail core o.pail) o.rows o.len else r) (s, true)
    if !ok then (s, cEcc, { desc := ws })
    else
      let c := s.cRange core d
      let a : Int := if mAnchorSel d then mAnchor d else match c with
        | some r => r.2
        | none => 0
      let mode := accMode (mCls d) false
      let i := mRefInit d
      let badInit := mInitEn d && (List.range (mM d)).any fun m => (List.range (mN d)).any fun n =>
        !initOk mode a (s.elem core (s.pail core i.pail) (i.off + m * i.stride) 0x10 n)
      let fits := match c with
        | some r => decide (a - 31 ≤ r.1) && decide (r.2 ≤ a)
        | none => true
      if badInit then (s, cFormat, { desc := ws })
      else if fits then (s, 0, { desc := ws, prepass := true, anchor := a })
      else if mTrapSpan d || mFmtOut d == 0x10 || mInitEn d then (s, cSpan, { desc := ws })
      else (s, 0, { desc := ws, prepass := true, span := true, arith := aSpan })

/-! ### Folds -/

/-- The accumulators at the start of an m-group. -/
def State.groupInit (s : State) (core : Nat) (d : List Nat) (nb mg : Nat) : List Acc :=
  (List.range (min 256 (mM d - 256 * mg) * 128)).map fun i =>
    if 128 * nb + i % 128 < mN d then s.accInit core d (256 * mg + i / 128) (128 * nb + i % 128) else {}

/-- Bytes of A that a fold reads: (offset, length). -/
def foldReadsA (d : List Nat) (rows : List Nat) (lo hi : Nat) : List (Nat × Nat) :=
  let w := elemBits (mFmtA d)
  if mConv d then
    (rows.flatMap fun m => (List.range (hi - lo)).filterMap fun i =>
      (mAtA d m (lo + i)).map fun x => (x.1 + x.2.1 * w / 8, (x.2.1 * w % 8 + w + 7) / 8)).dedup
  else rows.map fun m => ((mRefA d).off + m * (mRefA d).stride + lo * w / 8, ((hi - lo) * w + 7) / 8)

/-- Scale bytes of A that a fold reads. -/
def foldScalesA (d : List Nat) (rows : List Nat) (lo hi : Nat) : List (Nat × Nat) :=
  if !isBlockFmt (mFmtA d) then []
  else if mConv d then (rows.flatMap fun m => (List.range (hi - lo)).filterMap fun i => (mAtA d m (lo + i)).map fun x => (x.2.2, 1)).dedup
  else rows.map fun m => ((mRefAs d).off + m * (mRefAs d).stride + lo / 32, (hi - lo + 31) / 32)

/-- Reads of (pail, offset, length) with their check bits, up to the first that fails. -/
def State.readAll (s : State) (core : Nat) (l : List (Nat × Nat × Nat)) : State × Bool :=
  if !s.hasMarks core then (s, true)
  else l.foldl (fun r x => if r.2 then r.1.readView core (s.pail core x.1) x.2.1 x.2.2 else r) (s, true)

/-- The operand reads of a fold with their check bits (R91): the rows of A with their scales, the initial accumulator at the start of
an m-group. -/
def State.foldReads (s : State) (core : Nat) (d : List Nat) (nb mg kb fr : Nat) (rows : List Nat) : State × Bool :=
  let i := mRefInit d
  let e := elemBytes (mFmtInit d)
  s.readAll core
    ((foldReadsA d rows (mLo d kb) (mHi d kb)).map (fun x => ((mRefA d).pail, x.1, x.2)) ++
      (foldScalesA d rows (mLo d kb) (mHi d kb)).map (fun x => ((mRefAs d).pail, x.1, x.2)) ++
      (if mInitEn d ∧ kb = 0 ∧ fr = 0 then
        (List.range (min 256 (mM d - 256 * mg))).map fun r =>
          (i.pail, i.off + (256 * mg + r) * i.stride + 128 * nb * e, (mCols d nb).length * e)
      else []))

/-- The weight block (nb, kb) is read into a buffer, elements and scales; none where a read fails (R91). -/
def State.loadBlk (s : State) (core : Nat) (d : List Nat) (nb kb : Nat) : State × Option WBuf :=
  let b := mRefB d
  let sc := mRefBs d
  let w := elemBits (mFmtB d)
  let n := mHi d kb - mLo d kb
  let (s, ok) := s.readAll core ((mCols d nb).flatMap fun c =>
    (b.pail, b.off + c * b.stride + mLo d kb * w / 8, (n * w + 7) / 8) ::
      (if isBlockFmt (mFmtB d) then [(sc.pail, sc.off + c * sc.stride + mLo d kb / 32, (n + 31) / 32)] else []))
  (s, if ok then some (s.blkOf core d nb kb) else none)

/-- The block that a k-block's first fold makes the front buffer: the back buffer's, else it is loaded now. -/
def State.frontBlk (s : State) (core : Nat) (d : List Nat) (run : MRun) (nb kb : Nat) : State × Option WBuf :=
  match run.back with
  | some b => if b.nb = nb ∧ b.kb = kb then (s, some b) else s.loadBlk core d nb kb
  | none => s.loadBlk core d nb kb

/-- The back buffer loads the next weight block (R68); none where a read fails. -/
def State.backBlk (s : State) (core : Nat) (d : List Nat) (nb mg kb : Nat) : State × Option (Option WBuf) :=
  match mNextBlk d nb mg kb with
  | none => (s, some none)
  | some x => match s.loadBlk core d x.1 x.2 with
    | (s, some b) => (s, some (some b))
    | (s, none) => (s, none)

/-- The buffers as a fold needs them: changed with a k-block's first fold and after a restore (R68, R83). -/
def State.buffers (s : State) (core : Nat) (d : List Nat) (run : MRun) (nb mg kb fr : Nat) : State × Option (WBuf × Option WBuf) :=
  match (if fr = 0 then none else run.front) with
  | some f => (s, some (f, run.back))
  | none =>
    match s.frontBlk core d run nb kb with
    | (s, none) => (s, none)
    | (s, some f) =>
      match s.backBlk core d nb mg kb with
      | (s, none) => (s, none)
      | (s, some b) => (s, some (f, b))

/-- Writes the outputs of a row from its accumulators: state and flags. -/
def State.rowOut (s : State) (core : Nat) (d : List Nat) (run : MRun) (nb m : Nat) (acc : List Acc) : State × Nat :=
  let e := elemBytes (mFmtOut d)
  let o := mRefOut d
  let ws := (acc.take (min 128 (mN d - 128 * nb))).zipIdx.map fun x =>
    writeOut d (accMode (mCls d) run.span) run.anchor m (128 * nb + x.2) x.1
  (s.writeView core (s.pail core o.pail) (o.off + m * o.stride + 128 * nb * e) (toBytes (ws.flatMap fun w => leBytes e w.1)),
    ws.foldl (fun r w => r ||| w.2) 0)

/-- One fold (R68): its rows pass through the front buffer; with the last k-block they are written out. None where an
operand read fails. Bytes of A count as they stand at this fold, bytes of B as they stood when their block was loaded (R78, log
72). -/
def State.doFold (s : State) (core : Nat) (d : List Nat) (run : MRun) : State × Option MRun :=
  let (nb, mg, kb, fr) := mCoord d run.fold
  let rows := min 256 (mM d - 256 * mg)
  let fold := (mCls d).foldRows
  let rs := (List.range (min fold (rows - fold * fr))).map fun i => fold * fr + i
  match s.buffers core d run nb mg kb fr with
  | (s, none) => (s, none)
  | (s, some (front, back)) =>
    let (s, ok) := s.foldReads core d nb mg kb fr (rs.map fun r => 256 * mg + r)
    if !ok then (s, none)
    else
      let acc := if run.acc = [] then s.groupInit core d nb mg else run.acc
      let acc := acc.zipIdx.map fun x =>
        let r := x.2 / 128
        let n := 128 * nb + x.2 % 128
        if fold * fr ≤ r ∧ r < fold * fr + fold ∧ n < mN d then s.accStep core d run.span run.anchor front (256 * mg + r) n x.1
        else x.1
      let last := kb + 1 == mKbs d
      let (s, fl) := if last then
          rs.foldl (fun (z : State × Nat) r =>
            let w := z.1.rowOut core d run nb (256 * mg + r) ((acc.drop (r * 128)).take 128)
            (w.1, z.2 ||| w.2)) (s, 0)
        else (s, 0)
      let group := last && fr + 1 == mFrs d mg
      (s, some { run with fold := run.fold + 1, arith := run.arith ||| fl, acc := if group then [] else acc, fresh := false,
                          front := some front, back := back })

/-- Up to n folds; ends the command after the last. -/
def State.doFolds (s : State) (ck q : Nat) (e : QEntry) (d : List Nat) : Nat → MRun → State
  | 0, run => s.setCore (coreOf ck q) { s.core (coreOf ck q) with run := some run }
  | n + 1, run =>
    match s.doFold (coreOf ck q) d run with
    | (s, none) => s.endWork ck q e cEcc run.arith
    | (s, some run) =>
      if mFolds d ≤ run.fold then
        (s.setCore (coreOf ck q) { s.core (coreOf ck q) with run := some run }).endWork ck q e 0 run.arith
      else s.doFolds ck q e d n run

/-- Can M1 be claimed now (R88): at an instruction boundary and able to work? A head of its own that was spilled, and waits for its
resumption, counts as one (log 73). -/
def State.twinFree (s : State) (ck : Nat) : Bool :=
  let c := coreOf ck 1
  s.coreUp c && (match (s.que (ck * 4 + 1)).head? with
    | some e => (match e.st with
      | .running => false
      | .ended _ => false
      | _ => true)
    | none => true)

/-- Dispatch of an M.MMA (R70, R76): descriptor, checks, the twin claim, the pre-pass; then its folds. Nothing of it has been
prefetched: the model takes R71's "may" as never (log 72). -/
def State.startMma (s : State) (ck q : Nat) (e : QEntry) (folds : Nat) : State :=
  let core := coreOf ck q
  let (s, c) := s.readDesc core e
  if c ≠ 0 then s.endWork ck q e c 0
  else
    let d := s.descWords core e
    let (c, recBad) := s.mChecks core e d
    if c ≠ 0 then s.endWork ck q { e with noRec := recBad } c 0
    else if mTwin d && !(s.core (coreOf ck 1)).twin && !s.twinFree ck then s
    else
      let s := if mTwin d then s.setCore (coreOf ck 1) { s.core (coreOf ck 1) with twin := true } else s
      let (s, c, run) := s.prepass core d
      if c ≠ 0 then s.endWork ck q e c 0 else s.doFolds ck q e d folds run

/-- M_MMA: the running M.MMA of a queue is dispatched, or goes on, by up to `folds` folds; one restored from a record without a
pre-pass reruns it (R79). With a Spill pending it issues nothing. -/
def State.doMma (s : State) (ck q folds : Nat) : State :=
  match s.running ck q true 1 with
  | none => s
  | some e =>
    let c := s.core (coreOf ck q)
    if c.spillReq.isSome then s
    else match c.run with
      | none => s.startMma ck q e folds
      | some run => if run.prepass then s.doFolds ck q e (run.desc.map BitVec.toNat) folds run else s.startMma ck q e folds

def execMMma (c : Clu) (q : Queue) (folds : Nat) (s : State) : Host.Outcome State Fault Refusal :=
  .next (s.doMma (cluKey c) q.val folds)

/-! ### Stop requests (R79, R80) -/

/-- The cores that a request at one core reaches: both M-cores while a twin instruction runs (R80, R88). -/
def State.stopCores (s : State) (core : Nat) : List Nat :=
  let ck := cluOfCore core
  if slotOf core < 2 ∧ (s.core (coreOf ck 1)).twin then [coreOf ck 0, coreOf ck 1] else [core]

/-- SPILL_REQUEST. -/
def execSpillRequest (c : Core) (reason : SpillReason) (s : State) : Host.Outcome State Fault Refusal :=
  .next (s.each (s.stopCores (coreKey c)) fun s k => s.reqSpill k reason)

/-- Sets or clears the Hold of a core. -/
def State.setHold (s : State) (core : Nat) (v : Bool) : State :=
  if slotOf core = 4 then s.setSc (cluOfCore core) { s.sc (cluOfCore core) with held := v }
  else s.setCore core { s.core core with held := v }

/-- HOLD_REQUEST (R79, R107, R112): the engine pauses in place. -/
def execHoldRequest (c : Core) (s : State) : Host.Outcome State Fault Refusal :=
  .next (s.each (s.stopCores (coreKey c)) fun s k => s.setHold k true)

/-- HOLD_LIFT. -/
def execHoldLift (c : Core) (s : State) : Host.Outcome State Fault Refusal :=
  .next (s.each (s.stopCores (coreKey c)) fun s k => s.setHold k false)

/-- ABANDON (R79, R107, R112, R118). -/
def execAbandon (c : Core) (s : State) : Host.Outcome State Fault Refusal := .next (s.abandon (coreKey c))

/-! ### The progress record (R81, R82) -/

/-- The logical core id of a core (R17); the physical site stands where its die has no logical site. -/
def State.logCid (s : State) (core : Nat) : Nat :=
  let l := s.lsite (core / 256) (core / 32 % 8)
  mkCid (core / 256) (if l = 7 then core / 32 % 8 else l) (core / 8 % 4) (slotOf core)

/-- Offsets of an M-core's pail 63. -/
def recOff : Nat := 0x900000
def accOff : Nat := 0x980000

/-- Words 0 to 6 of the record (Table 3.5). -/
def State.recWords (s : State) (core : Nat) (e : QEntry) (d : List Nat) (run : MRun) (r : SpillReason) (rows crc : Nat) : List Nat :=
  let (nb, mg, kb, fr) := mCoord d run.fold
  [1 + spillRank r * 2 ^ 4 + (if run.prepass then accMode (mCls d) run.span else 0) * 2 ^ 7 + b2n (mTwin d) * 2 ^ 10 +
      b2n run.prepass * 2 ^ 11 + (if run.prepass then ofSigned 10 run.anchor else 0) * 2 ^ 12 + run.arith % 256 * 2 ^ 22 + rows * 2 ^ 30,
    e.tag % 2 ^ 32 + crc32c (s.descRaw (coreOf (cluOfCore core) 0 + (if mTwin d then 0 else slotOf core)) e) * 2 ^ 32,
    run.fold + mFolds d % 2 ^ 32 * 2 ^ 32,
    nb + mg * 2 ^ 5 + kb * 2 ^ 13 + fr * 2 ^ 23,
    s.now % 2 ^ 64,
    s.vatIdOf (cluOfCore core) + s.logCid core * 2 ^ 8,
    crc]

/-- The accumulators that a stop point finds. -/
def State.spillAccs (s : State) (core : Nat) (d : List Nat) (run : MRun) : List Acc :=
  let (nb, mg, _, _) := mCoord d run.fold
  if run.fold = 0 then [] else if run.acc = [] then s.groupInit core d nb mg else run.acc

/-- What their sums have beyond the words (log 43); a run that has issued no fold since its restore keeps what it had. -/
def State.spillExcess (s : State) (core : Nat) (e : QEntry) (d : List Nat) (run : MRun) : List (Nat × Int × Int) :=
  if run.fresh then e.excess
  else ((s.spillAccs core d run).zipIdx.map fun x => (x.2, x.1.excess (accMode (mCls d) run.span))).filter fun x => x.2 ≠ (0, 0)

/-- Writes accumulators and record (R81): words 0 to 6, then word 7. -/
def State.writeSpill (s : State) (core : Nat) (e : QEntry) (d : List Nat) (run : MRun) (r : SpillReason) : State :=
  let (_, mg, _, _) := mCoord d run.fold
  let rows := if run.fold = 0 then 0 else min 256 (mM d - 256 * mg)
  let src := coreOf (cluOfCore core) 0 + (if mTwin d then 0 else slotOf core)
  let mode := accMode (mCls d) run.span
  let bytes := if rows = 0 then []
    else if run.fresh then ofBytes (s.ldBytes (scrKey core accOff) (rows * 2048))
    else (s.spillAccs src d run).flatMap fun x => leBytes 16 (x.word mode run.anchor)
  let s := if run.fresh then s else s.writeScr core accOff (toBytes bytes)
  let ws := (s.recWords core e d run r rows (crc32c bytes)).flatMap (leBytes 8)
  (s.writeScr core recOff (toBytes ws)).writeScr core (recOff + 0x38) (toBytes (leBytes 8 (crc32c ws + 2 ^ 32)))

/-- A core has carried out its Spill. -/
def State.markSpilled (s : State) (core : Nat) : State :=
  s.setCore core { s.core core with spillReq := none, spilled := true, run := none }

/-- SPILL_STOP_POINT (R79 to R82): a running M.MMA writes its spill and is left at the head, marked interrupted; in twin
mode both cores write. A command whose work is done ends as usual; an idle core only stops. A pre-pass that has not been
made leaves a record without accumulators. -/
def State.doSpillStop (s : State) (core : Nat) : State :=
  let ck := cluOfCore core
  let c := s.core core
  if 2 ≤ slotOf core then s
  else match c.spillReq with
    | none => s
    | some r =>
      let q := slotOf core
      match (s.que (ck * 4 + q)).head? with
      | none => s.markSpilled core
      | some e =>
        if e.st = .running ∧ e.isM ∧ e.op = 1 then
          let d := match c.run with
            | some run => run.desc.map BitVec.toNat
            | none => s.descWords core e
          let run := c.run.getD { desc := d.map w64 }
          let cores := s.stopCores core
          let ex := s.spillExcess (coreOf ck q) e d run
          let s := s.each cores fun s k => (s.writeSpill k e d run r).markSpilled k
          s.setHead (ck * 4 + q) { e with st := .interrupted, excess := ex }
        else if e.st = .running then s
        else if s.stopCores core = [core] ∨ q = 0 then s.markSpilled core else s

def execSpillStopPoint (c : Core) (s : State) : Host.Outcome State Fault Refusal := .next (s.doSpillStop (coreKey c))

/-- What a core's record and spilled accumulators give back (R83): the state after the reads, and the run. -/
def State.readSpill (s : State) (core : Nat) (e : QEntry) (d : List Nat) (crc : Nat) : State × Option MRun :=
  let a := scrKey core recOff
  let (s, ok) := s.readScr core recOff 64 1
  let w (i : Nat) : Nat := s.ld (a + 8 * i) 8
  let rows := bitsOf (w 0) 38 30
  let (s, ok2) := if ok then s.readScr core accOff (rows * 2048) 1 else (s, false)
  let bytes := ofBytes (s.ldBytes (scrKey core accOff) (rows * 2048))
  let good := ok && ok2 && bitOf (w 7) 32 && w 7 % 2 ^ 32 == crc32c (ofBytes (s.ldBytes a 56)) && w 1 % 2 ^ 32 == e.tag &&
    w 1 / 2 ^ 32 == crc && w 6 % 2 ^ 32 == crc32c bytes
  if !good then (s, none)
  else
    let mode := bitsOf (w 0) 9 7
    let span := mode == 3
    let acc := if rows = 0 then []
      else (List.range (rows * 128)).map fun i => accOfWord (leNat ((bytes.drop (16 * i)).take 16))
        (((e.excess.find? fun x => x.1 == i).map Prod.snd).getD (0, 0))
    (s, some { desc := d.map w64, fold := w 2 % 2 ^ 32, prepass := bitOf (w 0) 11, span := span,
               anchor := toSigned 10 (bitsOf (w 0) 21 12), arith := bitsOf (w 0) 29 22, acc := acc, fresh := true })

/-- The cores that an M.MMA of a queue runs on. -/
def mCores (ck q : Nat) (twin : Bool) : List Nat := if twin then [coreOf ck 0, coreOf ck 1] else [coreOf ck q]

/-- SPILL_RESUME (R83, R107, R118): the interrupted head is dispatched once more, its descriptor read again. An M.MMA goes on from
its record when every check holds, in twin mode both records'; else it runs from fold 0, counted in RESTARTS of each core. A
V-class command reruns. -/
def State.doSpillResume (s : State) (core : Nat) : State :=
  let ck := cluOfCore core
  let q := slotOf core
  match (s.que (ck * 4 + q)).head? with
  | none => s
  | some e =>
    if 4 ≤ q ∨ e.st ≠ .interrupted ∨ !s.mayDispatch core then s
    else if 2 ≤ q then s.setHead (ck * 4 + q) { e with st := .running }
    else
      let (s, c) := s.readDesc core e
      if c ≠ 0 then s.endWork ck q e c 0
      else
        let d := s.descWords core e
        let crc := crc32c (s.descRaw core e)
        let (s, r) := s.readSpill core e d crc
        let twin := mTwin d && q == 0
        let (s, r1) := if twin then s.readSpill (coreOf ck 1) e d crc else (s, r)
        match r, r1 with
        | some run, some _ =>
          (s.setCore core { s.core core with run := some run }).setHead (ck * 4 + q) { e with st := .running, resumed := true }
        | _, _ =>
          let s := s.each (mCores ck q twin) fun s k => s.bump Reg.MCHK_COUNT_RESTARTS k
          (s.setCore core { s.core core with run := none }).setHead (ck * 4 + q) { e with st := .running, restarted := true, excess := [] }

def execSpillResume (c : Core) (s : State) : Host.Outcome State Fault Refusal := .next (s.doSpillResume (coreKey c))

/-! ### Check failures (R85 to R88) -/

/-- SOURCE of Table 3.7. -/
def srcCode : CheckSource → Nat
  | .columnResidue => 1
  | .accResidue => 2
  | .weightParity => 3
  | .accParity => 4
  | .twin => 5

/-- The counter of Table 3.7 that a failure raises. -/
def srcCounter : CheckSource → Fld
  | .columnResidue => Reg.MCHK_COUNT_RESIDUE_ERR
  | .accResidue => Reg.MCHK_COUNT_RESIDUE_ERR
  | .weightParity => Reg.MCHK_COUNT_PARITY_ERR
  | .accParity => Reg.MCHK_COUNT_PARITY_ERR
  | .twin => Reg.MCHK_COUNT_TWIN_MISM

/-- Counts a failure in a core's MATRIX_CHK and records it. -/
def State.noteCheck (s : State) (core : Nat) (src : CheckSource) (tag col row : Nat) (esc : Bool) : State :=
  (((((s.bump (srcCounter src) core).wr Reg.MCHK_LAST_CMD_TAG core tag).wr Reg.MCHK_LAST_COLUMN core col).wr
    Reg.MCHK_LAST_ROW core (if src = .weightParity then 0 else row)).wr Reg.MCHK_LAST_SOURCE core (srcCode src)).wr
    Reg.MCHK_LAST_ESCALATED core (b2n esc)

/-- A die is reported as lost: DIE_LOSS will handle it. -/
def State.reportLoss (s : State) (tile site why : Nat) : State :=
  { s with flt := { s.flt with lossQueue := s.flt.lossQueue ++ [(tile * 8 + site, why)] } }

/-- ARRAY_CHECK_FAILURE (R87): the first failure of an instruction restarts it from dispatch when AUTO_RESTART is set; any
other ends it with ARRAY_CHECK and reports the die. A failure of M1 in twin mode is one of M0's instruction, a twin
mismatch one of both cores. The residues and parity bits are functions of what they protect, so a failure comes with the command;
accumulator residues are compared at write-out in EXACT modes only (R85). -/
def State.doArrayCheck (s : State) (core : Nat) (src : CheckSource) (col row : Nat) : State :=
  let ck := cluOfCore core
  let twin := (s.core (coreOf ck 1)).twin
  let q := if twin then 0 else slotOf core
  if 2 ≤ slotOf core ∨ (s.core (coreOf ck q)).run = none then s
  else if (src = .columnResidue ∨ src = .accResidue) ∧ s.rd Reg.MCHK_CTL_RESIDUE_EN core = 0 then s
  else if src = .accResidue ∧ (s.core (coreOf ck q)).run.any (fun r => r.span || (mCls (r.desc.map BitVec.toNat)).float) then s
  else if src = .twin ∧ !twin then s
  else match s.running ck q true 1 with
    | none => s
    | some e =>
      let again := decide (e.fails = 0) && s.rd Reg.MCHK_CTL_AUTO_RESTART core == 1
      let cores := if src = .twin then mCores ck 0 true else [core]
      let s := s.each cores fun s k =>
        let s := s.noteCheck k src e.tag col row (!again)
        if again then s.bump Reg.MCHK_COUNT_RESTARTS k else s
      let arith := ((s.core (coreOf ck q)).run.map MRun.arith).getD 0
      let s := s.setCore (coreOf ck q) { s.core (coreOf ck q) with run := none }
      if again then s.setHead (ck * 4 + q) { e with fails := e.fails + 1, restarted := true, excess := [] }
      else (s.endWork ck q e cArray arith).reportLoss (ckTile ck) (ckSite ck) 0

def execArrayCheckFailure (c : Core) (src : CheckSource) (col : BitVec 7) (row : BitVec 8) (s : State) :
    Host.Outcome State Fault Refusal := .next (s.doArrayCheck (coreKey c) src col.toNat row.toNat)

end Sys2Proof.Machine
end

