-- ==== Sys2Proof/Machine/ScalarBr.lean ====
section
/-! DEFINITION. Class S-BR of Assyn (Table 5.4, R123, R127, R147), exception entry (R144, R146), the end of a wait (R127,
R141) and the S-core's Spill and resumption (R112, R148). -/

namespace Sys2Proof.Machine

/-- A conditional branch: PC ← PC + OFF × 8 where the condition holds; RD and the reserved bits must be 0. -/
def State.branch (s : State) (c : Clu) (f : FmtB) (cond : Word → Word → Bool) : State :=
  s.scalar (cluKey c) (f.rd == 0 && f.rsv == 0) fun sc s =>
    if cond (sc.getX f.rs1.toNat) (sc.getX f.rs2.toNat) then
      s.setSc (cluKey c) { sc with pc := sc.pc + (f.off.signExtend 64 <<< 3), fullStall := false }
    else s.retire (cluKey c) sc

/-- BEQ. -/
def execBeq (c : Clu) (f : FmtB) (s : State) : Host.Outcome State Fault Refusal := .next (s.branch c f fun x y => x == y)

/-- BNE. -/
def execBne (c : Clu) (f : FmtB) (s : State) : Host.Outcome State Fault Refusal := .next (s.branch c f fun x y => x != y)

/-- BLT. -/
def execBlt (c : Clu) (f : FmtB) (s : State) : Host.Outcome State Fault Refusal := .next (s.branch c f fun x y => x.slt y)

/-- BGE. -/
def execBge (c : Clu) (f : FmtB) (s : State) : Host.Outcome State Fault Refusal := .next (s.branch c f fun x y => !(x.slt y))

/-- BLTU. -/
def execBltu (c : Clu) (f : FmtB) (s : State) : Host.Outcome State Fault Refusal := .next (s.branch c f fun x y => decide (x < y))

/-- BGEU. -/
def execBgeu (c : Clu) (f : FmtB) (s : State) : Host.Outcome State Fault Refusal := .next (s.branch c f fun x y => !decide (x < y))

/-- JAL: RD ← PC + 8; PC ← PC + OFF × 8. A target beyond the scratch raises BOUNDS when it is fetched (R123). -/
def execJal (c : Clu) (f : FmtB) (s : State) : Host.Outcome State Fault Refusal := .next (s.scalar (cluKey c) (f.rs1 == 0 && f.rs2 == 0 && f.rsv == 0) fun sc s =>
  s.setSc (cluKey c) { sc.setX f.rd.toNat (sc.pc + 8) with pc := sc.pc + (f.off.signExtend 64 <<< 3), fullStall := false })

/-- JALR: RD ← PC + 8; PC ← RS1 + OFF, ALIGN unless a multiple of 8. -/
def execJalr (c : Clu) (f : FmtB) (s : State) : Host.Outcome State Fault Refusal := .next (s.scalar (cluKey c) (f.rs2 == 0 && f.rsv == 0) fun sc s =>
  let t := sc.getX f.rs1.toNat + f.off.signExtend 64
  if t.toNat % 8 ≠ 0 then s.trap (cluKey c) cAlign t
  else s.setSc (cluKey c) { sc.setX f.rd.toNat (sc.pc + 8) with pc := t, fullStall := false })

/-- WAITC: waits until (CTR[OFF] − RS1) mod 2^32 < 2^31; OFF above 15 is ILLEGAL. -/
def execWaitc (c : Clu) (f : FmtB) (s : State) : Host.Outcome State Fault Refusal := .next (s.scalar (cluKey c) (f.rs2 == 0 && f.rd == 0 && f.rsv == 0 && decide (f.off.toNat < 16)) fun sc s =>
  let v := (sc.getX f.rs1.toNat).toNat % 2 ^ 32
  if ctrReached (s.ctr (cluKey c) f.off.toNat) v then s.retire (cluKey c) sc
  else s.setSc (cluKey c) { sc with wait := some (.ctr f.off.toNat v) })

/-- RETX (R147): all fields 0; ILLEGAL outside a handler. -/
def execRetx (c : Clu) (f : FmtB) (s : State) : Host.Outcome State Fault Refusal := .next (s.scalar (cluKey c) (decide (f = ⟨0, 0, 0, 0, 0⟩)) fun sc s =>
  if sc.inSH then s.setSc (cluKey c) { sc with pc := sc.sepc, priv := sc.prevPriv, inSH := false }
  else if sc.inVH then s.setSc (cluKey c) { sc with pc := sc.vepc, inVH := false }
  else s.trapNoAddr (cluKey c) cIllegal)

/-- Does the word at an S-core's PC spell an instruction (R122, R124)? -/
def State.wordOk (s : State) (c : Clu) : Bool :=
  (decodeAssyn c (w64 (s.ld (scrKey (coreOf (cluKey c) 4) (s.sc (cluKey c)).pc.toNat) 8))).isSome

/-- EXCEPTION_ENTRY (R144, R146): the first pending exception is delivered at an instruction boundary; a core that waits
for a load has not reached one. With none pending the S-core fetches: a fetch fault (R123, R166), or ILLEGAL where the word spells no
instruction (R122), is what it takes. -/
def State.doExceptionEntry (s : State) (cl : Clu) : State :=
  let ck := cluKey cl
  let c := s.sc ck
  if !c.up || c.held || c.spilled || c.stopped || c.wait == some .load || c.wait == some .start then s
  else match c.nextExc with
    | none => s.scalar ck (s.wordOk cl) fun _ s => s
    | some e => (s.setSc ck { c with excs := c.excs.erase e }).takeExc ck e.cause e.src e.sigCtr e.tag e.priv e.addr

def execExceptionEntry (c : Clu) (s : State) : Host.Outcome State Fault Refusal := .next (s.doExceptionEntry c)

/-- Does a wait's condition hold? A load, and a core that waits for START, are ended by other events. -/
def State.waitHolds (s : State) (ck : Nat) : SWait → Bool
  | .ctr i v => ctrReached (s.ctr ck i) v
  | .orFlags vat m => s.orFlags vat &&& m != 0
  | .andFlags vat m => s.andFlags vat &&& m == m
  | .barrier vat gen => mget 0 s.ren.bars vat != gen
  | .step vat gen _ => mget 0 s.ren.stepGen vat != gen
  | .flag _ _ _ => (s.sc ck).accs.isEmpty
  | .load => false
  | .start => false

/-- This S-core's contribution to the flags of a vat changes (R278); a Y.CLR also clears what the resident services have set
(R478, log 36). -/
def State.setFlags (s : State) (ck vat : Nat) (mask : Word) (set : Bool) : State :=
  match s.logOf ck with
  | none => s
  | some lk =>
    let k := vat * 65536 + lk
    let v := mget 0 s.ren.flags k
    let fl := mset 0 s.ren.flags k (if set then v ||| mask else v &&& ~~~mask)
    { s with ren := { s.ren with flags := if set then fl else mset 0 fl (svcFlagKey vat) (s.svcFlags vat &&& ~~~mask) } }

/-- An arrival that its event has answered is forgotten (R280). -/
def State.clearArrival (s : State) (ck vat : Nat) (step : Bool) : State :=
  match s.logOf ck with
  | none => s
  | some lk =>
    let k := vat * 65536 + lk
    { s with ren := if step then { s.ren with stepArr := mset 0 s.ren.stepArr k 0 } else { s.ren with arrive := mset 0 s.ren.arrive k 0 } }

/-- WAIT_CONDITION_MET (R127, R280): the waiting instruction completes; E.STEP delivers the step number. -/
def State.doWaitConditionMet (s : State) (ck : Nat) : State :=
  let c := s.sc ck
  if !c.up || c.held || c.spilled || c.stopped then s
  else match c.wait with
    | none => s
    | some w =>
      if s.waitHolds ck w then
        let c := { c with wait := none, deadline := none }
        match w with
        | .step vat _ rd => (s.clearArrival ck vat true).retire ck (c.setX rd (w64 (s.rd Reg.LG_VAT_STEP 0 vat)))
        | .barrier vat _ => (s.clearArrival ck vat false).retire ck c
        | .flag vat m set => (s.setFlags ck vat m set).retire ck c
        | _ => s.retire ck c
      else s

def execWaitConditionMet (c : Clu) (s : State) : Host.Outcome State Fault Refusal := .next (s.doWaitConditionMet (cluKey c))

/-- WAIT_TIMEOUT (R141): the wait's limit has run out; the S-core raises TIMEOUT. -/
def State.doWaitTimeout (s : State) (ck : Nat) : State :=
  let c := s.sc ck
  if !c.up || c.held || c.spilled || c.stopped || c.wait.isNone then s
  else match c.deadline with
    | none => s
    | some d => if d ≤ s.now then s.trapNoAddr ck cTimeout else s

def execWaitTimeout (c : Clu) (s : State) : Host.Outcome State Fault Refusal := .next (s.doWaitTimeout (cluKey c))

/-- The S-core's context, bytes 0x000 to 0x1F7 (Table 4.5). -/
def State.sContext (s : State) (ck : Nat) : List Nat :=
  let c := s.sc ck
  let ws := (List.range 32).map (fun r => (c.getX r).toNat) ++ (List.range 16).map (fun r => (c.getF r).toNat) ++
    [c.pc.toNat, c.cmdtag.toNat, c.cmdwait.toNat, c.cmdsig.toNat, s.vatIdOf ck + s.logCid (coreOf ck 4) * 2 ^ 8]
  ws.flatMap (leBytes 8) ++ (List.range 16).flatMap (fun i => leBytes 4 (s.ctr ck i)) ++ leBytes 8 (s.now % 2 ^ 64) ++ leBytes 8 0

/-- The exception state, bytes 0x200 to 0x277 (R148). -/
def SCore.excState (c : SCore) : List Nat :=
  ([c.vtvec, c.vepc, c.vecause, c.veinfo, c.veaddr, c.xstat, c.sepc, c.secause, c.seinfo, c.seaddr].flatMap
    fun w => leBytes 8 w.toNat) ++ List.replicate 40 0

/-- Does an S-core wait for an AMO: it has reached no instruction boundary until the answer comes (R112; log 67)? -/
def SCore.inAmo (c : SCore) : Bool := c.wait == some .load && c.accs.any fun a => a.op == opAmo

/-- S_CORE_SPILL (R112, R148): the S-core stops, a load beyond its cluster is discarded and reissues on resume, and the
context and the exception state go to pail 63. A Hold in force stays. -/
def State.doSCoreSpill (s : State) (ck : Nat) : State :=
  let c := s.sc ck
  if !c.up || c.stopped || !c.spillReq || c.inAmo then s
  else
    let core := coreOf ck 4
    let c := { c with wait := if c.wait = some .start then c.wait else none, deadline := none, spillReq := false,
                      spilled := true, accs := c.accs.filter fun a => !a.isLoad }
    let s := s.setSc ck c
    let ctx := s.sContext ck
    let s := s.writeScr core (pail63At 4) (toBytes ctx)
    let s := s.writeScr core (pail63At 4 + 0x1F8) (toBytes (leBytes 8 (crc32c ctx + 2 ^ 32)))
    let ext := c.excState
    let s := s.writeScr core (pail63At 4 + 0x200) (toBytes ext)
    s.writeScr core (pail63At 4 + 0x278) (toBytes (leBytes 8 (crc32c ext)))

def execSCoreSpill (c : Clu) (s : State) : Host.Outcome State Fault Refusal := .next (s.doSCoreSpill (cluKey c))

/-- S_CORE_RESUME (R112, R118, R148): the context comes back when VALID, both CRCs and the reads are good; else the vat
goes into fault-hold. Failed heads whose QDLV bit is clear deliver their exceptions again. -/
def State.doSCoreResume (s : State) (ck : Nat) : State :=
  let c := s.sc ck
  let vat := s.vatIdOf ck
  if !c.up || c.stopped || !c.spilled || s.vatFrozen vat then s
  else
    let core := coreOf ck 4
    let at_ := scrKey core (pail63At 4)
    let (s, ok) := s.readScr core (pail63At 4) 0x280 2
    let ctx := ofBytes (s.ldBytes at_ 0x1F8)
    let ext := ofBytes (s.ldBytes (at_ + 0x200) 0x78)
    let last := s.ld (at_ + 0x1F8) 8
    let good := ok && bitOf last 32 && decide (last % 2 ^ 32 = crc32c ctx) && decide (s.ld (at_ + 0x278) 4 = crc32c ext)
    if !good then (s.holdAt ck true).1
    else
      let w (o : Nat) : Word := w64 (s.ld (at_ + o) 8)
      let xs := w 0x228
      let c := { c with pc := w 0x180, cmdtag := w 0x188, cmdwait := w 0x190, cmdsig := w 0x198,
                        vtvec := w 0x200, vepc := w 0x208, vecause := w 0x210, veinfo := w 0x218, veaddr := w 0x220,
                        priv := xs.getLsbD 0, inVH := xs.getLsbD 1, inSH := xs.getLsbD 2, prevPriv := xs.getLsbD 3,
                        qdlv := (xs >>> 4).truncate 4,
                        sepc := w 0x230, secause := w 0x238, seinfo := w 0x240, seaddr := w 0x248, spilled := false }
      let c := (List.range 32).foldl (fun c r => c.setX r (w (8 * r))) c
      let c := (List.range 16).foldl (fun c r => c.setF r (w (0x100 + 8 * r))) c
      let again := (List.range 4).filterMap fun q => match (s.que (ck * 4 + q)).head? with
        | some e => (match e.st with
          | .failed cause => if c.qdlv.getLsbD q then none else some (s.queueExc ck q cause e)
          | _ => none)
        | none => none
      let c := { c with excs := again ++ c.excs.filter fun e => !decide (e.src < 4) }
      (s.setSc ck c).each (List.range 16) fun s' i => s'.wr Reg.CTR_VALUE ck (s.ld (at_ + 0x1A8 + 4 * i) 4) i

def execSCoreResume (c : Clu) (s : State) : Host.Outcome State Fault Refusal := .next (s.doSCoreResume (cluKey c))

end Sys2Proof.Machine
end

