-- ==== Sys2Proof/Machine/Rennet.lean ====
section
/-! DEFINITION. The rennet line's instructions (Table 5.13 class Y, R277 to R281), class C (Table 5.14) and the exponent
lanes (R294, R306). What S-cores of other modules contribute is not seen here (log 25). -/

namespace Sys2Proof.Machine

/-- LEVEL and TIMEOUT of R141. -/
def imLevel (imm : BitVec 42) : Nat := imm.toNat / 2 ^ 40
def imTimeout (imm : BitVec 42) : Nat := imm.toNat % 2 ^ 40

/-- The S-core waits, with a limit in CK_T cycles where one is given (R141). -/
def State.waitFor (s : State) (ck : Nat) (sc : SCore) (w : SWait) (imm : BitVec 42) : State :=
  s.setSc ck { sc with wait := some w, deadline := if imTimeout imm = 0 then none else some (s.now + imTimeout imm) }

/-- An instruction that acts on the vat that LEVEL selects: BOUNDS above the top level (R141). -/
def State.levelled (s : State) (c : Clu) (f : FmtI) (legal : Bool) (body : Nat → SCore → State → State) : State :=
  s.scalar (cluKey c) legal fun sc s =>
    match s.vatAtLevel (cluKey c) (imLevel f.imm) with
    | none => s.trapNoAddr (cluKey c) cBounds
    | some v => body v sc s

/-- Y.SET and Y.CLR (R278): the change waits, as MFENCE waits, for the stores and AMOs. -/
def State.yFlag (s : State) (c : Clu) (f : FmtI) (set : Bool) : State :=
  s.levelled c f (f.rd == 0) fun v sc s =>
    let m := sc.getX f.rs1.toNat
    if s.waitHolds (cluKey c) (.flag v m set) then (s.setFlags (cluKey c) v m set).retire (cluKey c) sc
    else s.waitFor (cluKey c) sc (.flag v m set) f.imm

/-- Y.SET. -/
def execYSet (c : Clu) (f : FmtI) (s : State) : Host.Outcome State Fault Refusal := .next (s.yFlag c f true)

/-- Y.CLR. -/
def execYClr (c : Clu) (f : FmtI) (s : State) : Host.Outcome State Fault Refusal := .next (s.yFlag c f false)

/-- Y.RD (R279): IMM[0] selects the OR or the AND reduction; IMM[39:1] must be 0. -/
def execYRd (c : Clu) (f : FmtI) (s : State) : Host.Outcome State Fault Refusal :=
  .next (s.levelled c f (f.rs1 == 0 && decide (imTimeout f.imm < 2)) fun v sc s =>
    s.retire (cluKey c) (sc.setX f.rd.toNat (if imTimeout f.imm = 1 then s.andFlags v else s.orFlags v)))

/-- A wait on the flags of a vat. -/
def State.yWait (s : State) (c : Clu) (f : FmtI) (w : Nat → Word → SWait) : State :=
  s.levelled c f (f.rd == 0) fun v sc s =>
    if s.waitHolds (cluKey c) (w v (sc.getX f.rs1.toNat)) then s.retire (cluKey c) sc
    else s.waitFor (cluKey c) sc (w v (sc.getX f.rs1.toNat)) f.imm

/-- Y.WAITOR: until OR & RS1 ≠ 0. -/
def execYWaitor (c : Clu) (f : FmtI) (s : State) : Host.Outcome State Fault Refusal := .next (s.yWait c f .orFlags)

/-- Y.WAITAND: until AND & RS1 = RS1. -/
def execYWaitand (c : Clu) (f : FmtI) (s : State) : Host.Outcome State Fault Refusal := .next (s.yWait c f .andFlags)

/-- The arrival of an S-core, as the number + 1 of the barrier or step it has joined; 0 = none. -/
def State.arrival (s : State) (vat lk : Nat) (step : Bool) : Nat :=
  mget 0 (if step then s.ren.stepArr else s.ren.arrive) (vat * 65536 + lk)

/-- Registers an arrival once; answers the barrier it belongs to (R280). -/
def State.arrive (s : State) (ck vat : Nat) (step : Bool) : State × Nat :=
  match s.logOf ck with
  | none => (s, 0)
  | some lk =>
    let k := vat * 65536 + lk
    let a := s.arrival vat lk step
    let gen := mget 0 (if step then s.ren.stepGen else s.ren.bars) vat
    if a ≠ 0 then (s, a - 1)
    else
      ({ s with ren := if step then { s.ren with stepArr := mset 0 s.ren.stepArr k (gen + 1) }
                       else { s.ren with arrive := mset 0 s.ren.arrive k (gen + 1) } }, gen)

/-- Y.BAR (R280): the arrival is registered once; the instruction completes on the barrier's event, at once where that
has passed. -/
def execYBar (c : Clu) (f : FmtI) (s : State) : Host.Outcome State Fault Refusal :=
  .next (s.levelled c f (f.rd == 0 && f.rs1 == 0) fun v sc s =>
    let (s, gen) := s.arrive (cluKey c) v false
    if s.waitHolds (cluKey c) (.barrier v gen) then (s.clearArrival (cluKey c) v false).retire (cluKey c) sc
    else s.waitFor (cluKey c) sc (.barrier v gen) f.imm)

/-- Has every S-core of a vat arrived at its open barrier, or step? -/
def State.allArrived (s : State) (vat : Nat) (step : Bool) : Bool :=
  let gen := mget 0 (if step then s.ren.stepGen else s.ren.bars) vat
  !(s.members vat).isEmpty && (s.members vat).all (fun lk => s.arrival vat lk step == gen + 1) &&
    (!s.spans vat || Config.farArrived vat (b2n step) gen s.now)

/-- Every S-core of a vat that waits and whose condition holds goes on. -/
def State.wakeVat (s : State) (vat : Nat) : State :=
  s.each ((s.clusOf vat).filterMap s.physOf) State.doWaitConditionMet

/-- The barrier's event (R280). -/
def State.passBarrier (s : State) (vat : Nat) : State :=
  State.wakeVat { s with ren := { s.ren with bars := mset 0 s.ren.bars vat (mget 0 s.ren.bars vat + 1) } } vat

/-! ### Class C -/

/-- C.SVC (R143, Table 5.17): source 4, cause SVC, the code in TAG. Code 0x0100 is what the step loop waits for (R479). -/
def execCSvc (c : Clu) (f : FmtI) (s : State) : Host.Outcome State Fault Refusal :=
  .next (s.scalar (cluKey c) (f.rd == 0 && f.rs1 == 0 && decide (f.imm.toNat < 2 ^ 16)) fun sc s =>
    let ck := cluKey c
    let ids := s.chain (s.vatIdOf ck)
    let s := if f.imm.toNat = 0x0100 then
        { s with svc := { s.svc with steps := s.svc.steps.map fun r => if ids.contains r.vat then { r with svcCalled := true } else r } }
      else s
    let (a, s) := s.draw
    s.takeExc ck cSvc 4 0 f.imm.toNat sc.priv a)

/-- C.ENTER (R142): drops to vat privilege and continues at RS1. -/
def execCEnter (c : Clu) (f : FmtR) (s : State) : Host.Outcome State Fault Refusal :=
  .next (s.scalar (cluKey c) (f.rd == 0 && f.rs2 == 0 && f.rs3 == 0 && f.rm == 0 && f.rsv == 0) fun sc s =>
    let t := sc.getX f.rs1.toNat
    if !sc.priv then s.trapNoAddr (cluKey c) cPriv
    else if t.toNat % 8 ≠ 0 then s.trap (cluKey c) cAlign t
    else s.setSc (cluKey c) { sc with priv := false, pc := t, fullStall := false })

/-- C.FENCE (R18, R401): fences the core whose system core id is RS1, by its physical site. A core of another module is
not seen here (log 20). -/
def execCFence (c : Clu) (f : FmtR) (s : State) : Host.Outcome State Fault Refusal :=
  .next (s.scalar (cluKey c) (f.rd == 0 && f.rs2 == 0 && f.rs3 == 0 && f.rm == 0 && f.rsv == 0) fun sc s =>
    let w := (sc.getX f.rs1.toNat).toNat
    let id := w % 2 ^ 14
    if !sc.priv then s.trapNoAddr (cluKey c) cPriv
    else if 2 ^ 20 ≤ w ∨ !s.coreOk 0 true (w / 2 ^ 14) id then s.trapNoAddr (cluKey c) cBounds
    else
      let s := s.retire (cluKey c) sc
      match (if w / 2 ^ 14 = s.ownMod then s.physCore true id else none) with
      | some core => s.fence core
      | none => s)

/-! ### Exponent lanes (R294) -/

/-- The vat of a lane, and the modules that take part. -/
def State.laneVat (s : State) (lane : Nat) : Option Vat :=
  if s.rd Reg.EXP_BIND_VALID 0 lane = 1 then s.vat? (s.rd Reg.EXP_BIND_VAT 0 lane) else none

/-- What a module has written to a lane: exponent and TAG. -/
def State.laneOf (s : State) (lane m : Nat) : Option (Nat × Nat) :=
  let v := mget 0 s.ren.expMod (lane * 64 + m)
  if v = 0 then none else some ((v - 1) / 65536, (v - 1) % 65536)

/-- Modules of a lane's vat that have written a TAG. -/
def State.laneTagged (s : State) (lane tag : Nat) : List Nat :=
  (((s.laneVat lane).map Vat.mods).getD []).filter fun m => (s.laneOf lane m).map Prod.snd == some tag

/-- The largest of 16-bit two's complement exponents; 0x8000 of none. -/
def maxExp (l : List Nat) : Nat := ofSigned 16 ((l.map (toSigned 16)).foldl max (-(2 ^ 15 : Nat)))

def State.laneExp (s : State) (lane tag : Nat) : Nat :=
  maxExp ((s.laneTagged lane tag).filterMap fun m => (s.laneOf lane m).map Prod.fst)

/-- The seals of a lane, and the one of a TAG. -/
def State.sealsOf (s : State) (lane : Nat) : List Seal := mget [] s.ren.seals lane
def State.seal? (s : State) (lane tag : Nat) : Option Seal := (s.sealsOf lane).find? fun e => e.tag == tag

/-- Has every module of the lane's vat written the TAG? -/
def State.laneFull (s : State) (lane tag : Nat) : Bool :=
  match s.laneVat lane with
  | none => false
  | some v => decide (v.mods ≠ []) && (s.laneTagged lane tag).length == v.mods.length

/-- Seals a lane for a TAG: what has been contributed is final. Seals of the 2^15 TAGs before it are kept for modules that are behind
(log 75). -/
def State.sealLane (s : State) (lane tag : Nat) : State :=
  if (s.laneVat lane).isNone || (s.seal? lane tag).isSome then s
  else
    let kept := (s.sealsOf lane).filter fun e => decide ((tag + 2 ^ 16 - e.tag) % 2 ^ 16 < 2 ^ 15)
    let e : Seal := ⟨tag, s.laneExp lane tag, s.laneTagged lane tag, s.laneFull lane tag⟩
    { s with ren := { s.ren with seals := mset [] s.ren.seals lane (kept ++ [e]) } }

/-- A lane that is bound anew holds nothing of the vat before it (log 75). -/
def State.clearLane (s : State) (lane : Nat) : State :=
  { s with ren := { s.ren with seals := mset [] s.ren.seals lane []
                               expMod := s.ren.expMod.filter fun e => decide (e.1 / 64 ≠ lane) } }

/-- EXP_LOCAL_WRITE: a module writes its exponent and TAG; the lane seals when every module has written the TAG. -/
def State.doExpLocal (s : State) (m lane exp tag : Nat) : State :=
  let s := if m = s.ownMod then (s.wr Reg.EXP_LOCAL_EXP 0 exp lane).wr Reg.EXP_LOCAL_TAG 0 tag lane else s
  let s := { s with ren := { s.ren with expMod := mset 0 s.ren.expMod (lane * 64 + m) (exp * 65536 + tag + 1) } }
  if s.laneFull lane tag then s.sealLane lane tag else s

def execExpLocalWrite (m : BitVec 6) (lane : BitVec 6) (exp : BitVec 16) (tag : BitVec 16) (s : State) :
    Host.Outcome State Fault Refusal := .next (s.doExpLocal m.toNat lane.toNat exp.toNat tag.toNat)

/-- SEAL: a module seals the lane for the TAG it has written; this module's own shows in its register. -/
def State.doSeal (s : State) (m lane : Nat) : State :=
  let s := if m = s.ownMod then s.wr Reg.EXP_LOCAL_SEAL 0 1 lane else s
  s.sealLane lane (if m = s.ownMod then s.rd Reg.EXP_LOCAL_TAG 0 lane else ((s.laneOf lane m).map Prod.snd).getD 0)

def execSeal (m : BitVec 6) (lane : BitVec 6) (s : State) : Host.Outcome State Fault Refusal :=
  .next (s.doSeal m.toNat lane.toNat)

/-- EXP_GLOBAL as its register shows it: to the reader's own TAG (Table 10.11); after the seal it stands as the seal found it. -/
def State.expGlobal (s : State) (lane : Nat) : Nat :=
  let tag := s.rd Reg.EXP_LOCAL_TAG 0 lane
  match s.seal? lane tag with
  | some e => e.exp + tag * 2 ^ 16 + b2n e.full * 2 ^ 32 + e.included.length * 2 ^ 33 + 2 ^ 40 + b2n (e.included.contains s.ownMod) * 2 ^ 41
  | none => s.laneExp lane tag + tag * 2 ^ 16 + b2n (s.laneFull lane tag) * 2 ^ 32 + (s.laneTagged lane tag).length * 2 ^ 33

end Sys2Proof.Machine
end

