-- ==== Sys2Proof/Machine/Ledger.lean ====
section
/-! DEFINITION. The energy ledger (12.5 to 12.7): meters, claims, steps and their admission, throttles. Energies are in
µJ, claims in mJ, times in CK_T cycles (900 to a microsecond). -/

namespace Sys2Proof.Machine

/-- CK_T cycles of n milliseconds. -/
def ms (n : Nat) : Nat := us (1000 * n)

/-! ### Budget (R359, R362) -/

/-- CAP_W as a budget of one second, µJ. -/
def State.capBudget (s : State) : Nat := min (s.rd Reg.LG_CAP_CAP_W 0) 16000 * 10 ^ 6

/-- µs left in the energy window. -/
def State.windowLeft (s : State) : Nat := (s.pwr.winStart + us (10 ^ 6) - s.now) / 900

/-- The overhead forecast in µJ per second: the previous window's; in the first one 1,800 W until 1 ms has been metered,
then the mean metered so far (R362). -/
def State.overheadRate (s : State) : Nat :=
  match s.pwr.overheadLast with
  | some e => e
  | none => if s.pwr.overheadTicks < 1000 then 1800 * 10 ^ 6 else s.pwr.overhead * 10 ^ 6 / s.pwr.overheadTicks

/-- The reservation of an open step: its claim minus the energy used, never less than 0. -/
def State.reservation (s : State) (v : Vat) : Nat :=
  if v.stepOpen && v.parent == 0 then v.claim * 1000 - s.rd Reg.LG_VAT_STEP_ENERGY 0 v.id else 0

/-- left (R362), µJ. -/
def State.left (s : State) : Int :=
  (s.pwr.budget : Int) - s.rd Reg.LG_USED_USED 0 - ((s.ledVats.map s.reservation).sum : Nat) -
    (s.overheadRate * s.windowLeft / 10 ^ 6 : Nat)

/-! ### Steps (R360 to R363) -/

/-- The ledger reserves the claim, which takes effect (R360, R362). -/
def State.reserveStep (s : State) (v : Vat) : State :=
  (s.setLed { v with stepOpen := true, granted := true, admittedAt := s.now, claim := s.rd Reg.LG_VAT_CLAIM 0 v.id,
                     waitingSince := none, overSince := none }).wr Reg.LG_VAT_STEP_ENERGY 0 0 v.id

/-- A step begins: the step number rises, waiting E.STEPs complete (R361, steps 3 and 4). -/
def State.beginStep (s : State) (id : Nat) : State :=
  let s := match s.led? id with
    | some v => s.setLed { v with granted := false }
    | none => s
  let s := (s.wr Reg.LG_VAT_WAITING 0 0 id).bumpW Reg.LG_VAT_STEP 0 1 id
  State.wakeVat { s with ren := { s.ren with stepGen := mset 0 s.ren.stepGen id (mget 0 s.ren.stepGen id + 1) } } id

/-- Has every other module of a vat admitted its next step (R363)? -/
def State.allAdmit (s : State) (id : Nat) : Bool := !s.spans id || Config.farAdmitted id (mget 0 s.ren.stepGen id) s.now

/-- This module admits a step: it begins once every module has admitted it (R363). -/
def State.openStep (s : State) (v : Vat) : State :=
  let s := s.reserveStep v
  if s.allAdmit v.id then s.beginStep v.id else s

/-- Steps of a vat closed within the 10 ms before its last close. -/
def Vat.lastSteps (v : Vat) : List (Nat × Nat × Nat × Nat) :=
  match v.closedSteps.getLast? with
  | none => []
  | some l => v.closedSteps.filter fun e => decide (l.2.1 < e.2.1 + ms 10)

/-- The second case of R366. -/
def Vat.overClosed (v : Vat) : Bool :=
  match v.lastSteps.head?, v.lastSteps.getLast? with
  | some f, some l => decide (f.1 + ms 10 ≤ l.2.1) &&
      decide (11 * 1000 * (v.lastSteps.map fun e => e.2.2.2).sum < 10 * (v.lastSteps.map fun e => e.2.2.1).sum)
  | _, _ => false

/-- The throttle levels that reach a vat, the highest of which governs (R365 to R368, R510). -/
def State.levelOf (s : State) (v : Vat) : Nat :=
  let tiles := v.clus.map ckTile
  max (if v.id = 0 then 0 else s.rd Reg.LG_MOD_MOD_LEVEL 0)
    (max v.level (if tiles.any (fun t => s.pwr.limiting.contains t || s.pwr.hot.contains t) then 7 else 0))

/-- LEVEL of every vat shows what is in force. -/
def State.showLevels (s : State) : State := s.each s.ledVats fun s v => s.wr Reg.LG_VAT_LEVEL 0 (s.levelOf v) v.id

/-- A step closes (R361, R366): its energy is recorded in place of the claim; a top-level vat waits for admission, a
sub-vat and vat 0 do not. -/
def State.closeStep (s : State) (v : Vat) : State :=
  let e := s.rd Reg.LG_VAT_STEP_ENERGY 0 v.id
  let good := decide (10 * e ≤ 11 * 1000 * v.claim)
  let v := { v with stepOpen := false, lastPower := e * 900 / max 1 (s.now - v.admittedAt),
                    closedSteps := (v.closedSteps ++ [(v.admittedAt, s.now, e, v.claim)]).filter fun x => decide (s.now < x.2.1 + ms 10),
                    level := if good then 0 else v.level }
  let s := (if good then s.wr Reg.LG_VAT_OVER 0 0 v.id else s).setLed v
  let s := s.showLevels
  if v.id ≠ 0 ∧ v.parent = 0 then
    ({ s with pwr := { s.pwr with admitQ := s.pwr.admitQ ++ [v.id] } }).wr Reg.LG_VAT_WAITING 0 1 v.id
  else (s.reserveStep v).beginStep v.id

/-- Admits waiting vats strictly in order of arrival (R362); those that stay are counted once in DEFERRALS. -/
def State.admitGo : Nat → State → State
  | 0, s => s
  | n + 1, s =>
    match s.pwr.admitQ with
    | [] => s
    | id :: r =>
      match s.vat? id with
      | none => State.admitGo n { s with pwr := { s.pwr with admitQ := r } }
      | some v =>
        if (s.rd Reg.LG_VAT_CLAIM 0 id * 1000 : Int) ≤ s.left then
          State.admitGo n (({ s with pwr := { s.pwr with admitQ := r } }).openStep v)
        else
          s.each (id :: r) fun s i => match s.vat? i with
            | some v => if v.waitingSince = none then (s.setVat { v with waitingSince := some s.now }).bump Reg.LG_MOD_DEFERRALS 0 else s
            | none => s

/-- Steps begin that other modules have now admitted too; then the queue. -/
def State.openWaiting (s : State) : State :=
  let s := s.each ((s.vats.filter Vat.granted).map Vat.id) fun s id => if s.allAdmit id then s.beginStep id else s
  s.admitGo s.pwr.admitQ.length

/-- No previous window stands: the overhead forecast begins anew (R362). -/
def State.freshForecast (s : State) : State :=
  { s with pwr := { s.pwr with overhead := 0, overheadTicks := 0, overheadLast := none } }

/-- The PW_UP history of tiles ends (R372; log 54). -/
def State.clearUps (s : State) (tiles : List Nat) : State :=
  s.each tiles fun s t => s.each [Reg.PW_UP_WAITED, Reg.PW_UP_SLOW_RAMP, Reg.PW_UP_UPS] fun s f => s.wr f t 0

/-- E.CLAIM (R360): it sets the claim of the smallest vat; ENERGY where the ledger refuses it. -/
def execEClaim (c : Clu) (f : FmtI) (s : State) : Host.Outcome State Fault Refusal :=
  .next (s.scalar (cluKey c) (f.rd == 0 && f.imm == 0) fun sc s =>
    let n := (sc.getX f.rs1.toNat).toNat
    let v := s.vatIdOf (cluKey c)
    let par := ((s.vat? v).map Vat.parent).getD 0
    let siblings := ((s.vats.filter fun w => w.parent == par && w.id != v).map fun w => s.rd Reg.LG_VAT_CLAIM 0 w.id).sum
    if n = 0 ∨ 2 ^ 32 ≤ n ∨ s.pwr.budget < n * 1000 ∨ (par ≠ 0 ∧ s.rd Reg.LG_VAT_CLAIM 0 par < siblings + n) then
      s.trapNoAddr (cluKey c) cEnergy
    else (s.wr Reg.LG_VAT_CLAIM 0 n v).retire (cluKey c) sc)

/-- E.STEP (R361): joins the step's barrier; ENERGY while the vat's claim is 0. -/
def execEStep (c : Clu) (f : FmtI) (s : State) : Host.Outcome State Fault Refusal :=
  .next (s.levelled c f (f.rs1 == 0) fun v sc s =>
    if s.rd Reg.LG_VAT_CLAIM 0 v = 0 then s.trapNoAddr (cluKey c) cEnergy
    else
      let (s, gen) := s.arrive (cluKey c) v true
      if s.waitHolds (cluKey c) (.step v gen 0) then
        (s.clearArrival (cluKey c) v true).retire (cluKey c) (sc.setX f.rd.toNat (w64 (s.rd Reg.LG_VAT_STEP 0 v)))
      else s.waitFor (cluKey c) sc (.step v gen f.rd.toNat) f.imm)

/-- E.RD (Table 5.13): ILLEGAL for an IMM above 3. A budget left below 0 reads in two's complement (log 26). -/
def execERd (c : Clu) (f : FmtI) (s : State) : Host.Outcome State Fault Refusal :=
  .next (s.scalar (cluKey c) (f.rs1 == 0 && decide (f.imm.toNat ≤ 3)) fun sc s =>
    let v := s.vatIdOf (cluKey c)
    let x : Word := match f.imm.toNat with
      | 0 => w64 (s.rd Reg.LG_VAT_CLAIM 0 v)
      | 1 => w64 (s.rd Reg.LG_VAT_STEP_ENERGY 0 v)
      | 2 => w64 (s.rd Reg.LG_VAT_STEP 0 v)
      | _ => BitVec.ofInt 64 s.left
    s.retire (cluKey c) (sc.setX f.rd.toNat x))

/-- BARRIER_COMPLETION (R280, R361): every S-core of a vat that is not frozen has arrived at its barrier, or at its
step. -/
def State.doBarrier (s : State) (vat : Nat) : State :=
  match s.led? vat with
  | none => s
  | some v =>
    if v.run = .held then s
    else
      let s := if s.allArrived vat false then s.passBarrier vat else s
      if s.allArrived vat true && (s.rd Reg.LG_VAT_WAITING 0 vat == 0) then s.closeStep v else s

/-- ADMISSION_EVALUATION (R362). -/
def execAdmissionEvaluation (s : State) : Host.Outcome State Fault Refusal := .next s.openWaiting

/-! ### Meters (R357, R358) -/

/-- Activity of a cluster weighted by the fixed coefficients (log 6). -/
def Activity.weight (a : Activity) : Nat :=
  a.macs * Config.energyCoef 0 + a.lanes * Config.energyCoef 1 + a.lines * Config.energyCoef 2

/-- Splits a die's energy in proportion to weights; the last share takes what rounding leaves (log 27). -/
def splitEnergy (e total : Nat) : List Nat → List Nat
  | [] => []
  | [_] => [e]
  | w :: r => e * w / total :: splitEnergy (e - e * w / total) (total - w) r

/-- Shares of a die without activity, which the manual does not state: free values that add up to its energy. -/
def freeShares : Nat → Nat → State → State × List Nat
  | 0, _, s => (s, [])
  | 1, e, s => (s, [e])
  | n + 1, e, s =>
    let (v, s) := s.draw
    let x := v.toNat % (e + 1)
    let (s, r) := freeShares n (e - x) s
    (s, x :: r)

/-- The vats that a cluster's energy is charged to (R121, R358). -/
def State.chargedTo (s : State) (ck : Nat) : List Nat := if s.reserved ck then [0] else s.chain (s.vatIdOf ck)

/-- Charges a cluster's share to the vats that hold it (R358). Vat 0 is over no claim while it has none (log 50). -/
def State.charge (s : State) (ck e : Nat) : State :=
  s.each (s.chargedTo ck) fun s i => match s.led? i with
    | some v =>
      if v.stepOpen then
        let s := s.wr Reg.LG_VAT_STEP_ENERGY 0 (min (s.rd Reg.LG_VAT_STEP_ENERGY 0 i + e) (2 ^ 40 - 1)) i
        let above := decide (v.claim ≠ 0) && decide (11 * 1000 * v.claim < 10 * s.rd Reg.LG_VAT_STEP_ENERGY 0 i)
        if above ∧ v.overSince = none then s.setLed { v with overSince := some s.now } else s
      else s
    | none => s

/-- The energy of one die in a sample. -/
def State.meterDie (s : State) (t p e : Nat) (acts : List Activity) : State :=
  if e = 0 then s
  else if s.siteSt t p = 1 then
    let ws := acts.map Activity.weight
    let (s, sh) := if ws.sum = 0 then freeShares 4 e s else (s, splitEnergy e ws.sum ws)
    s.each sh.zipIdx fun s x => s.charge (t * 32 + p * 4 + x.2) x.1
  else { s with pwr := { s.pwr with overhead := s.pwr.overhead + e } }

/-- The sample of a tile: its cell, the seven dies, and the base die, which takes what the dies leave; what does not add up is no sample
(log 1). -/
def State.meterTile (s : State) (x : EnergySample) : State :=
  let t := x.tile.val
  if !s.cellOn t || decide (7 < x.dies.length) || decide (x.cell < x.dies.sum) then s
  else
    let base := x.cell - x.dies.sum
    let s := (s.bumpW Reg.PW_ENERGY_ENERGY t x.cell).bumpW Reg.PW_SITE_E_ENERGY t base 7
    let s := s.each x.dies.zipIdx fun s d => s.bumpW Reg.PW_SITE_E_ENERGY t d.1 d.2
    let s := s.bump Reg.LG_USED_USED 0 x.cell
    let s := { s with pwr := { s.pwr with overhead := s.pwr.overhead + base } }
    s.each x.dies.zipIdx fun s d => s.meterDie t d.2 d.1 (x.acts.getD d.2 [])

/-- The forecast and what is left, as their registers show them. -/
def State.showBudget (s : State) : State :=
  (s.wr Reg.LG_CAP_OVERHEAD_W 0 (s.overheadRate / 10 ^ 6)).wr Reg.LG_LEFT_LEFT 0 (s.left % (2 ^ 48 : Nat)).toNat

/-- METER_TICK (R357, R358): the energy of one microsecond on every tile. -/
def State.doMeter (s : State) (es : List EnergySample) : State :=
  let s := s.each es State.meterTile
  State.showBudget { s with pwr := { s.pwr with overheadTicks := s.pwr.overheadTicks + 1 } }

def execMeterTick (es : List EnergySample) (s : State) : Host.Outcome State Fault Refusal := .next (s.doMeter es)

/-- A new cap (R359): 4,000 to 17,500 W, else ignored with CFG_CLAMP; it applies to the rest of the window. -/
def State.setCap (s : State) (w : Nat) : State :=
  if 4000 ≤ w ∧ w ≤ 17500 then
    let s := s.wr Reg.LG_CAP_CAP_W 0 w
    State.showBudget { s with pwr := { s.pwr with budget := s.rd Reg.LG_USED_USED 0 + min w 16000 * s.windowLeft } }
  else s.wr Reg.LG_CAP_CFG_CLAMP 0 1

/-- CAP_W_WRITE. -/
def execCapWWrite (w : BitVec 15) (s : State) : Host.Outcome State Fault Refusal := .next (s.setCap w.toNat)

/-- ENERGY_WINDOW_START (R359, R362): a second has passed; the last window's overhead is the next forecast. -/
def State.doWindow (s : State) : State :=
  if s.pwr.winStart + us (10 ^ 6) ≤ s.now then
    let p := s.pwr
    let s := (s.bumpW Reg.LG_WIN_WINDOW 0).wr Reg.LG_USED_USED 0 0
    State.showBudget (State.openWaiting { s with pwr := { p with
      winStart := p.winStart + us (10 ^ 6), budget := s.capBudget, overhead := 0, overheadTicks := 0
      overheadLast := some p.overhead } })
  else s

def execEnergyWindowStart (s : State) : Host.Outcome State Fault Refusal := .next s.doWindow

/-! ### Throttles (R365 to R368) -/

/-- M-cores and V-cores of vats. -/
def State.engines (s : State) (ids : List Nat) : List Nat :=
  ((ids.flatMap fun i => (s.clusOf i).filterMap s.physOf).dedup).flatMap fun ck => (List.range 4).map (coreOf ck)

/-- THROTTLE_FRAME (R365): at the start of a frame a Hold goes to the engines of every vat with frame mod 8 < L, and the
Holds of the others are lifted. -/
def State.doThrottle (s : State) : State :=
  let s := s.showLevels
  let frame := s.sch.slots / 256
  let hold := s.engines ((s.ledVats.filter fun v => decide (frame % 8 < s.levelOf v)).map Vat.id)
  let lift := s.pwr.throttled.filter fun c => !hold.contains c
  let fresh := hold.filter fun c => !s.pwr.throttled.contains c && !(s.core c).held
  let s := s.each lift fun s c => s.setCore c { s.core c with held := false }
  let s := s.each fresh fun s c => s.setCore c { s.core c with held := true }
  { s with pwr := { s.pwr with throttled := (s.pwr.throttled.filter hold.contains) ++ fresh } }

def execThrottleFrame (s : State) : Host.Outcome State Fault Refusal := .next s.doThrottle

/-- OVER_CLAIM (R366): the throttle starts at L = 2 and rises by 1 every 1 ms up to 7. -/
def State.doOverClaim (s : State) (id : Nat) : State :=
  match s.led? id with
  | none => s
  | some v =>
    if s.rd Reg.LG_VAT_OVER 0 id = 0 then
      if (v.overSince.any fun t => decide (t + ms 10 ≤ s.now)) || v.overClosed then
        (((s.setLed { v with level := 2, raisedAt := s.now }).wr Reg.LG_VAT_OVER 0 1 id).bump Reg.LG_VAT_THROTTLES 0 1 id).showLevels
      else s
    else if v.raisedAt + ms 1 ≤ s.now then
      (s.setLed { v with level := min 7 (v.level + 1), raisedAt := v.raisedAt + ms 1 }).showLevels
    else s

def execOverClaim (vat : BitVec 8) (s : State) : Host.Outcome State Fault Refusal := .next (s.doOverClaim vat.toNat)

/-- The strictest of the cap, the limit of R342 (365 A below 48 V) and the thermal limit (R509), W. -/
def State.powerLimit (s : State) : Nat :=
  let v := s.rd Reg.IN_STATUS_VIN 0
  min (s.rd Reg.LG_CAP_CAP_W 0) (min (if 44000 ≤ v ∧ v < 48000 then 365 * v / 1000 else 17500) (s.rd Reg.TR_FCST_THERM_LIMIT_W 0))

/-- Moves every tile one CK_C setting slower, or back to the setting it had (R367, R389). -/
def State.moveDividers (s : State) (slower : Bool) : State :=
  if slower then
    let s := { s with pwr := { s.pwr with divSaved := (List.range 36).foldl (fun m t => mset 0 m t (s.rd Reg.CK_CTL_DIV_REQ t)) [] } }
    s.each (List.range 36) fun s t => s.requestDiv t (min 3 (s.rd Reg.CK_CTL_DIV_REQ t + 1))
  else s.each (List.range 36) fun s t => s.requestDiv t (mget 0 s.pwr.divSaved t)

/-- What the input monitors read: voltage (mV) and current (0.1 A); the bulk stands at the input while the e-fuse is on (R342, R344). -/
def State.readInput (s : State) (vin iin : Nat) : State :=
  let s := (s.wr Reg.IN_STATUS_VIN 0 (min vin 65535)).wr Reg.IN_STATUS_IIN 0 (min iin 4095)
  if s.rd Reg.IN_STATUS_EFUSE 0 = 2 then s.wr Reg.IN_STATUS_VBULK 0 (min vin 65535) else s

/-- MODULE_THROTTLE (R342, R367): the means of module power over 500 µs and of input power over 10 ms, the input's voltage and current. -/
def State.doModuleThrottle (s : State) (mean500 mean10 vin iin : Nat) : State :=
  let s := (s.readInput vin iin).wr Reg.LG_MOD_P500 0 (min mean500 65535)
  let lim := s.powerLimit
  let above := decide (lim < mean500)
  let l := s.rd Reg.LG_MOD_MOD_LEVEL 0
  let p := s.pwr
  let level (n : Nat) (s : State) : State :=
    let s := if l = 0 ∧ n ≠ 0 then s.bump Reg.LG_MOD_OVER_CAP 0 else s
    ({ s with pwr := { s.pwr with modAt := s.now } }).wr Reg.LG_MOD_MOD_LEVEL 0 n
  let s := if 17500 < mean10 then (if l = 7 then s else level 7 s)
    else if above then (if l = 0 then level 4 s else if l < 7 ∧ p.modAt + us 100 ≤ s.now then level (l + 1) s else s)
    else if 100 * mean500 < 95 * lim ∧ l ≠ 0 ∧ p.modAt + ms 1 ≤ s.now then level (l - 1) s
    else s
  let full := s.rd Reg.LG_MOD_MOD_LEVEL 0 == 7 && above
  let s := { s with pwr := { s.pwr with
    modFullSince := if full then some (p.modFullSince.getD s.now) else none,
    modCoolSince := if 10 * mean500 < 9 * lim then some (p.modCoolSince.getD s.now) else none } }
  let down := s.rd Reg.LG_MOD_DIVIDER_DOWN 0 == 1
  let s := if !down && s.pwr.modFullSince.any (fun t => decide (t + ms 2 ≤ s.now)) then
      (s.moveDividers true).wr Reg.LG_MOD_DIVIDER_DOWN 0 1
    else if down && s.pwr.modCoolSince.any (fun t => decide (t + ms 100 ≤ s.now)) then
      (s.moveDividers false).wr Reg.LG_MOD_DIVIDER_DOWN 0 0
    else s
  s.showLevels

def execModuleThrottle (power input : Nat × Nat) (s : State) : Host.Outcome State Fault Refusal :=
  .next (s.doModuleThrottle power.1 power.2 input.1 input.2)

/-- LIMITING shows either limiter of a tile (R368, R510). -/
def State.showLimiting (s : State) (t : Nat) : State :=
  (s.wr Reg.PW_STATUS_LIMITING t (b2n (s.pwr.limiting.contains t || s.pwr.hot.contains t))).showLevels

/-- TILE_LIMITER (R368): the cell's power now, its 10 ms and its 1 ms mean, W. -/
def State.doTileLimiter (s : State) (t inst mean10 mean1 : Nat) : State :=
  let s := (s.wr Reg.PW_POWER_P1MS t (min mean1 65535)).wr Reg.PW_POWER_PEAK10 t (max (min mean10 65535) (s.rd Reg.PW_POWER_PEAK10 t))
  let s := s.wr Reg.PW_STATUS_LOAD_PCT t (min 200 (mean1 * 100 / 600))
  let on := s.pwr.limiting.contains t
  let s := if !on && (decide (900 < inst) || decide (600 < mean10)) then
      ({ s with pwr := { s.pwr with limiting := s.pwr.limiting ++ [t] } }).bump Reg.PW_POWER_LIMIT_EVENTS t
    else if on && decide (mean1 < 570) then { s with pwr := { s.pwr with limiting := s.pwr.limiting.erase t } }
    else s
  s.showLimiting t

def execTileLimiter (t : Tile) (inst : Nat) (mean10 : Nat) (mean1 : Nat) (s : State) : Host.Outcome State Fault Refusal :=
  .next (s.doTileLimiter t.val inst mean10 mean1)

/-- POWER_FORECAST (R364): the last-step power of each admitted vat and the overhead forecast, W. -/
def State.doForecast (s : State) : State :=
  let p := ((s.ledVats.filter fun v => v.stepOpen && v.parent == 0).map Vat.lastPower).sum + s.overheadRate / 10 ^ 6
  s.wr Reg.TR_FCST_P_FCST 0 (min p 65535)

def execPowerForecast (s : State) : Host.Outcome State Fault Refusal := .next s.doForecast

/-- Release of vats: claim, reservation and entry are cleared (R364, R372). -/
def State.releaseLedger (s : State) (ids : List Nat) : State :=
  let s := { s with pwr := { s.pwr with admitQ := s.pwr.admitQ.filter fun i => !ids.contains i } }
  s.each ids fun s i =>
    s.each [Reg.LG_VAT_CLAIM, Reg.LG_VAT_STEP, Reg.LG_VAT_STEP_ENERGY, Reg.LG_VAT_LEVEL, Reg.LG_VAT_WAITING, Reg.LG_VAT_OVER,
      Reg.LG_VAT_THROTTLES] fun s f => s.wr f 0 0 i

end Sys2Proof.Machine
end

