-- ==== Sys2Proof/Machine/VectorCalc.lean ====
section
/-! DEFINITION. The vector core's descriptor, checks and arithmetic (Chapter 4, R133, R528, R529). -/

namespace Sys2Proof.Machine

/-! ### The descriptor (Table 5.8) -/

def vRnd (d : List Nat) : Nat := dbits d 0 6 4
def vSat (d : List Nat) : Bool := dbits d 0 7 7 == 1
def vImmEn (d : List Nat) : Bool := dbits d 0 9 9 == 1
def vTrapOob (d : List Nat) : Bool := dbits d 0 10 10 == 1
def vHalf (d : List Nat) : Bool := dbits d 0 11 11 == 1
def vDir (d : List Nat) : Nat := dbits d 0 12 12
def vAdd (d : List Nat) : Bool := dbits d 0 13 13 == 1
def vFunc (d : List Nat) : Nat := dbits d 0 15 14
def vAxis (d : List Nat) : Nat := dbits d 0 16 16
def vRows (d : List Nat) : Nat := dbits d 1 19 0 + 1
def vCols (d : List Nat) : Nat := dbits d 1 43 20 + 1
def vTopK (d : List Nat) : Nat := dbits d 1 53 44 + 1
def vImm0 (d : List Nat) : Nat := dbits d 2 31 0
def vNrows (d : List Nat) : Nat := (toSigned 32 (dbits d 2 63 32)).toNat
def vSlot (d : List Nat) (i : Nat) : TRef := tref (d.getD (3 + i) 0)

/-- r of a result by its linear index (R529). -/
def vR (d : List Nat) (i : Nat) : Nat := if vRnd d = 4 then stochR (dbits d 14 31 0) i 0 else 0

/-- An operand slot of an opcode (Table 5.9): rows, bytes in each, whether it is written, whether it is one dense vector
(R133). -/
structure VOp where
  slot : Nat
  write : Bool
  rows : Nat
  len : Nat
  dense : Bool
  deriving DecidableEq, Repr

/-- A matrix operand of ROWS × n elements. -/
def vMat (d : List Nat) (slot n : Nat) (write : Bool) : VOp := ⟨slot, write, vRows d, rowBytes (vSlot d slot).fmt n, false⟩

/-- A dense vector of n elements. -/
def vVec (d : List Nat) (slot n : Nat) (write : Bool) : VOp := ⟨slot, write, 1, rowBytes (vSlot d slot).fmt n, true⟩

/-- The scale tensor of a conversion (R64). With blocks along a column it is a matrix of ROWS / 32 rows of COLS scales at the slot's
row stride (log 76). -/
def vScales (d : List Nat) (slot : Nat) (write : Bool) : VOp :=
  if vAxis d = 0 then ⟨slot, write, vRows d, vCols d / 32, false⟩ else ⟨slot, write, vRows d / 32, vCols d, false⟩

/-- The operands in use. -/
def vOps' (op : Nat) (d : List Nat) : List VOp :=
  let c := vCols d
  let x := vMat d 0 c false
  let z := vMat d 3 c true
  if op ≤ 0x1B then
    [x] ++ (if vImmEn d then [] else [vMat d 1 c false]) ++ (if op = 0x15 then [vMat d 2 c false] else []) ++ [z]
  else if op = 0x20 then
    [x] ++ (if isBlockFmt (vSlot d 0).fmt then [vScales d 1 false] else []) ++ [z] ++
      (if isBlockFmt (vSlot d 3).fmt then [vScales d 4 true] else [])
  else if op ≤ 0x2B then [x, z]
  else if op ≤ 0x32 then [x, vVec d 3 (vRows d) true]
  else if op = 0x38 then
    [x, vVec d 1 (vRows d) false, vVec d 2 (vRows d) false, z, vVec d 4 (vRows d) true, vVec d 5 (vRows d) true,
     vVec d 6 (vRows d) true]
  else if op = 0x39 then [x, vVec d 1 (vRows d) false, vMat d 2 c false, z]
  else if op = 0x3A then [x, vVec d 1 (vRows d) false, z]
  else if op = 0x40 then [x, vVec d 1 (vRows d) false, vVec d 2 (c / 2) false, z]
  else if op = 0x48 then [⟨0, false, vNrows d, c, false⟩, vVec d 1 (vRows d) false, ⟨3, true, vRows d, c, false⟩]
  else if op = 0x49 then [⟨0, false, vRows d, c, false⟩, vVec d 1 (vRows d) false, ⟨3, true, vNrows d, c, false⟩]
  else [x, vMat d 3 (vTopK d) true, vMat d 4 (vTopK d) true]

/-- As rows of bytes. -/
def vOpnds (op : Nat) (d : List Nat) : List Opnd :=
  (vOps' op d).map fun o => let r := vSlot d o.slot
    ⟨r.pail, rowsAt r.off r.stride o.rows, o.len, o.write⟩

/-- Floating-point and integer formats of the V-cores (Table 2.1). -/
def vFloat (f : Nat) : Bool := decide (1 ≤ f ∧ f ≤ 5)

/-- The format limits of Chapter 4, R133, R528. -/
def vFmtOk (op : Nat) (d : List Nat) : Bool :=
  let f (i : Nat) : Nat := (vSlot d i).fmt
  let us := (vOps' op d).map VOp.slot
  let x := f 0
  let z := f 3
  if op ≤ 0x1B then
    ((us.filter fun i => i != 3 || op != 0x16).all fun i => f i == x) &&
      (if 0x17 ≤ op then isIntFmt x else if op = 0x15 then vFloat x || x == 6 else vFloat x || isIntFmt x) &&
      (op != 0x16 || z == 6)
  else if op = 0x20 then
    (vFloat x || isIntFmt x || isBlockFmt x || x == 0x10) && (vFloat z || isIntFmt z || isBlockFmt z) &&
      (us.all fun i => !(i == 1 || i == 4) || f i == 0xF) &&
      (!(isBlockFmt x || isBlockFmt z) || decide ((if vAxis d = 0 then vCols d else vRows d) % 32 = 0))
  else if op ≤ 0x2B then (x == 1 || x == 2) && vFloat z
  else if op ≤ 0x32 then (vFloat x && vFloat z) || (isIntFmt x && isIntFmt z)
  else if op = 0x38 then (x == 1 || x == 2) && [1, 2, 4, 5].contains z && [1, 2, 4, 5, 6].all fun i => f i == 1
  else if op = 0x39 then us.all fun i => f i == 1
  else if op = 0x3A then x == 1 && f 1 == 1 && vFloat z
  else if op = 0x40 then vFloat x && vFloat z && f 1 == 7 && f 2 == 0x11
  else if op ≤ 0x49 then
    f 1 == 7 && (vFloat x || isIntFmt x) && (vFloat z || isIntFmt z) &&
      (!(op == 0x49 && vAdd d) || (x == z && [1, 7, 0x11].contains x))
  else (vFloat x || isIntFmt x) && z == x && f 4 == 7

/-- Does the opcode use the immediates' word? -/
def vUsesImm (op : Nat) (d : List Nat) : Bool := vImmEn d || op == 0x38 || op == 0x48 || op == 0x49

/-- Check 2 of R96, as far as the descriptor alone decides it. -/
def vFormatBad (e : QEntry) (d : List Nat) : Bool :=
  let us := vOps' e.op d
  dbits d 0 3 0 != 2 || dbits d 0 63 17 != 0 || dbits d 1 63 54 != 0 || dbits d 13 63 30 != 0 || dbits d 14 63 32 != 0 ||
    d.getD 15 0 != 0 || decide (4 < vRnd d) || (vRnd d != 4 && d.getD 14 0 != 0) || (!statusEn e d && d.getD 13 0 != 0) ||
    decide (e.off % 128 ≠ 0) || (vImmEn d && decide (0x1B < e.op)) || (!vUsesImm e.op d && d.getD 2 0 != 0) ||
    ((List.range 10).any fun i => if us.any fun u => u.slot == i then dbits d (3 + i) 63 59 != 0 else d.getD (3 + i) 0 != 0) ||
    (us.any fun u => u.dense && (vSlot d u.slot).stride != 0) || !vFmtOk e.op d ||
    decide ((tref (d.getD 13 0)).off % 16 ≠ 0)

/-- Check 3's limits (R98, R102, R104 to R106). A scatter in ADD mode adds whole elements. -/
def vShapeBad (op : Nat) (d : List Nat) : Bool :=
  let r := vRows d
  let c := vCols d
  if op = 0x38 then decide (4096 < r) || decide (4096 < c)
  else if op = 0x40 then decide (c % 2 ≠ 0) || decide (16384 < c)
  else if op = 0x48 ∨ op = 0x49 then
    decide (c % 4 ≠ 0) || decide (65536 < c) ||
      (op == 0x49 && vAdd d && (decide (16384 < r) || decide (1024 < c) || decide (c % elemBytes (vSlot d 3).fmt ≠ 0)))
  else if op = 0x4A then decide (min c 1024 < vTopK d) || decide (65536 < c) || decide (65536 < r)
  else false

/-! ### Reading operands -/

/-- Element patterns of row r of a slot. -/
def State.vRow (s : State) (core : Nat) (d : List Nat) (slot r n : Nat) : List Nat :=
  let t := vSlot d slot
  (List.range n).map fun i => s.elem core (s.pail core t.pail) (t.off + r * t.stride) t.fmt i

/-- Their values. -/
def State.vVals (s : State) (core : Nat) (d : List Nat) (slot r n : Nat) : List Num :=
  (s.vRow core d slot r n).map (elemVal (vSlot d slot).fmt)

/-- Y of an elementwise operation: the immediate as FP32 or INT32 value, or a row of OP1. -/
def State.vY (s : State) (core : Nat) (d : List Nat) (r : Nat) : List Num :=
  if vImmEn d then
    List.replicate (vCols d) (if isIntFmt (vSlot d 0).fmt then .ofInt (toSigned 32 (vImm0 d)) else fpDecode fp32 (vImm0 d))
  else s.vVals core d 1 r (vCols d)

/-- Checks 1 to 4 of R96 and the pre-scans of check 5: cause and whether the record's location failed. -/
def State.vChecks (s : State) (core : Nat) (e : QEntry) (d : List Nat) : Nat × Bool :=
  let os := vOpnds e.op d
  let fmts := (vOps' e.op d).map fun o => (vSlot d o.slot).fmt
  let r := recRef e d
  if s.pailsBad core e os r then (cBounds, false)
  else if vFormatBad e d || s.pailFormatBad core e os fmts r then (cFormat, false)
  else if vShapeBad e.op d || s.boundsBad core os r then (cBounds, false)
  else
    let al := s.aliasBad core e 128 (os.filter fun o => !o.write) (os.filter Opnd.write) r
    (if al.1 then cAlias else 0, al.2)

/-- Is an index out of range (R104)? -/
def vOut (d : List Nat) (i : Nat) : Bool := decide (vNrows d ≤ i)

/-- The pre-scans of check 5 (R96, R103, R104). -/
def State.vPrescan (s : State) (core op : Nat) (d : List Nat) : Nat :=
  if op = 0x40 then
    if (s.vRow core d 1 0 (vRows d)).any fun p => decide (16777215 < p) then cBounds
    else if (s.vRow core d 2 0 (vCols d / 2)).any fun f => decide (2 ^ 48 ≤ f) then cFormat
    else 0
  else if (op = 0x48 ∨ op = 0x49) ∧ vTrapOob d then
    (if (s.vRow core d 1 0 (vRows d)).any (vOut d) then cBounds else 0)
  else 0

/-! ### Results -/

/-- What an operation writes: slot, logical offset, bytes; its flags and IDX_OOB. -/
structure VRes where
  puts : List (Nat × Nat × List Byte) := []
  flags : Nat := 0
  oob : Bool := false
  deriving DecidableEq, Repr

/-- Packs a row of patterns (R42). Where a 6-bit block does not lie along the row (BLOCK_AXIS = 1), the row's elements follow one another
bit by bit all the same, and the spare bits of its last byte are 0 (log 79). -/
def packRow (fmt : Nat) (xs : List Nat) : List Byte :=
  toBytes (leBytes (rowBytes fmt xs.length) (xs.foldr (fun x a => a * 2 ^ elemBits fmt + x) 0))

/-- A row of results for a slot. -/
def vPut (d : List Nat) (slot r : Nat) (xs : List Nat) : Nat × Nat × List Byte :=
  let t := vSlot d slot
  (slot, t.off + r * t.stride, packRow t.fmt xs)

/-- Rounds a result to the format of a slot (R94). -/
def vRound (d : List Nat) (slot i : Nat) (x : Num) : Nat × Nat := elemRound (vSlot d slot).fmt (vRnd d) (vR d i) (vSat d) x

/-- Results of a row: patterns, flags. -/
def collect (l : List (Nat × Nat)) : List Nat × Nat := (l.map Prod.fst, l.foldl (fun a x => a ||| x.2) 0)

/-- An operation that gives one row of slot 3 for each row. -/
def vByRow (d : List Nat) (f : Nat → List (Nat × Nat)) : VRes :=
  (List.range (vRows d)).foldl (fun z r =>
    let c := collect (f r)
    { z with puts := z.puts ++ [vPut d 3 r c.1], flags := z.flags ||| c.2 }) {}

/-- An exact integer result that an integer format holds, or free bits and a free SAT_OUT where it does not (log 16: the
spec states no result there). -/
def State.intRes (s : State) (w : Nat) (v : Int) : State × Nat × Nat :=
  if outside w v then
    let (x, s) := s.draw
    let (b, s) := s.draw
    (s, x.toNat % 2 ^ w, if b.getLsbD 0 then aSat else 0)
  else (s, ofSigned w v, 0)

/-- An exact integer value. -/
def Num.toInt : Num → Int
  | .fin neg m e _ => let v : Int := if 0 ≤ e then (m * 2 ^ e.toNat : Nat) else (m / 2 ^ (-e).toNat : Nat)
    if neg then -v else v
  | _ => 0

/-- Elementwise arithmetic (R94) on X, Y and W: floats exactly and rounded once, integers exactly. -/
def State.vArith (s : State) (core : Nat) (d : List Nat) (ff : Num → Num → Num → Num) (fi : Int → Int → Int → Int) : State × VRes :=
  let n := vCols d
  let fmt := (vSlot d 3).fmt
  if isIntFmt fmt then
    (List.range (vRows d)).foldl (fun (z : State × VRes) r =>
      let xs := s.vVals core d 0 r n
      let ys := s.vY core d r
      let ws := s.vVals core d 2 r n
      let row := (List.range n).foldl (fun (w : State × List Nat × Nat) i =>
        let v := w.1.intRes (elemBits fmt) (fi (xs.getD i .nan).toInt (ys.getD i .nan).toInt (ws.getD i .nan).toInt)
        (v.1, w.2.1 ++ [v.2.1], w.2.2 ||| v.2.2)) (z.1, [], 0)
      (row.1, { z.2 with puts := z.2.puts ++ [vPut d 3 r row.2.1], flags := z.2.flags ||| row.2.2 })) (s, {})
  else
    (s, vByRow d fun r =>
      let xs := s.vVals core d 0 r n
      let ys := s.vY core d r
      let ws := s.vVals core d 2 r n
      (List.range n).map fun i => vRound d 3 (r * n + i) (ff (xs.getD i .nan) (ys.getD i .nan) (ws.getD i .nan)))

/-- A bitwise operation or shift on the patterns of X and Y (R133); `w` is the element width. -/
def State.vBits (s : State) (core : Nat) (d : List Nat) (f : Nat → Nat → Nat → Nat) : State × VRes :=
  let n := vCols d
  let w := elemBits (vSlot d 0).fmt
  (s, vByRow d fun r =>
    let ys := if vImmEn d then List.replicate n (ofSigned w (toSigned 32 (vImm0 d))) else s.vRow core d 1 r n
    ((s.vRow core d 0 r n).zip ys).map fun x => (f w x.1 x.2 % 2 ^ w, 0))

def vShl (w x y : Nat) : Nat := if w ≤ y then 0 else x * 2 ^ y
def vShr (w x y : Nat) : Nat := ofSigned w (toSigned w x / (2 ^ min y w : Nat))

/-- V.CMP: 1 or 0; a NaN compares unordered. -/
def vCompare (func : Nat) (x y : Num) : Nat :=
  if x.isNan || y.isNan then b2n (func == 1)
  else
    let c := Num.cmp x y
    b2n (if func = 0 then c == 0 else if func = 1 then c != 0 else if func = 2 then decide (c < 0) else decide (c ≤ 0))

def State.vCmpRes (s : State) (core : Nat) (d : List Nat) : State × VRes :=
  (s, vByRow d fun r => ((s.vVals core d 0 r (vCols d)).zip (s.vY core d r)).map fun x => (vCompare (vFunc d) x.1 x.2, 0))

/-- exp2, log2, reciprocal, rsqrt (R95). -/
def State.vFunc1 (s : State) (core : Nat) (d : List Nat) (f : Num → Num) : State × VRes :=
  (s, vByRow d fun r => ((s.vVals core d 0 r (vCols d)).zipIdx).map fun x => vRound d 3 (r * vCols d + x.2) (f x.1))

/-- The balanced tree of R94 over a row, padded with the identity to a power of two. -/
def vTree (f : Num → Num → Num) (ident : Num) (xs : List Num) : Num :=
  let k := bitLen (xs.length - 1)
  ((treeSum f k (xs ++ List.replicate (2 ^ k - xs.length) ident)).head?).getD ident

def negZero : Num := .fin true 0 0 false

/-- A row reduction: ROWS results, one dense vector (R94). -/
def State.vReduce (s : State) (core : Nat) (d : List Nat) (f : Num → Num → Num) (fi : Int → Int → Int) (ident : Num) : State × VRes :=
  let n := vCols d
  let fmt := (vSlot d 3).fmt
  if isIntFmt fmt then
    let z := (List.range (vRows d)).foldl (fun (w : State × List Nat × Nat) r =>
      let xs := (s.vVals core d 0 r n).map Num.toInt
      let v := w.1.intRes (elemBits fmt) (xs.tail.foldl fi (xs.headD 0))
      (v.1, w.2.1 ++ [v.2.1], w.2.2 ||| v.2.2)) (s, [], 0)
    (z.1, { puts := [vPut d 3 0 z.2.1], flags := z.2.2 })
  else
    let c := collect ((List.range (vRows d)).map fun r => vRound d 3 r (vTree f ident (s.vVals core d 0 r n)))
    (s, { puts := [vPut d 3 0 c.1], flags := c.2 })

/-! ### Conversion (R63, R64) -/

/-- Value of element (r, c) of a conversion's source, its block scale applied. -/
def State.cvtVal (s : State) (core : Nat) (d : List Nat) (r c : Nat) : Num :=
  let t := vSlot d 0
  let x := s.elem core (s.pail core t.pail) (t.off + r * t.stride) t.fmt c
  if t.fmt = 0x10 then wideVal x
  else if isBlockFmt t.fmt then
    let u := vSlot d 1
    scaledVal t.fmt x (if vAxis d = 0 then s.elem core (s.pail core u.pail) (u.off + r * u.stride) 0xF (c / 32)
      else s.elem core (s.pail core u.pail) (u.off + (r / 32) * u.stride) 0xF c)
  else elemVal t.fmt x

/-- Quantises a line of values block by block: patterns, scales, flags. -/
def quantLine (fmt rnd : Nat) : Nat → Nat → List Num → List Nat × List Nat × Nat
  | 0, _, _ => ([], [], 0)
  | n + 1, prev, xs =>
    let b := quantBlock fmt rnd prev (xs.take 32)
    let z := quantLine fmt rnd n b.1 (xs.drop 32)
    (b.2.1 ++ z.1, b.1 :: z.2.1, b.2.2 ||| z.2.2)

/-- Transposes a list of equally long rows. -/
def transposeL (n : Nat) (l : List (List Nat)) : List (List Nat) := (List.range n).map fun i => l.map fun r => r.getD i 0

def State.vCvtRes (s : State) (core : Nat) (d : List Nat) : State × VRes :=
  let fmt := (vSlot d 3).fmt
  let rows := vRows d
  let cols := vCols d
  if isBlockFmt fmt then
    let lines := if vAxis d = 0 then (List.range rows).map fun r => (List.range cols).map fun c => s.cvtVal core d r c
      else (List.range cols).map fun c => (List.range rows).map fun r => s.cvtVal core d r c
    let q := lines.map fun l => quantLine fmt (vRnd d) (l.length / 32) 0x7F l
    let el := q.map fun x => x.1
    let sc := q.map fun x => x.2.1
    let el := if vAxis d = 0 then el else transposeL rows el
    let sc := if vAxis d = 0 then sc else transposeL (rows / 32) sc
    (s, { puts := (el.zipIdx.map fun x => vPut d 3 x.2 x.1) ++ (sc.zipIdx.map fun x => vPut d 4 x.2 x.1)
          flags := q.foldl (fun a x => a ||| x.2.2) 0 })
  else (s, vByRow d fun r => (List.range cols).map fun c => vRound d 3 (r * cols + c) (s.cvtVal core d r c))

/-! ### Online softmax (R98 to R100) -/

/-- One row of SMX.STEP: P, ALPHA, M_OUT, L_OUT with their flags. -/
def smxRow (d : List Nat) (r : Nat) (us : List Num) (mIn lIn : Num) : List (Nat × Nat) × (Nat × Nat) × (Nat × Nat) × (Nat × Nat) :=
  let scale := fpDecode fp32 (vImm0 d)
  let us := us.map fun u => f32 (Num.mul u scale)
  let m := Num.max mIn (vTree Num.max (.inf true) us)
  let w (x : Num) : Nat × Nat := fpRound fp32 (vRnd d) (vR d r) (vSat d) x
  if m.isNan then (us.map fun _ => vRound d 3 0 .nan, w .nan, w .nan, w .nan)
  else if m = .inf true then (us.map fun _ => (0, 0), w (.ofInt 1), w m, w lIn)
  else
    let alpha := w (Num.add 0 mIn m.neg).exp2
    let ps := us.zipIdx.map fun x => vRound d 3 (r * vCols d + x.2) (f32 (Num.add 0 x.1 m.neg)).exp2
    let t := vTree f32add negZero (ps.map fun p => elemVal (vSlot d 3).fmt p.1)
    (ps, alpha, w m, w (Num.add (vRnd d) (Num.mul lIn (fpDecode fp32 alpha.1)) t))

def State.smxStepRes (s : State) (core : Nat) (d : List Nat) : State × VRes :=
  let rows := (List.range (vRows d)).map fun r =>
    smxRow d r (s.vVals core d 0 r (vCols d)) ((s.vVals core d 1 0 (vRows d)).getD r .nan) ((s.vVals core d 2 0 (vRows d)).getD r .nan)
  let a := collect (rows.map fun x => x.2.1)
  let m := collect (rows.map fun x => x.2.2.1)
  let l := collect (rows.map fun x => x.2.2.2)
  let ps := rows.map fun x => collect x.1
  (s, { puts := (ps.zipIdx.map fun x => vPut d 3 x.2 x.1.1) ++ [vPut d 4 0 a.1, vPut d 5 0 m.1, vPut d 6 0 l.1]
        flags := ps.foldl (fun z x => z ||| x.2) (a.2 ||| m.2 ||| l.2) })

def State.smxRescaleRes (s : State) (core : Nat) (d : List Nat) : State × VRes :=
  let al := s.vVals core d 1 0 (vRows d)
  (s, vByRow d fun r => (((s.vVals core d 0 r (vCols d)).zip (s.vVals core d 2 r (vCols d))).zipIdx).map fun x =>
    vRound d 3 (r * vCols d + x.2) (Num.add (vRnd d) (Num.mul x.1.1 (al.getD r .nan)) x.1.2))

/-- A row whose L is +0 writes +0 and sets no flag. -/
def State.smxFinalRes (s : State) (core : Nat) (d : List Nat) : State × VRes :=
  let ls := s.vVals core d 1 0 (vRows d)
  (s, vByRow d fun r => ((s.vVals core d 0 r (vCols d)).zipIdx).map fun x =>
    let l := ls.getD r .nan
    if l.isZero && !l.sign then (0, 0) else vRound d 3 (r * vCols d + x.2) (Num.div x.1 l))

/-! ### Rotary rotation (R102, R103) -/

def State.ropeRes (s : State) (core : Nat) (d : List Nat) : State × VRes :=
  let n := vCols d
  let ps := s.vRow core d 1 0 (vRows d)
  let fs := s.vRow core d 2 0 (n / 2)
  (s, vByRow d fun r =>
    let xs := s.vVals core d 0 r n
    (List.range n).map fun j =>
      let i := if vHalf d then j % (n / 2) else j / 2
      let ia := if vHalf d then i else 2 * i
      let ib := if vHalf d then i + n / 2 else 2 * i + 1
      let t := ps.getD r 0 * fs.getD i 0 % 2 ^ 48
      let c := f32 (cosTurn t)
      let sn := f32 (sinTurn t)
      let xa := xs.getD ia .nan
      let xb := xs.getD ib .nan
      vRound d 3 (r * n + j) (if j = ia then Num.add (vRnd d) (Num.mul xa c) (f32 (Num.mul xb sn)).neg
        else Num.add (vRnd d) (Num.mul xa sn) (f32 (Num.mul xb c))))

/-! ### Gather, scatter, top-k (R104 to R106) -/

/-- Bytes of a table or source row. -/
def State.rowAt (s : State) (core : Nat) (d : List Nat) (slot r : Nat) : List Byte :=
  let t := vSlot d slot
  toBytes (s.peekView core (s.pail core t.pail) (t.off + r * t.stride) (vCols d))

def State.gatherRes (s : State) (core : Nat) (d : List Nat) : State × VRes :=
  let ix := s.vRow core d 1 0 (vRows d)
  let t := vSlot d 3
  (s, { puts := ix.zipIdx.map fun x =>
          (3, t.off + x.2 * t.stride, if vOut d x.1 then List.replicate (vCols d) 0 else s.rowAt core d 0 x.1)
        oob := ix.any (vOut d) })

/-- One addition of a scatter in ADD mode: FP32 rounds to nearest even under the descriptor's SAT (R59, R105); overflow of an integer
sum as log 16 says. -/
def State.scatAdd (s : State) (sat : Bool) (fmt x y : Nat) : State × Nat × Nat :=
  if fmt = 1 then
    let r := fpRound fp32 0 0 sat (Num.add 0 (fpDecode fp32 x) (fpDecode fp32 y))
    (s, r.1, r.2)
  else s.intRes (elemBits fmt) (toSigned (elemBits fmt) x + toSigned (elemBits fmt) y)

/-- Elements of a row of bytes. -/
def rowElems (fmt : Nat) (n : Nat) (bs : List Byte) : List Nat :=
  (List.range n).map fun i => leNat ((ofBytes bs).drop (i * elemBytes fmt) |>.take (elemBytes fmt))

/-- SCATTER: in WRITE mode the last row that names a table row remains; in ADD mode contributions are added in ascending
order. The table rows are written one after another. -/
def State.scatterRes (s : State) (core : Nat) (d : List Nat) : State × VRes :=
  let ix := s.vRow core d 1 0 (vRows d)
  let t := vSlot d 3
  let at_ (j : Nat) : Nat := t.off + j * t.stride
  let ok := ix.zipIdx.filter fun x => !vOut d x.1
  let oob := ix.any (vOut d)
  if !vAdd d then (s, { puts := ok.map fun x => (3, at_ x.1, s.rowAt core d 0 x.2), oob := oob })
  else
    let n := vCols d / elemBytes t.fmt
    let z := ((ok.map Prod.fst).dedup).foldl (fun (z : State × VRes) j =>
      let row := (ok.filter fun x => x.1 == j).foldl (fun (w : State × List Nat × Nat) x =>
        (w.2.1.zip (rowElems t.fmt n (s.rowAt core d 0 x.2))).foldl (fun (v : State × List Nat × Nat) y =>
          let a := v.1.scatAdd (vSat d) t.fmt y.1 y.2
          (a.1, v.2.1 ++ [a.2.1], v.2.2 ||| a.2.2)) (w.1, [], w.2.2)) (z.1, rowElems t.fmt n (s.rowAt core d 3 j), 0)
      (row.1, { z.2 with puts := z.2.puts ++ [(3, at_ j, packRow t.fmt row.2.1)], flags := z.2.flags ||| row.2.2 })) (s, {})
    (z.1, { z.2 with oob := oob })

/-- Does x rank before or with y (R106)? -/
def rankLe (dir : Nat) (x y : Num × Nat) : Bool :=
  if x.1.isNan then y.1.isNan && decide (x.2 ≤ y.2)
  else if y.1.isNan then true
  else
    let c := Num.cmp x.1 y.1
    if c = 0 then decide (x.2 ≤ y.2) else if dir = 0 then decide (0 < c) else decide (c < 0)

/-- Inserts into a ranked list. -/
def rankInsert (dir : Nat) (x : Num × Nat) : List (Num × Nat) → List (Num × Nat)
  | [] => [x]
  | y :: r => if rankLe dir x y then x :: y :: r else y :: rankInsert dir x r

def State.topkRes (s : State) (core : Nat) (d : List Nat) : State × VRes :=
  let n := vCols d
  let fmt := (vSlot d 0).fmt
  (s, (List.range (vRows d)).foldl (fun z r =>
    let ranked := (((s.vVals core d 0 r n).zipIdx).foldr (fun x l => rankInsert (vDir d) x l) []).take (vTopK d)
    let c := collect (ranked.map fun x => elemRound fmt 0 0 true x.1)
    let c := if isIntFmt fmt then (ranked.map fun x => ofSigned (elemBits fmt) x.1.toInt, 0) else
      (c.1, ranked.foldl (fun a x => a ||| (if x.1.isNan then aNan else if x.1.isInf then aInf else 0)) 0)
    { z with puts := z.puts ++ [vPut d 3 r c.1, vPut d 4 r (ranked.map Prod.snd)], flags := z.flags ||| c.2 }) {})

end Sys2Proof.Machine
end

