-- ==== Sys2Proof/Machine/Movers.lean ====
section
/-! DEFINITION. The tier movers (7.6, 7.7): rings, descriptors, COPY, TRANSPOSE, ZERO and the KV operations; the grant
table and the T3 ports (7.4, 7.5). A mover's traffic happens within the command that moves it (log 28). -/

namespace Sys2Proof.Machine

/-! ### Locations (R194) -/

/-- A resolved location: a scratch offset of a core, or an offset in a tier. -/
inductive MLoc where
  | scr (core off : Nat)
  | t1 (off : Nat)
  | t2 (tile off : Nat)
  | t3 (port off : Nat)
  deriving DecidableEq, Repr

/-- The memory key of its first byte. -/
def mlocKey : MLoc → Nat
  | .scr c o => scrKey c o
  | .t1 o => t1Key o
  | .t2 t o => t2Key t o
  | .t3 p o => t3Key p o

/-- n bytes further. -/
def mlocPlus (n : Nat) : MLoc → MLoc
  | .scr c o => .scr c (o + n)
  | .t1 o => .t1 (o + n)
  | .t2 t o => .t2 t (o + n)
  | .t3 p o => .t3 p (o + n)

/-- The tiles that hold a range. -/
def mlocTiles (len : Nat) : MLoc → List Nat
  | .scr c _ => [c / 256]
  | .t1 o => ((rangeUnits (t1Key o) len).map unitTile).dedup
  | .t2 t _ => [t]
  | .t3 p _ => [t3Tile p]

/-- An address word at the binding's privilege: BOUNDS under R18, R28, R30, R189 and R194, and the handle's checks of
R197; a core whose logical site is unmapped is FENCED (R20). -/
def State.mvLoc (s : State) (vat : Nat) (svc : Bool) (w len : Nat) (write : Bool) : Nat × MLoc :=
  if w < 2 ^ 63 then
    let a := pailAddr w
    if a.high ≠ 0 ∨ a.mod ≠ s.ownMod ∨ s.coreOk vat svc a.mod a.id = false then (cBounds, .t1 0)
    else match s.physCore svc a.id with
      | none => (cFenced, .t1 0)
      | some core =>
        let p := s.pail core a.pail
        if !p.usable svc write || p.view != 0 || decide (p.size < a.off + len) then (cBounds, .t1 0)
        else (0, .scr core (p.base + a.off))
  else if bitsOf w 61 56 ≠ s.ownMod then (cBounds, .t1 0)
  else match s.resolve vat svc (w - 2 ^ 63) len write with
    | some (_, .t1 o) => (0, .t1 o)
    | some (_, .t2 t o) => (0, .t2 t o)
    | some (_, .t3 p o) => (0, .t3 p o)
    | _ => (cBounds, .t1 0)

/-- A mover's read: the bytes, and the cause of R202 that meets it. -/
def State.mvRead (s : State) (l : MLoc) (len : Nat) : State × List Byte × Nat :=
  let mem (t : Tgt) : State × List Byte × Nat :=
    let r := s.readMem t len
    (r.1, r.2.1, if r.2.2 then cPoison else 0)
  match l with
  | .scr c o => let (s, ok) := s.readScr c o len 4; (s, s.ldBytes (scrKey c o) len, if ok then 0 else cEcc)
  | .t1 o => mem (.t1 o)
  | .t2 t o => mem (.t2 t o)
  | .t3 p o => mem (.t3 p o)

/-- A mover's write. -/
def State.mvWrite (s : State) (l : MLoc) (bs : List Byte) : State :=
  match l with
  | .scr c o => s.writeScr c o bs
  | .t1 o => s.writeMem (.t1 o) bs
  | .t2 t o => s.writeMem (.t2 t o) bs
  | .t3 p o => s.writeMem (.t3 p o) bs

/-- Does the plane carry class 3 from a tile to another (R256, R258)? -/
def State.reaches (s : State) (target : Nat) : Nat → Nat → Bool
  | 0, t => t == target
  | n + 1, t => t == target || (match (s.choose t target 3).bind (neighbour t) with
    | some u => s.reaches target n u
    | none => false)

/-- What keeps a mover on tile t from a range: FENCED, or PATH_BROKEN (R202, R402). -/
def State.mvBlocked (s : State) (t len : Nat) (l : MLoc) : Nat :=
  if (match l with
      | .scr c _ => s.coreBarred c
      | _ => false) then cFenced
  else if (mlocTiles len l).all (fun u => s.reaches u 10 t && s.reaches t 10 u) then 0 else cPath

/-- A mover's read over the plane: the bytes, and the first cause that meets it. -/
def State.mvFetch (s : State) (t : Nat) (l : MLoc) (len : Nat) : State × List Byte × Nat :=
  if s.mvBlocked t len l = 0 then s.mvRead l len else (s, [], s.mvBlocked t len l)

/-! ### Descriptors (Tables 7.2, 7.5) -/

def mvOp (d : List Nat) : Nat := dbits d 0 6 4
def mvSf (d : List Nat) : Nat := dbits d 0 11 7
def mvDf (d : List Nat) : Nat := dbits d 0 16 12
def mvRnd (d : List Nat) : Nat := dbits d 0 19 17
def mvAxis (d : List Nat) : Nat := dbits d 0 21 21
def mvRows (d : List Nat) : Nat := dbits d 3 19 0 + 1
def mvBytes (d : List Nat) : Nat := dbits d 3 43 20 + 1
def mvSs (d : List Nat) : Nat := dbits d 4 31 0
def mvDs (d : List Nat) : Nat := dbits d 4 63 32
def mvPos (d : List Nat) : Nat := dbits d 5 23 0
def mvTok (d : List Nat) : Nat := dbits d 5 52 48
def mvKv (d : List Nat) : Bool := mvOp d == 2 || mvOp d == 3

/-- Is RAW on a side of a COPY: bytes are copied unchanged (R528)? -/
def mvRaw (d : List Nat) : Bool := mvOp d == 0 && (mvSf d == 0 || mvDf d == 0)

/-- Does a COPY convert (R195)? -/
def mvConv (d : List Nat) : Bool := mvOp d == 0 && mvSf d != mvDf d && !mvRaw d

/-- Bits of a source element; with RAW on a side, rows count bytes (R528). -/
def mvBits (d : List Nat) : Nat := if mvRaw d then 8 else elemBits (mvSf d)

/-- Elements of a row. -/
def mvCols (d : List Nat) : Nat := mvBytes d * 8 / mvBits d

/-- Bytes of a destination row, and how many destination rows there are. -/
def mvDrow (d : List Nat) : Nat :=
  if mvOp d = 1 then mvRows d * elemBytes (mvDf d) else if mvConv d then rowBytes (mvDf d) (mvCols d) else mvBytes d
def mvDn (d : List Nat) : Nat := if mvOp d = 1 then mvCols d else mvRows d

/-- Footprints of the two sides (R197 step 4). -/
def mvSfoot (d : List Nat) : Nat := (mvRows d - 1) * mvSs d + mvBytes d
def mvDfoot (d : List Nat) : Nat := (mvDn d - 1) * mvDs d + mvDrow d

/-- Scale bytes of a conversion's side. -/
def mvScales (d : List Nat) : Nat := mvRows d * mvCols d / 32

/-- Which words an operation uses (R193). -/
def mvUses (d : List Nat) (i : Nat) : Bool :=
  if i = 1 then mvOp d != 4
  else if i = 5 then mvKv d || (mvConv d && isBlockFmt (mvSf d))
  else if i = 6 then mvConv d && isBlockFmt (mvDf d)
  else true

/-- Formats that TRANSPOSE takes (R195). -/
def mvTrFmt (f : Nat) : Bool := decide (f ≤ 7) || f == 0xF || f == 0x11

/-- The pairings that R195, R203 and R528 refuse, WIDE as a destination among them (Table 2.1). RAW pairs with E8M0 as with every
other format in a COPY (log 77). -/
def mvPairBad (d : List Nat) : Bool :=
  let sf := mvSf d
  let df := mvDf d
  if mvOp d = 0 then !mvRaw d && ((sf == 0xF) != (df == 0xF) || df == 0x10)
  else if mvOp d = 1 then !mvTrFmt sf || !mvTrFmt df || (sf == 0) != (df == 0) || (sf == 0xF) != (df == 0xF)
  else if mvKv d then sf != df || df == 0x10
  else df == 0x10

/-- Step 1 of R197: FORMAT. A ROW_BYTES or a TOKEN_LOG2 that R203 or Table 7.5 excludes is read as a FORMAT (log 28). -/
def mvFormatBad (d : List Nat) : Bool :=
  dbits d 0 3 0 != 1 || decide (4 < mvOp d) || fmtReservedCode (mvSf d) || fmtReservedCode (mvDf d) || mvPairBad d ||
    decide (4 < mvRnd d) || dbits d 0 63 59 != 0 || (mvRnd d != 4 && dbits d 0 58 27 != 0) || dbits d 3 63 44 != 0 ||
    dbits d 7 31 30 != 0 || dbits d 7 29 6 % 16 != 0 || [1, 5, 6].any (fun i => !mvUses d i && d.getD i 0 != 0) ||
    (mvOp d != 4 && (mvBytes d * 8 % mvBits d != 0 ||
      ((isBlockFmt (mvSf d) || isBlockFmt (mvDf d)) && (if mvAxis d = 0 then mvCols d else mvRows d) % 32 != 0))) ||
    (mvKv d && (dbits d 5 63 53 != 0 || decide (mvTok d < 6) || decide (21 < mvTok d) || mvBytes d != 2 ^ mvTok d))
where
  fmtReservedCode (f : Nat) : Bool := decide (0x11 < f)

/-- What a descriptor's checks resolve: its sides, its scale tensors, and the KV pages it touches. -/
structure MvPlan where
  src : MLoc := .t1 0
  dst : MLoc := .t1 0
  ssc : MLoc := .t1 0
  dsc : MLoc := .t1 0
  pages : List (Nat × MLoc) := []
  deriving DecidableEq, Repr

/-- The pages of positions POS to POS + ROWS − 1 (R203). -/
def mvPages (d : List Nat) : List Nat :=
  let sh := 21 - mvTok d
  let p0 := mvPos d / 2 ^ sh
  let p1 := (mvPos d + mvRows d - 1) / 2 ^ sh
  (List.range (p1 + 1 - p0)).map (p0 + ·)

/-- The KV pre-scan (R203) of a mover on tile t: the page of each entry, or BOUNDS; what the read of the table meets ends it (R202). -/
def State.mvPrescan (s : State) (t vat : Nat) (svc : Bool) (d : List Nat) (tab : MLoc) : State × Nat × List (Nat × MLoc) :=
  let ps := mvPages d
  if 2 ^ 24 < mvPos d + mvRows d ∨ ps.any (fun p => decide (dbits d 5 47 24 < p)) then (s, cBounds, [])
  else
    let r := s.mvFetch t tab (8 * ps.length)
    if r.2.2 ≠ 0 then (r.1, r.2.2, [])
    else
      let s := r.1
      let entry (i : Nat) : Nat := leNat (ofBytes ((r.2.1.drop (8 * i)).take 8))
      let page (i : Nat) : Nat × MLoc :=
        let e := entry i
        if e % 2 = 0 ∨ bitsOf e 20 1 ≠ 0 ∨ bitsOf e 63 56 ≠ 0 then (cBounds, .t1 0)
        else s.mvLoc vat svc (2 ^ 63 + s.ownMod * 2 ^ 56 + bitsOf e 55 21 * 2 ^ 21) (2 ^ 21) (mvOp d == 3)
      let l := ps.zipIdx.map fun x => (x.1, page x.2)
      match l.find? fun x => x.2.1 != 0 with
      | some x => (s, x.2.1, [])
      | none => (s, 0, l.map fun x => (x.1, x.2.2))

/-- Is the STATUS location one that a record can be written to (R197 steps 1 and 3)? -/
def State.mvStatusOk (s : State) (ck : Nat) (svc : Bool) (d : List Nat) : Bool :=
  let p := s.pail (coreOf ck 4) (dbits d 7 5 0)
  let off := dbits d 7 29 6
  off % 16 == 0 && p.usable svc true && p.view == 0 && decide (off + 16 ≤ p.size)

/-- The checks of R197 in their order: the first failure, and what they have resolved. -/
def State.mvCheck (s : State) (ck vat : Nat) (svc : Bool) (d : List Nat) : State × Nat × MvPlan :=
  if mvFormatBad d then (s, cFormat, {})
  else
    let kv := mvKv d
    let op := mvOp d
    let sides : List (Bool × Nat × Nat × Bool) :=
      [(op == 0 || op == 1 || op == 3, d.getD 1 0, mvSfoot d, false), (op != 3, d.getD 2 0, mvDfoot d, true),
       (!kv && mvUses d 5, d.getD 5 0, mvScales d, false), (mvUses d 6, d.getD 6 0, mvScales d, true),
       (kv, d.getD (if op = 2 then 1 else 2) 0 + 8 * (mvPages d).headD 0, 8 * (mvPages d).length, false)]
    let rs := sides.map fun x => if x.1 then s.mvLoc vat svc x.2.1 x.2.2.1 x.2.2.2 else (0, .t1 0)
    let loc (i : Nat) : MLoc := (rs.getD i (0, .t1 0)).2
    let tab := loc 4
    match rs.find? fun x => x.1 != 0 with
    | some x => (s, x.1, {})
    | none =>
      if kv && (mlocKey tab % 8 != 0 || decide (mlocKey tab < t1Key 0) || decide (t3Key 0 0 ≤ mlocKey tab)) ||
          !s.mvStatusOk ck svc d || decide (2 ^ 30 < mvSfoot d ∧ op ≠ 2 ∧ op ≠ 4) || decide (2 ^ 30 < mvDfoot d ∧ op ≠ 3) then
        (s, cBounds, {})
      else
        let st := scrKey (coreOf ck 4) ((s.pail (coreOf ck 4) (dbits d 7 5 0)).base + dbits d 7 29 6)
        let spans := ((sides.zip rs).filter fun x => x.1.1).map fun x => (mlocKey x.2.2, mlocKey x.2.2 + x.1.2.2.1)
        if clash ((st, st + 16) :: spans) ||
            decide (op ≠ 3 ∧ 1 < mvDn d ∧ mvDs d < mvDrow d) then (s, cAlias, {})
        else
          let plan : MvPlan := { src := loc 0, dst := loc 1, ssc := loc 2, dsc := loc 3 }
          if kv then
            let r := s.mvPrescan (ckTile ck) vat svc d tab
            (r.1, r.2.1, { plan with pages := r.2.2 })
          else (s, 0, plan)
where
  clash : List (Nat × Nat) → Bool
    | [] => false
    | x :: r => r.any (overlap x) || clash r

/-! ### Rings (R191, R192) -/

/-- The tile controller reports a ring to the resident manager (R192). -/
def State.reportRing (s : State) (mk r : Nat) : State :=
  { s with tier := { s.tier with overrun := s.tier.overrun ++ [mk * 4 + r] } }

/-- Looks at one ring: an overrun one is disabled, counted and reported; a served one with work is chosen. -/
def State.lookRing (s : State) (mk r : Nat) : State × Bool :=
  match s.ringClu mk r with
  | none => (s, false)
  | some ck =>
    let lag := s.ringLag mk r ck
    if s.rd Reg.MV_BIND_ENABLE mk r = 0 ∨ s.vatFrozen (s.rd Reg.MV_BIND_VAT mk r) ∨ lag = 0 ∨ 2 ^ 31 ≤ lag then (s, false)
    else if s.ringSize mk r < lag then
      (((s.wr Reg.MV_BIND_ENABLE mk 0 r).bump Reg.MV_DROPS_OVERRUN mk).reportRing mk r, false)
    else (s, true)

/-- The next ring in turn that has work. -/
def State.nextRing (s : State) (mk : Nat) : List Nat → State × Option Nat
  | [] => (s, none)
  | r :: rest =>
    let x := s.lookRing mk r
    if x.2 then (x.1, some r) else x.1.nextRing mk rest

def State.setMv (s : State) (mk : Nat) (run : MvRun) : State :=
  { s with tier := { s.tier with mv := minsert mk run s.tier.mv } }
def State.mvRun? (s : State) (mk : Nat) : Option MvRun := (s.tier.mv.find? fun e => e.1 == mk).map Prod.snd

/-- TIER_MOVER_DESCRIPTOR_START (R191, R192, R197): the next ring with work, its entry read and checked. An entry that
cannot be read ends as a descriptor whose STATUS location is refused (log 28). -/
def State.doMoverStart (s : State) (mk : Nat) : State :=
  if (s.mvRun? mk).isSome || s.pwr.lossAt.isSome then s
  else
    let last := s.rd Reg.MV_STATUS_RING mk
    let x := s.nextRing mk ((List.range 4).map fun i => (last + 1 + i) % 4)
    match x.2 with
    | none => x.1
    | some r =>
      let s := (x.1.wr Reg.MV_STATUS_RING mk r).wr Reg.MV_STATUS_BUSY mk 1
      match s.ringClu mk r with
      | none => s
      | some ck =>
        let svc := s.rd Reg.MV_BIND_SVC mk r == 1
        let p := s.pail (coreOf ck 4) (s.rd Reg.MV_BIND_RING_PAIL mk r)
        let off := s.rd Reg.MV_CONSUMED_CONSUMED mk r % s.ringSize mk r * 64
        if !p.usable svc false || p.view != 0 || decide (p.size < off + 64) then
          s.setMv mk ⟨r, [], cBounds, 0, true, false⟩
        else
          let (s, ok) := s.readScr (coreOf ck 4) (p.base + off) 64 4
          if !ok then s.setMv mk ⟨r, [], cEcc, 0, true, false⟩
          else
            let d := (List.range 8).map fun i => s.ld (scrKey (coreOf ck 4) (p.base + off + 8 * i)) 8
            let c := s.mvCheck ck (s.rd Reg.MV_BIND_VAT mk r) svc d
            (c.1.wr Reg.MV_STATUS_REMAINING mk (if c.2.1 = 0 then mvDn d * mvDrow d else 0)).setMv mk
              ⟨r, d.map w64, c.2.1, 0, !c.1.mvStatusOk ck svc d, false⟩

def execTierMoverDescriptorStart (t : Tile) (mv : Fin 4) (s : State) : Host.Outcome State Fault Refusal :=
  .next (s.doMoverStart (t.val * 4 + mv.val))

/-! ### Moving the bytes (R195, R203) -/

/-- The elements of a row of bytes. -/
def mvUnpack (fmt n : Nat) (bs : List Byte) : List Nat :=
  let v := leNat (ofBytes bs)
  (List.range n).map fun i => v / 2 ^ (i * elemBits fmt) % 2 ^ elemBits fmt

/-- Value of element c of row r, its block scale applied; scales are dense in row order (R195). -/
def mvValue (d : List Nat) (scales : List Nat) (r c x : Nat) : Num :=
  let f := mvSf d
  let n := mvCols d
  if f = 0x10 then wideVal x
  else if isBlockFmt f then scaledVal f x (scales.getD (if mvAxis d = 0 then r * (n / 32) + c / 32 else r / 32 * n + c) 0)
  else elemVal f x

/-- A converted grid, its scales and its flags (R63, R64, R529). With RND = 4 the row input is the source element's linear index, in a
TRANSPOSE too (log 78). -/
def mvConvert (d : List Nat) (vals : List (List Num)) : List (List Nat) × List Nat × Nat :=
  let f := mvDf d
  let n := mvCols d
  if isBlockFmt f then
    let lines := if mvAxis d = 0 then vals else (List.range n).map fun c => vals.map fun row => row.getD c .nan
    let q := lines.map fun l => quantLine f (mvRnd d) (l.length / 32) 0x7F l
    let el := q.map fun x => x.1
    let sc := q.map fun x => x.2.1
    if mvAxis d = 0 then (el, sc.flatten, q.foldl (fun a x => a ||| x.2.2) 0)
    else (transposeL vals.length el, (transposeL (vals.length / 32) sc).flatten, q.foldl (fun a x => a ||| x.2.2) 0)
  else
    let out := vals.zipIdx.map fun row => collect (row.1.zipIdx.map fun x =>
      elemRound f (mvRnd d) (if mvRnd d = 4 then stochR (dbits d 0 58 27) (row.2 * n + x.2) 0 else 0) (dbits d 0 20 20 == 1) x.1)
    (out.map Prod.fst, [], out.foldl (fun a x => a ||| x.2) 0)

/-- Where token q lies (R203). -/
def MvPlan.token (p : MvPlan) (d : List Nat) (q : Nat) : MLoc :=
  let sh := 21 - mvTok d
  match p.pages.find? fun x => x.1 == q / 2 ^ sh with
  | some x => mlocPlus (q % 2 ^ sh * mvBytes d) x.2
  | none => .t1 0

/-- Where row r is read. -/
def MvPlan.rowSrc (p : MvPlan) (d : List Nat) (r : Nat) : MLoc :=
  if mvOp d = 2 then p.token d (mvPos d + r) else mlocPlus (r * mvSs d) p.src

/-- The writes of the first rows of a descriptor, in order, and the flags of ARITH_STATUS. -/
def mvWrites (p : MvPlan) (d : List Nat) (scales : List Nat) (rows : List (List Byte)) : List (MLoc × List Byte) × Nat :=
  let n := mvCols d
  let plain := rows.zipIdx.map fun x =>
    (if mvOp d = 3 then p.token d (mvPos d + x.2) else mlocPlus (x.2 * mvDs d) p.dst, x.1)
  if mvOp d = 1 ∨ mvConv d then
    let els := rows.map (mvUnpack (mvSf d) n)
    let g : List (List Nat) × List Nat × Nat := if mvSf d = mvDf d then (els, [], 0) else
      mvConvert d (els.zipIdx.map fun row => row.1.zipIdx.map fun x => mvValue d scales row.2 x.2 x.1)
    if mvOp d = 1 then
      ((transposeL n g.1).zipIdx.map fun x => (mlocPlus (x.2 * mvDs d) p.dst, packRow (mvDf d) x.1), g.2.2)
    else
      ((g.1.zipIdx.map fun x => (mlocPlus (x.2 * mvDs d) p.dst, packRow (mvDf d) x.1)) ++
        (if g.2.1 = [] then [] else [(p.dsc, toBytes g.2.1)]), g.2.2)
  else (plain, 0)

/-- Reads rows r, r + 1, … until one fails: the rows read, and the cause. -/
def State.mvReadRows (s : State) (t : Nat) (p : MvPlan) (d : List Nat) : Nat → Nat → State × List (List Byte) × Nat
  | 0, _ => (s, [], 0)
  | n + 1, r =>
    let x := s.mvFetch t (p.rowSrc d r) (mvBytes d)
    if x.2.2 ≠ 0 then (x.1, [], x.2.2)
    else
      let y := x.1.mvReadRows t p d n (r + 1)
      (y.1, x.2.1 :: y.2.1, y.2.2)

/-- The first cause that a write of a list meets (R202). -/
def State.mvWriteStop (s : State) (t : Nat) (w : List (MLoc × List Byte)) : Nat :=
  (w.findSome? fun x => if s.mvBlocked t x.2.length x.1 = 0 then none else some (s.mvBlocked t x.2.length x.1)).getD 0

/-- Moves a descriptor's rows. When a read or a write fails, the descriptor stops; how many of the rows before it have been written
is open, so that the count is a free value (R202, log 28). -/
def State.mvMove (s : State) (mk : Nat) (run : MvRun) (p : MvPlan) (d : List Nat) : State :=
  let t := mk / 4
  let sc := if !mvKv d && mvUses d 5 then s.mvFetch t p.ssc (mvScales d) else (s, [], 0)
  if sc.2.2 ≠ 0 then sc.1.setMv mk { run with cause := sc.2.2, moved := true }
  else
    let x : State × List (List Byte) × Nat :=
      if mvOp d = 4 then (sc.1, List.replicate (mvRows d) (List.replicate (mvBytes d) 0), 0)
      else sc.1.mvReadRows t p d (mvRows d) 0
    let stop := x.1.mvWriteStop t (mvWrites p d (ofBytes sc.2.1) x.2.1).1
    let cause := if x.2.2 = 0 then stop else x.2.2
    let k : State × Nat := if cause = 0 then (x.1, x.2.1.length)
      else
        let v := x.1.draw
        let n := v.1.toNat % (x.2.1.length + 1)
        (v.2, if mvAxis d = 1 ∧ mvConv d then n / 32 * 32 else n)
    let w := mvWrites p d (ofBytes sc.2.1) (x.2.1.take k.2)
    let go := w.1.filter fun e => k.1.mvBlocked t e.2.length e.1 = 0
    let s := k.1.each go fun s e => s.mvWrite e.1 e.2
    let bytes := (go.map fun e => e.2.length).sum
    ((s.bump Reg.MV_STATS_PAGES mk ((bytes + 4095) / 4096)).wr Reg.MV_STATUS_REMAINING mk 0).setMv mk
      { run with cause := cause, arith := w.2 % 256, moved := true }

/-- A row of the opcode table moves the descriptor that runs when it is of its operation. -/
def State.doMover (s : State) (mk op : Nat) : State :=
  match s.mvRun? mk with
  | none => s
  | some run =>
    let d := run.desc.map BitVec.toNat
    if run.cause ≠ 0 ∨ run.moved ∨ mvOp d ≠ op then s
    else match s.ringClu mk run.ring with
      | none => s
      | some ck =>
        let c := s.mvCheck ck (s.rd Reg.MV_BIND_VAT mk run.ring) (s.rd Reg.MV_BIND_SVC mk run.ring == 1) d
        if c.2.1 ≠ 0 then c.1.setMv mk { run with cause := c.2.1, moved := true } else c.1.mvMove mk run c.2.2 d

/-- TIER_MOVER_COPY (R195, R63, R64, R528, R529). -/
def execTierMoverCopy (t : Tile) (mv : Fin 4) (s : State) : Host.Outcome State Fault Refusal :=
  .next (s.doMover (t.val * 4 + mv.val) 0)
/-- TRANSPOSE (R195, R528). -/
def execTranspose (t : Tile) (mv : Fin 4) (s : State) : Host.Outcome State Fault Refusal :=
  .next (s.doMover (t.val * 4 + mv.val) 1)
/-- KV_READ (R203). -/
def execKvRead (t : Tile) (mv : Fin 4) (s : State) : Host.Outcome State Fault Refusal :=
  .next (s.doMover (t.val * 4 + mv.val) 2)
/-- KV_WRITE (R203). -/
def execKvWrite (t : Tile) (mv : Fin 4) (s : State) : Host.Outcome State Fault Refusal :=
  .next (s.doMover (t.val * 4 + mv.val) 3)
/-- ZERO (R195). -/
def execZero (t : Tile) (mv : Fin 4) (s : State) : Host.Outcome State Fault Refusal :=
  .next (s.doMover (t.val * 4 + mv.val) 4)

/-- TIER_MOVER_DESCRIPTOR_END (R192, R197, R198): the record of Table 5.10 where STATUS is valid, word 1 first;
CONSUMED, FAILURES, and the signal; a ring that has been overrun meanwhile is found before CONSUMED rises. -/
def State.doMoverEnd (s : State) (mk : Nat) : State :=
  match s.mvRun? mk with
  | none => s
  | some run =>
    if run.cause = 0 ∧ run.moved = false then s
    else match s.ringClu mk run.ring with
      | none => s
      | some ck =>
        let d := run.desc.map BitVec.toNat
        let core := coreOf ck 4
        let off := (s.pail core (dbits d 7 5 0)).base + dbits d 7 29 6
        let w0 := dbits d 7 63 32 + run.arith % 256 * 2 ^ 32 + run.cause * 2 ^ 40 + 2 ^ 63
        let s := if run.statusBad then s
          else (s.writeScr core (off + 8) (toBytes (leBytes 8 (s.now % 2 ^ 64)))).writeScr core off (toBytes (leBytes 8 w0))
        let s := (s.lookRing mk run.ring).1.bumpW Reg.MV_CONSUMED_CONSUMED mk 1 run.ring
        let s := if run.cause = 0 then s else s.bump Reg.MV_STATS_FAILURES mk
        let s := (s.dropRing mk run.ring)
        if dbits d 0 22 22 = 1 then s.signal ck (dbits d 0 26 23) else s

def execTierMoverDescriptorEnd (t : Tile) (mv : Fin 4) (s : State) : Host.Outcome State Fault Refusal :=
  .next (s.doMoverEnd (t.val * 4 + mv.val))

/-! ### The grant table and the T3 ports (R187 to R190, R206, R207) -/

/-- TIER_GRANT_WRITE (R190, Table 7.11): windows 0 to 15 of vats 1 to 255. -/
def State.doGrantWrite (s : State) (vat w v : Nat) : State :=
  if vat = 0 then s
  else
    let i := vat * 16 + w
    ((((s.wr Reg.GRANT_VALID 0 (bitsOf v 0 0) i).wr Reg.GRANT_WRITE 0 (bitsOf v 1 1) i).wr Reg.GRANT_TIER 0 (bitsOf v 3 2) i).wr
      Reg.GRANT_BASE_2M 0 (bitsOf v 34 4) i).wr Reg.GRANT_PAGES_M1 0 (bitsOf v 56 35) i

def execTierGrantWrite (vat : BitVec 8) (win : BitVec 4) (v : Word) (s : State) : Host.Outcome State Fault Refusal :=
  .next (s.doGrantWrite vat.toNat win.toNat v.toNat)

/-- T3_LINK_DOWN (R188, R399): the port leaves L0 and T3_DOWN is recorded. -/
def State.doT3Down (s : State) (p : Nat) : State :=
  if s.t3Up p then
    (((s.wr Reg.T3_STATUS_LINK_UP p 0).wr Reg.T3_STATUS_SPEED p 0).wr Reg.T3_STATUS_WIDTH p 0).faultRec
      { type := evT3Down, tile := t3Tile p, d0 := p }
  else s

def execT3LinkDown (port : Fin 8) (s : State) : Host.Outcome State Fault Refusal := .next (s.doT3Down port.val)

/-- A read packet for a T3 port that stands at the port's tile. -/
def State.t3Read (s : State) (p : Pkt) (port : Nat) : Bool :=
  s.arrived p && p.at_ == t3Tile port && (p.op == opReadReq || p.op == opLoad || p.op == opAmo) && p.retryAt.isNone &&
    bitOf p.daddr.toNat 63 && (match decodePa (p.daddr.toNat % 2 ^ 56) with
      | some (.t3 q _) => q == port
      | _ => false)

/-- T3_READ_TIMEOUT (R188): a read outstanding when the link went down answers POISON 50 µs after it was sent. -/
def State.doT3Timeout (s : State) (port pid : Nat) : State :=
  match s.pkt? pid with
  | none => s
  | some p =>
    if s.t3Read p port && !s.t3Up port && decide (p.sentAt + us 50 ≤ s.now) then
      (s.bump Reg.T3_STATUS_POISON_RX port).nackDrop p cPoison
    else s

def execT3ReadTimeout (port : Fin 8) (pid : Nat) (s : State) : Host.Outcome State Fault Refusal :=
  .next (s.doT3Timeout port.val pid)

/-- NVME_INBOUND_DMA (R187): a bus address from IN_BASE to IN_LIMIT reaches IN_TARGET + (a − IN_BASE) in T1 or T2; any
other completes with Unsupported Request, which changes nothing here. -/
def State.doNvmeDma (s : State) (port a : Nat) (dir : DmaDir) : State :=
  let n := match dir with
    | .read n => n
    | .write data => data.length
  let lo := s.rd Reg.T3_IN_BASE_IN_BASE port
  let pa := s.rd Reg.T3_IN_TARGET_IN_TARGET port + (a - lo)
  if !s.t3Up port || !s.tier.t3nvme.contains port || decide (n = 0 ∨ a < lo ∨ s.rd Reg.T3_IN_LIMIT_IN_LIMIT port < a + n - 1) then s
  else
    let go (t : Tgt) : State :=
      if s.tgtOk 0 true s.ownMod t n true then (match dir with
        | .read n => (s.readMem t n).1
        | .write data => s.writeMem t data)
      else s
    match (if pa < 2 ^ 56 then decodePa pa else none) with
    | some (.t1 o) => go (.t1 o)
    | some (.t2 t o) => go (.t2 t o)
    | _ => s

def execNvmeInboundDma (port : Fin 8) (busAddr : Word) (dir : DmaDir) (s : State) : Host.Outcome State Fault Refusal :=
  .next (s.doNvmeDma port.val busAddr.toNat dir)

end Sys2Proof.Machine
end

