-- ==== Sys2Proof/Machine/Sched.lean ====
section
/-! DEFINITION. The scheduled plane (08): schedule images and their arming, injection lists, hops, deliveries and
repairs, slots, deficits and held slots. -/

namespace Sys2Proof.Machine

/-! ### Slots (R208 to R210) -/

/-- The six whey slots. -/
def isWhey (slot : Nat) : Bool := [0, 43, 85, 128, 171, 213].contains slot

/-- The next and the previous scheduled slot index (R209). -/
def nextSched (slot : Nat) : Nat := if isWhey ((slot + 1) % 256) then (slot + 2) % 256 else (slot + 1) % 256
def prevSched (slot : Nat) : Nat := if isWhey ((slot + 255) % 256) then (slot + 254) % 256 else (slot + 255) % 256

def State.slotIx (s : State) : Nat := s.sch.slots % 256
def State.frameNo (s : State) : Nat := s.sch.slots / 256

/-- Does the scheduled plane move data now: the clock mesh runs, no held slot, no whey slot? -/
def State.schedRuns (s : State) : Bool := s.clk.started && !s.sch.inHeld && !isWhey s.slotIx

/-- Index of a slot-ownership entry, of an injection entry's word (Tables 8.10, 8.11). -/
def ownIdx (bank port lg slot : Nat) : Nat := ((bank * 16 + port) * 8 + lg) * 256 + slot
def injIdx (bank n w : Nat) : Nat := (bank * 256 + n) * 2 + w

/-- The active bank of a vat, as a tile shows it. -/
def State.bankOf (s : State) (t vat : Nat) : Nat := s.rd Reg.VAT_BANK_BANK t (vat / 64) / 2 ^ (vat % 64) % 2

/-- Makes a bank active for a vat on every tile. -/
def State.setBank (s : State) (vat b : Nat) : State :=
  s.each (List.range 36) fun s t =>
    let w := s.rd Reg.VAT_BANK_BANK t (vat / 64)
    s.wr Reg.VAT_BANK_BANK t (w - w / 2 ^ (vat % 64) % 2 * 2 ^ (vat % 64) + b * 2 ^ (vat % 64)) (vat / 64)

/-! ### Entries (Tables 8.4, 8.5) -/

def entValid (e : Nat) : Bool := bitOf e 0
def entVat (e : Nat) : Nat := bitsOf e 8 1
def entCl (e : Nat) : Nat := bitsOf e 28 27
def entSlot (e : Nat) : Nat := bitsOf e 31 29

/-- Enabled streams: stream, input port, input group, input half. -/
def entStreams (e : Nat) : List (Nat × Nat × Nat × Nat) :=
  (if bitOf e 9 then [(0, bitsOf e 13 10, bitsOf e 16 14, bitsOf e 17 17)] else []) ++
    (if bitOf e 18 then [(1, bitsOf e 22 19, bitsOf e 25 23, bitsOf e 26 26)] else [])

def injSlot (w0 : Nat) : Nat := bitsOf w0 7 0
def injLg (w0 : Nat) : Nat := bitsOf w0 10 8
def injPer (w0 : Nat) : Nat := 2 ^ bitsOf w0 13 11
def injPhase (w0 : Nat) : Nat := bitsOf w0 20 14
def injLen (w0 : Nat) : Nat := bitsOf w0 63 51 + 1

/-- Is a port code one of Table 8.2? -/
def schedPort (p : Nat) : Bool := decide (p < 4) || (decide (8 ≤ p) && decide (p ≤ 13))

/-! ### Images (R221 to R224) -/

/-- The triples of an image as numbers (R221). -/
def Image.claims (i : Image) : List Nat :=
  i.own.map (fun o => ((o.1 * 16 + o.2.1) * 8 + o.2.2.1) * 256 + o.2.2.2.1) ++
    i.inj.map fun r => (((36 + cidTile r.1) * 16 + 8 + cidSite r.1) * 8 + injLg r.2.1) * 256 + injSlot r.2.1

/-- Check 1 of R222: the header. -/
def State.imgHeadOk (s : State) (ws : List Nat) (body : List Byte) : Bool :=
  let w (i : Nat) : Nat := ws.getD i 0
  let vat := bitsOf (w 0) 11 4
  w 0 % 16 == 1 && bitsOf (w 0) 63 12 == 0 && bitsOf (w 2) 63 32 == 0 && [3, 4, 5, 6, 7].all (fun i => w i == 0) &&
    w 2 % 2 ^ 32 == crc32c (ofBytes body) && vat != 0 && (match s.vat? vat with
      | some v => v.parent == 0 && v.killing.isNone
      | none => false)

/-- Check 2 of R222, an ownership record. -/
def State.ownRecOk (s : State) (top : Nat) (fam : List Nat) (r : Nat) : Bool :=
  let t := r % 64
  let p := bitsOf r 9 6
  let e := bitsOf r 63 32
  let lk := t * 32 + (p - 8) * 4 + entCl e
  bitsOf r 31 21 == 0 && decide (t < 36) && schedPort p && decide (bitsOf r 12 10 < 6) && !isWhey (bitsOf r 20 13) &&
    fam.contains (entVat e) && (entStreams e).all (fun x => decide (x.2.1 < 8) || x.2.2.2 == 0) &&
    (if p < 4 then (neighbour t p).isSome && bitsOf e 31 27 == 0
     else !bitOf e 18 && decide (entSlot e < 5) && (((s.vat? top).map Vat.clus).getD []).any (fun k => ckTile k == t) &&
       s.psite t (p - 8) != 7 && (s.smallestAt lk).isSome)

/-- Check 2 of R222, an injection record. -/
def State.injRecOk (s : State) (fam : List Nat) (r : Nat × Nat × Nat) (w1 : Nat) : Bool :=
  bitsOf w1 63 49 == 0 && !isWhey (injSlot r.2.1) && decide (injLg r.2.1 < 6) && decide (injPhase r.2.1 < injPer r.2.1) &&
    injLen r.2.1 % 8 == 0 && decide (injLen r.2.1 ≤ 7608) && cidOk r.1 5 &&
    (match s.smallestAt (cidTile r.1 * 32 + cidSite r.1 * 4 + cidClu r.1) with
     | some v => fam.contains v.id
     | none => false)

/-- Check 3 of R222: every enabled input stream has its source, and every injection record feeds an output. -/
def State.closed (s : State) (i : Image) : Bool :=
  let vatAt (id : Nat) : Nat := ((s.smallestAt (cidTile id * 32 + cidSite id * 4 + cidClu id)).map Vat.id).getD 0
  (i.own.all fun o =>
    let t := o.1
    let sl := o.2.2.2.1
    let e := o.2.2.2.2
    (entStreams e).all fun x =>
      if x.2.1 < 4 then
        (match neighbour t x.2.1 with
         | none => false
         | some n => i.own.any fun q => q.1 == n && q.2.1 == oppPort x.2.1 && q.2.2.1 == x.2.2.1 && q.2.2.2.1 == prevSched sl &&
             entVat q.2.2.2.2 == entVat e && (entStreams q.2.2.2.2).any fun y => y.1 == x.2.2.2)
      else i.inj.any fun r => cidTile r.1 == t && cidSite r.1 + 8 == x.2.1 && injLg r.2.1 == x.2.2.1 &&
        injSlot r.2.1 == prevSched sl && vatAt r.1 == entVat e) &&
  i.inj.all fun r => i.own.any fun o => o.1 == cidTile r.1 && o.2.2.2.1 == nextSched (injSlot r.2.1) &&
    (entStreams o.2.2.2.2).any fun x => x.2.1 == 8 + cidSite r.1 && x.2.2.1 == injLg r.2.1

/-- Check 4 of R222: at most two streams sent and two received by a cluster in a slot; a record sends in the frames of its phase, an
output receives where its stream is enabled. -/
def Image.loadOk (i : Image) : Bool :=
  let recv := (i.own.filter fun o => decide (8 ≤ o.2.1) && bitOf o.2.2.2.2 9).map fun o =>
    (o.1 * 32 + (o.2.1 - 8) * 4 + entCl o.2.2.2.2) * 256 + o.2.2.2.1
  ((List.range 128).all fun f =>
    let send := (i.inj.filter fun r => f % injPer r.2.1 == injPhase r.2.1).map fun r => (r.1 / 8) * 256 + injSlot r.2.1
    send.all fun k => decide (send.count k ≤ 2)) && recv.all fun k => decide (recv.count k ≤ 2)

/-- The image of a header and a body, and the cause of R222, 0 when every check passes. -/
def State.checkImage (s : State) (ws : List Nat) (body : List Byte) : Nat × Image :=
  let bs := ofBytes body
  let no := ws.getD 1 0 % 2 ^ 32
  let ni := ws.getD 1 0 / 2 ^ 32
  let word (o : Nat) : Nat := leNat ((bs.drop o).take 8)
  let top := bitsOf (ws.getD 0 0) 11 4
  let recs := (List.range no).map fun i => word (8 * i)
  let injs := (List.range ni).map fun i => (word (8 * no + 16 * i), word (8 * no + 16 * i + 8))
  let img : Image := {
    vat := top, st := .staged, armAt := none, bank := 1 - s.bankOf 0 top
    own := recs.map fun r => (r % 64, bitsOf r 9 6, bitsOf r 12 10, bitsOf r 20 13, bitsOf r 63 32)
    inj := injs.map fun r => (bitsOf r.2 48 35, r.1, r.2) }
  let fam := s.subtree top
  if !s.imgHeadOk ws body then (cBounds, img)
  else if !(recs.all (s.ownRecOk top fam) && img.inj.all (fun r => s.injRecOk fam r r.2.2) &&
      img.inj.all fun r => decide ((img.inj.filter fun q => q.1 == r.1).length ≤ 256)) then (cBounds, img)
  else if !s.closed img || !img.loadOk then (cBounds, img)
  else if s.sch.images.any fun j => j.vat != top && j.claims.any img.claims.contains then (cSlot, img)
  else (0, img)

/-- The physical core that an injection record names; none where its logical site is unmapped. -/
def State.injCore (s : State) (id : Nat) : Option Nat := s.physCore false id

/-- Clears an image's entries and lists from its bank. -/
def State.wipeImage (s : State) (i : Image) : State :=
  let s := s.each i.own fun s o => s.wr Reg.SCH_ENTRY_ENTRY o.1 0 (ownIdx i.bank o.2.1 o.2.2.1 o.2.2.2.1)
  s.each (i.inj.filterMap fun r => s.injCore r.1).dedup fun s c =>
    s.each (List.range 512) fun s k => s.wr Reg.INJ_ENTRY_WORD c 0 (i.bank * 512 + k)

/-- Writes the injection list of one core. -/
def State.writeList (s : State) (i : Image) (id : Nat) : State :=
  match s.injCore id with
  | none => s
  | some c => s.each (i.inj.filter fun r => r.1 == id).zipIdx fun s x =>
      (s.wr Reg.INJ_ENTRY_WORD c x.1.2.1 (injIdx i.bank x.2 0)).wr Reg.INJ_ENTRY_WORD c x.1.2.2 (injIdx i.bank x.2 1)

/-- Writes an image's entries and lists into its bank. -/
def State.writeImage (s : State) (i : Image) : State :=
  let s := s.each i.own fun s o => s.wr Reg.SCH_ENTRY_ENTRY o.1 o.2.2.2.2 (ownIdx i.bank o.2.1 o.2.2.1 o.2.2.2.1)
  s.each (i.inj.map Prod.fst).dedup fun s id => s.writeList i id

def State.setImages (s : State) (l : List Image) : State := { s with sch := { s.sch with images := l } }

/-- Drops images that satisfy p. -/
def State.dropImages (s : State) (p : Image → Bool) : State :=
  (s.each (s.sch.images.filter p) State.wipeImage).setImages (s.sch.images.filter fun i => !p i)

/-- F.SLOAD's source (R221): T1, T2 or the S-core's own scratch. -/
def State.imgLoc (s : State) (ck w len : Nat) : Nat × MLoc :=
  let r := s.mvLoc 0 true w len false
  if r.1 ≠ 0 then r
  else match r.2 with
    | .scr c _ => if c = coreOf ck 4 then r else (cBounds, r.2)
    | .t3 _ _ => (cBounds, r.2)
    | _ => r

/-- Loads a schedule (R222). -/
def State.sload (s : State) (ck : Nat) (w : Nat) : State × Nat :=
  let h := s.imgLoc ck w 0x40
  if h.1 ≠ 0 then (s, h.1)
  else
    let x := s.mvRead h.2 0x40
    if x.2.2 ≠ 0 then (x.1, x.2.2)
    else
      let ws := (List.range 8).map fun i => leNat (ofBytes ((x.2.1.drop (8 * i)).take 8))
      let n := 8 * (ws.getD 1 0 % 2 ^ 32) + 16 * (ws.getD 1 0 / 2 ^ 32)
      let b := x.1.imgLoc ck w (0x40 + n)
      if b.1 ≠ 0 then (x.1, b.1)
      else
        let y := x.1.mvRead (mlocPlus 0x40 b.2) n
        if y.2.2 ≠ 0 then (y.1, y.2.2)
        else
          let c := y.1.checkImage ws y.2.1
          if c.1 ≠ 0 then (y.1, c.1)
          else
            let s := y.1.dropImages fun i => i.vat == c.2.vat && i.st == .staged
            ((s.writeImage c.2).setImages (s.sch.images ++ [c.2]), 0)

/-- F.SLOAD (R221, R222): the load and its signal happen within the command (log 29). -/
def execFSload (c : Clu) (f : FmtF) (s : State) : Host.Outcome State Fault Refusal :=
  .next (s.fsvc c f (f.rs2 == 0) fun w sc s =>
    let ck := cluKey c
    let r := s.sload ck w.toNat
    if r.2 ≠ 0 then r.1.trap ck r.2 w
    else
      let s := r.1.retire ck sc
      if f.sigEn then s.signal ck f.sigCtr.toNat else s)

/-- F.SARM (R223): arms the staged schedule of the vat in RS2[7:0] at the start of frame RS1, at the earliest of the
current frame + 2. -/
def execFSarm (c : Clu) (f : FmtF) (s : State) : Host.Outcome State Fault Refusal :=
  .next (s.fsvc c f (f.sigCtr == 0 && !f.sigEn) fun w sc s =>
    let vat := (sc.getX f.rs2.toNat).toNat % 256
    let s := s.setImages (s.sch.images.map fun i =>
      if i.vat = vat ∧ i.st = .staged then { i with armAt := some (max w.toNat (s.frameNo + 2)) } else i)
    s.retire (cluKey c) sc)

/-- SCHEDULE_ARM (R223): at a frame boundary the staged banks whose frame has come become active for their vats and
sub-vats; the old schedule's entries are cleared and its triples released. -/
def State.doScheduleArm (s : State) : State :=
  let due := s.sch.images.filter fun i => i.st == .staged && (match i.armAt with
    | some f => decide (f ≤ s.frameNo)
    | none => false)
  if !s.clk.started || s.slotIx != 0 then s
  else s.each due fun s i =>
    let s := s.dropImages fun j => j.vat == i.vat && j.st != .staged
    let s := s.each (s.subtree i.vat) fun s v => s.setBank v i.bank
    s.setImages (s.sch.images.map fun j => if j.vat = i.vat ∧ j.st = .staged then { j with st := .armed, armAt := none } else j)

def execScheduleArm (s : State) : Host.Outcome State Fault Refusal := .next s.doScheduleArm

/-- A released top-level vat loses its entries, lists and triples (R224). -/
def State.releaseSched (s : State) (ids : List Nat) : State := s.dropImages fun i => ids.contains i.vat

/-- Disarms the schedules of top-level vats in every router (R230); their triples stay owned (R224). -/
def State.disarm (s : State) (ids : List Nat) : State :=
  let hit (i : Image) : Bool := ids.contains i.vat && i.st == .armed
  let s := s.each (s.sch.images.filter hit) State.wipeImage
  s.setImages (s.sch.images.map fun i => if hit i then { i with st := .disarmed } else i)

/-- Reloads the injection lists of a logical site from the loaded images (R406 step 5). -/
def State.reloadLists (s : State) (t l : Nat) : State :=
  s.each s.sch.images fun s i =>
    if i.st = .disarmed then s
    else s.each ((i.inj.map Prod.fst).dedup.filter fun id => cidTile id == t && cidSite id == l) fun s id => s.writeList i id

/-! ### Injection and hops (R213 to R219) -/

/-- Words of an injection entry of a core. -/
def State.injWord (s : State) (core bank n w : Nat) : Nat := s.rd Reg.INJ_ENTRY_WORD core (injIdx bank n w)

/-- Entries of a core's active bank: none has word 0 = 0, since slot 0 is a whey slot. -/
def State.injList (s : State) (core : Nat) : List (Nat × Nat) :=
  let b := s.bankOf (core / 256) (s.vatIdOf (cluOfCore core))
  ((List.range 256).map fun n => (s.injWord core b n 0, s.injWord core b n 1)).filter fun e => e.1 != 0

/-- Has the core's vat an armed schedule (INJ_STATUS.ACTIVE)? -/
def State.injActive (s : State) (core : Nat) : Bool :=
  s.sch.images.any fun i => i.st == .armed && i.vat == s.topOf (s.vatIdOf (cluOfCore core)) && i.vat != 0

/-- Key of a stage buffer (R238). -/
def stageKey (t port lg half : Nat) : Nat := t * 256 + port * 16 + lg * 2 + half

def State.putStage (s : State) (k : Nat) (x : Xfer) : State :=
  { s with sch := { s.sch with stageIn := mset none s.sch.stageIn k (some x) } }

/-- A transfer crosses a link: an injected error of kind 3 flips a payload bit (R334). Die-to-base links count as port
32 + physical site here. -/
def State.crossLink (s : State) (t port : Nat) (x : Xfer) : State × Xfer :=
  let r := s.takeInject t port 3 3
  (r.1, if r.2 = 3 then { x with bad := true } else x)

/-- The injector starts the read of an entry for an injection slot: SRC_PAIL is resolved and the bytes are read now (R218). -/
def State.readFor (s : State) (core at_ : Nat) (e : Nat × Nat) : State × SRead :=
  let p := s.pail core (bitsOf e.1 26 21)
  let off := bitsOf e.1 50 27
  let n := injLen e.1
  let pos := scrKey core (p.base + off)
  if !p.usable false false || decide (p.size < off + n) then (s, ⟨core, e.1, e.2, at_, pos, none⟩)
  else
    let (s, ok) := s.readScr core (p.base + off) n 4
    (s, ⟨core, e.1, e.2, at_, pos, if ok then some (s.ldBytes pos n) else none⟩)

/-- Bytes that stood at a place when they were read: if the place holds others now, what is carried on is neither (R220). -/
def State.settled (s : State) (pos : Nat) (bs : List Byte) : State × List Byte :=
  if s.ldBytes pos bs.length = bs then (s, bs) else State.drawBytes bs.length s

/-- One entry of an injection list sends its transfer, or is skipped (R216, R218, R220); a read that has not been started is
made now (log 31). -/
def State.injectOne (s : State) (core : Nat) (e : Nat × Nat) : State :=
  let t := core / 256
  let l := s.lsite t (core / 32 % 8)
  let (s, r) := match s.sch.reads.find? fun r => r.core == core && r.w0 == e.1 && r.w1 == e.2 && r.at_ == s.sch.slots with
    | some r => (s, r)
    | none => s.readFor core s.sch.slots e
  match r.bytes with
  | none => s.bump Reg.INJ_STATUS_INJ_SKIP core
  | some bs =>
    let (s, bs) := s.settled r.pos bs
    let x : Xfer := {
      vat := s.vatIdOf (cluOfCore core), src := mkCid t l (core / 8 % 4) (slotOf core), dstPail := bitsOf e.2 5 0
      dstOff := bitsOf e.2 29 6, sigEn := bitOf e.2 34, sigCtr := bitsOf e.2 33 30, lg := injLg e.1, injAt := s.sch.slots
      payload := bs, bad := false, from_ := r.pos }
    let r := s.crossLink t (32 + core / 32 % 8) x
    r.1.putStage (stageKey t (8 + l) (injLg e.1) 0) r.2

/-- Is an image the one that is active for its vat in a frame (R223)? -/
def State.imageIn (s : State) (i : Image) (f : Nat) : Bool :=
  let comes (j : Image) : Bool := j.st == .staged && (match j.armAt with
    | some a => decide (a ≤ f)
    | none => false)
  comes i || (i.st == .armed && !s.sch.images.any fun j => j.vat == i.vat && comes j)

/-- In each scheduled slot the injectors start the reads of the transfers that are injected two scheduled slots later (R218). -/
def State.startReads (s : State) : State :=
  if isWhey s.slotIx then s
  else
    let b := nextSched (nextSched s.slotIx)
    let f := s.frameNo + (if b < s.slotIx then 1 else 0)
    let keep := s.sch.reads.filter fun r => decide (s.sch.slots ≤ r.at_)
    let es := (s.sch.images.filter fun i => s.imageIn i f).flatMap fun i =>
      i.inj.filter fun r => injSlot r.2.1 == b && f % injPer r.2.1 == injPhase r.2.1
    State.each { s with sch := { s.sch with reads := keep } } es fun s e =>
      match s.injCore e.1 with
      | none => s
      | some c =>
        if !s.dieOn (c / 256) (c / 32 % 8) || s.fenced c then s
        else
          let (s, r) := s.readFor c (f * 256 + b) e.2
          { s with sch := { s.sch with reads := s.sch.reads ++ [r] } }

/-- SCHEDULED_INJECTION (R216, R218, R228): the entries of a core's active list that name this slot and frame. -/
def State.doInjection (s : State) (core : Nat) : State :=
  let t := core / 256
  if !s.schedRuns || s.rd Reg.INJ_STATUS_STOPPED core != 0 || !s.injActive core || s.fenced core ||
      !s.dieOn t (core / 32 % 8) || s.lsite t (core / 32 % 8) == 7 then s
  else s.each ((s.injList core).filter fun e => injSlot e.1 == s.slotIx && s.frameNo % injPer e.1 == injPhase e.1) fun s e =>
    s.injectOne core e

def execScheduledInjection (c : Core) (s : State) : Host.Outcome State Fault Refusal := .next (s.doInjection (coreKey c))

/-- The active entry of an output and group in this slot: of the bank that is active for its vat (R215, R223). -/
def State.activeEntry (s : State) (t port lg : Nat) : Option Nat :=
  (([0, 1] : List Nat).map fun b => (b, s.rd Reg.SCH_ENTRY_ENTRY t (ownIdx b port lg s.slotIx))).findSome? fun e =>
    if entValid e.2 ∧ s.bankOf t (entVat e.2) = e.1 then some e.2 else none

/-- The outputs of a tile. -/
def schedOuts : List (Nat × Nat) :=
  ([0, 1, 2, 3, 8, 9, 10, 11, 12, 13] : List Nat).flatMap fun p => (List.range 6).map fun g => (p, g)

/-- A copy leaves through an output: to the neighbour's stage buffer, or down to a die (R213, R214). -/
def State.hopOut (s : State) (t port lg e : Nat) (stream : Nat) (x : Xfer) : State :=
  if port < 4 then
    match neighbour t port with
    | none => s
    | some n =>
      if !s.vlnk n then s
      else
        let r := s.crossLink n (oppPort port) x
        r.1.putStage (stageKey n (oppPort port) lg stream) r.2
  else
    let r := s.crossLink t (32 + s.psite t (port - 8)) x
    { r.1 with sch := { r.1.sch with arrivals := r.1.sch.arrivals ++ [⟨t, port - 8, lg, entCl e, entSlot e, r.2⟩] } }

/-- SCHEDULED_HOP (R209, R213, R215): a base router forwards what its stage buffers took in during the previous scheduled
slot through every output stream whose active entry names it. -/
def State.doHop (s : State) (t : Nat) : State :=
  if !s.schedRuns || !s.vlnk t then s
  else
    let st := s.sch.stage
    let s := s.each schedOuts fun s o =>
      match s.activeEntry t o.1 o.2 with
      | none => s
      | some e => s.each (entStreams e) fun s x =>
          match mget none st (stageKey t x.2.1 x.2.2.1 x.2.2.2) with
          | none => s
          | some y => s.hopOut t o.1 o.2 e x.1 y
    { s with sch := { s.sch with stage := mkeep (fun k => k / 256 != t) s.sch.stage } }

def execScheduledHop (t : Tile) (s : State) : Host.Outcome State Fault Refusal := .next (s.doHop t.val)

/-! ### Delivery and repair (R225 to R227) -/

/-- The physical core that receives. -/
def State.arrCore (s : State) (a : Arrival) : Option Nat :=
  let p := s.psite a.tile a.lsite
  if p = 7 then none else some (a.tile * 256 + p * 32 + a.cl * 8 + a.slot)

def Arrival.lk (a : Arrival) : Nat := a.tile * 32 + a.lsite * 4 + a.cl

/-- A delivery addressed to a held vat has been discarded: the hold is not resumable (R397). -/
def State.spoil (s : State) (lk : Nat) : State :=
  match s.smallestAt lk with
  | some v => if v.run = .held then s.setVat { v with resumable := false } else s
  | none => s

/-- What Table 8.8 says before the payload is looked at: the counter of a discarded delivery, or none. A die without its main rail is
UNMAPPED, though its vat is held (R232). -/
def State.arrDrop (s : State) (a : Arrival) : Option Fld :=
  if (s.killedAt (some a.lk)).isSome then some Reg.SCH_DROP_KILLED
  else
    let held := match s.smallestAt a.lk with
      | some v => v.run == .held
      | none => false
    match s.arrCore a with
    | none => some (if held then Reg.SCH_DROP_FENCED else Reg.SCH_DROP_UNMAPPED)
    | some c =>
      if !s.cellOn a.tile then some Reg.SCH_DROP_UNMAPPED
      else if held || s.fenced c then some Reg.SCH_DROP_FENCED
      else if !s.dieOn a.tile (c / 32 % 8) then some Reg.SCH_DROP_UNMAPPED
      else if s.coreBarred c then some Reg.SCH_DROP_FENCED
      else if ((s.smallestAt a.lk).map fun v => s.topOf v.id) != some (s.topOf a.x.vat) then some Reg.SCH_DROP_KILLED
      else none

/-- Writes a delivery and signals (R225); a pail that does not take it counts BOUNDS (R168). -/
def State.deliver (s : State) (a : Arrival) (repaired : Bool) (bs : List Byte) : State :=
  match s.arrCore a with
  | none => s
  | some c =>
    let p := s.pail c a.x.dstPail
    if !p.takes false true a.x.dstOff bs.length then s.bump Reg.SCH_DROP_BOUNDS a.tile
    else
      let s := s.writeScr c (p.base + a.x.dstOff) bs
      let s := if a.x.sigEn then s.signal (cluOfCore c) a.x.sigCtr else s
      if repaired then s.bump Reg.SCH_REPAIR_REPAIRED a.tile else s

/-- A lost transfer (R226): counted, its vat in fault-hold, XFER_LOST. -/
def State.lostXfer (s : State) (a : Arrival) : State :=
  let s := s.bump Reg.SCH_REPAIR_LOST a.tile
  let r : State × Nat := match s.smallestAt a.lk with
    | some v => (s.faultHold v.id false, v.id)
    | none => (s, 0)
  r.1.faultRec { type := evXferLost, tile := a.tile, psite := s.psite a.tile a.lsite, lsite := a.lsite, cluster := a.cl,
                 slot := a.slot, vat := r.2, resumable := r.1.resumableOf r.2, injected := a.x.bad }

/-! ### The transfer on the link (Table 8.6) -/

/-- The 32-byte header of a transfer. -/
def Xfer.header (x : Xfer) : List Nat :=
  let n := x.vat + x.src * 2 ^ 8 + x.dstPail * 2 ^ 22 + x.dstOff * 2 ^ 28 + x.payload.length * 2 ^ 52 + b2n x.sigEn * 2 ^ 65 +
    x.sigCtr * 2 ^ 66 + x.injAt / 256 % 2 ^ 16 * 2 ^ 70 + x.injAt % 256 * 2 ^ 86 + x.lg * 2 ^ 94
  leBytes 30 n ++ leBytes 2 (crc16 (leBytes 30 n))

/-- The 7,680 bytes of a transfer: header, payload, padding, copy of the header, CRC-32C of the payload, reserved. -/
def Xfer.wire (x : Xfer) : List Nat :=
  x.header ++ ofBytes x.payload ++ List.replicate (7608 - x.payload.length) 0 ++ x.header ++ leBytes 4 (crc32c (ofBytes x.payload)) ++
    [0, 0, 0, 0]

/-- Bytes with some of their bits flipped. -/
def flipBits (w : List Nat) (bits : List Nat) : List Nat := bits.foldl (fun w b => w.set (b / 8) (w.getD (b / 8) 0 ^^^ 2 ^ (b % 8))) w

/-- Bits of a transfer by the parts of Table 8.6: the header, the payload with its padding, the header's copy and what follows it. -/
def wireBits (hdr body copy : List Nat) : List Nat := hdr ++ body.map (256 + ·) ++ copy.map (8 * 7640 + ·)

/-- Does a header copy pass its CRC-16? -/
def headOk (h : List Nat) : Bool := leNat (h.drop 30) == crc16 (h.take 30)

/-- What a destination takes from the bytes that have arrived (R225): the transfer that the first valid header copy describes, and
whether the payload's CRC-32C matches; none where both copies fail. -/
def Xfer.taken (x : Xfer) (w : List Nat) : Option (Xfer × Bool) :=
  let h1 := w.take 32
  let h2 := (w.drop 7640).take 32
  match (if headOk h1 then some h1 else if headOk h2 then some h2 else none) with
  | none => none
  | some h =>
    let n := leNat (h.take 30)
    let pay := (w.drop 32).take (bitsOf n 64 52)
    some ({ x with vat := bitsOf n 7 0, src := bitsOf n 21 8, dstPail := bitsOf n 27 22, dstOff := bitsOf n 51 28, sigEn := bitOf n 65,
                   sigCtr := bitsOf n 69 66, payload := toBytes pay }, leNat ((w.drop 7672).take 4) == crc32c pay)

/-- The bits of a transfer that have flipped on its way: those of the command, one of an injected error of kind 3 (R334), one where a
lane group failed under it (R229). -/
def Xfer.flips (x : Xfer) (extra : List Nat) : List Nat := extra ++ (if x.bad then [256] else []) ++ (if x.torn then [257] else [])

/-- Transfers in stage buffers of some keys fail their CRC. -/
def State.tearStage (s : State) (p : Nat → Bool) : State :=
  { s with sch := { s.sch with stageIn := s.sch.stageIn.map fun e => if p e.1 then (e.1, e.2.map fun x => { x with torn := true }) else e } }

/-- The transfers that cross the link behind an output on a logical group in this slot fail their CRC (R229); `up`: those that come up
from the die of a port. -/
def State.tear (s : State) (t port lg : Nat) (up : Bool) : State :=
  if up then s.tearStage (· == stageKey t port lg 0)
  else if port < 4 then (match neighbour t port with
    | none => s
    | some n => s.tearStage fun k => k / 2 == stageKey n (oppPort port) lg 0 / 2)
  else
    let hit (a : Arrival) : Bool := a.tile == t && a.lsite + 8 == port && a.lg == lg
    { s with sch := { s.sch with arrivals := s.sch.arrivals.map fun a => if hit a then { a with x := { a.x with torn := true } } else a } }

/-! ### Repair (R226) -/

/-- The destination die asks the source injector for a repair; a die's packet within the module takes the route of R261. -/
def State.sendRepairReq (s : State) (rid : Nat) (x : Xfer) (core : Nat) : State :=
  let pay := toBytes x.header
  let ck := cluOfCore core
  let t := ckTile ck
  let src := match s.injCore x.src with
    | some c => s.coreSid c true
    | none => s.ownMod * 2 ^ 14 + x.src - x.src % 256 / 32 * 32 + 7 * 32
  s.sendBy (some ck) true
    { blankPkt with cls := 3, op := opRepairReq, rmode := true, route := xyRoute t (cidTile x.src), daddr := w64 (src * 2 ^ 30),
                    dmod := s.ownMod, dtile := cidTile x.src, src := s.coreSid core true, len := pay.length, payload := pay,
                    owner := .repair rid, from_ := ck, at_ := t }

/-- A repair begins; it remembers the transfer as it was sent. -/
def State.askRepair (s : State) (a : Arrival) (x : Xfer) (core : Nat) : State :=
  let rid := s.sch.nextRid
  State.sendRepairReq { s with sch := { s.sch with repairs := s.sch.repairs ++ [(⟨rid, a, []⟩ : Repair)], nextRid := rid + 1 } } rid x core

/-- SCHEDULED_DELIVERY (R217, R219, R220, R225, R226, Table 8.8): the oldest transfer that waits on a downlink group; `flips` are the
bits of its 7,680 bytes that link errors have flipped on its way. -/
def State.doDelivery (s : State) (t l g : Nat) (flips : List Nat) : State :=
  match s.sch.arrivals.find? fun a => a.tile == t && a.lsite == l && a.lg == g with
  | none => s
  | some a =>
    let s := { s with sch := { s.sch with arrivals := s.sch.arrivals.erase a } }
    match s.arrDrop a, s.arrCore a with
    | some f, _ => (s.bump f t).spoil a.lk
    | none, none => s
    | none, some c =>
      let (s, bs) := if s.sch.slots ≤ a.x.injAt + 48 then s.settled a.x.from_ a.x.payload else (s, a.x.payload)
      let a := { a with x := { a.x with payload := bs } }
      match a.x.taken (flipBits a.x.wire (a.x.flips flips)) with
      | none => s.lostXfer a
      | some (x, true) => s.deliver { a with x := x } false x.payload
      | some (x, false) => s.askRepair a x c

def execScheduledDelivery (t : Tile) (lsite lg : BitVec 3) (hdr body copy : List Nat) (s : State) : Host.Outcome State Fault Refusal :=
  .next (s.doDelivery t.val lsite.toNat lg.toNat (wireBits hdr body copy))

def State.dropRepair (s : State) (rid : Nat) : State :=
  { s with sch := { s.sch with repairs := s.sch.repairs.filter fun r => r.rid != rid } }
def State.repair? (s : State) (p : Pkt) : Option Repair :=
  match p.owner with
  | .repair rid => s.sch.repairs.find? fun r => r.rid == rid
  | _ => none

/-- A repair packet at its final router: the header, rows 1 to 3 of Table 9.8, then what it does at the core that DADDR names; a
refusal ends in `refused`. -/
def State.onRepair (s : State) (op pid : Nat) (refused : Pkt → State → State) (act : Pkt → Nat → State → State) : State :=
  match s.pkt? pid with
  | none => s
  | some p =>
    if p.op ≠ op ∨ p.held ∨ !s.arrived p ∨ !s.inOrder p then s
    else if !p.headerOk then s.dropHeader p
    else
      let (v, core) := s.judgeCore p (bitsOf p.daddr.toNat 43 30) fun _ => true
      if !v.below then refused p (s.refuse p v none)
      else if !s.downOpen p (cluOfCore core) then s
      else match s.down p (cluOfCore core) with
        | (s, none) => s
        | (s, some p) => if v = .go then act p core (s.dropPkt pid) else refused p (s.refuse p v (some (cluOfCore core)))

/-- The source bytes of a repair, read again: the state, and the bytes where the entry and its pail are still there and the read is
good. What differs from the transfer that was sent is neither old nor new (R220). -/
def State.repairBytes (s : State) (c frame slot lg : Nat) (old : Option (List Byte)) : State × Option (List Byte) :=
  match (s.injList c).find? fun e => injSlot e.1 == slot && injLg e.1 == lg && frame % injPer e.1 == injPhase e.1 with
  | none => (s, none)
  | some e =>
    let (s, r) := s.readFor c s.sch.slots e
    match r.bytes with
    | none => (s, none)
    | some bs => if old.all (· == bs) then (s, some bs) else
        let (s, free) := State.drawBytes bs.length s
        (s, some free)

/-- The source injector's answer to a repair request whose header is `h` (R226): REPAIR_DATA within 48 slots of the injection slot,
later REPAIR_LATE. A request whose entry or pail is gone gets no answer. -/
def State.answerRepair (s : State) (p : Pkt) (h c : Nat) : State :=
  let frame := s.frameNo - (s.frameNo + 2 ^ 16 - bitsOf h 85 70) % 2 ^ 16
  let answer (op : Nat) (bs : List Byte) (s : State) : State :=
    s.sendBy (some (cluOfCore c)) true
      { blankPkt with cls := 3, op := op, rmode := true, route := revRoute p.route p.hop, dmod := sidMod p.src, dtile := sidTile p.src,
                      daddr := w64 (p.src % 2 ^ 20 * 2 ^ 30 + bitsOf h 27 22 * 2 ^ 24 + bitsOf h 51 28), src := s.coreSid c true,
                      seq := 1, len := bs.length, payload := bs, owner := p.owner, from_ := cluOfCore c, at_ := c / 256 }
  if frame * 256 + bitsOf h 93 86 + 48 < s.sch.slots then answer opRepairLate [] (s.bump Reg.SCH_REPAIR_REPAIR_LATE (c / 256))
  else match s.repairBytes c frame (bitsOf h 93 86) (bitsOf h 96 94) ((s.repair? p).map fun r => r.a.x.payload) with
    | (s, some bs) => answer opRepairData bs s
    | (s, none) => s

/-- REPAIR_REQ (R226) at the source injector. -/
def State.doRepairReq (s : State) (pid : Nat) : State :=
  s.onRepair opRepairReq pid (fun _ s => s) fun p c s => s.answerRepair p (leNat (ofBytes (p.payload.take 30))) c

def execRepairReq (pid : Nat) (s : State) : Host.Outcome State Fault Refusal := .next (s.moved fun s => s.doRepairReq pid)

/-- A repair whose core takes nothing any more ends as Table 8.8 counts it. -/
def State.endRepair (s : State) (r : Repair) : State :=
  match s.arrDrop r.a with
  | some f => ((s.bump f r.a.tile).spoil r.a.lk).dropRepair r.rid
  | none => s

/-- REPAIR_DATA (R226, R249, Table 9.8): the repaired bytes are written, the transfer signals, and the packet is
acknowledged; they are too late 64 slots after the injection slot; data for a repair that has ended is only acknowledged. -/
def State.doRepairData (s : State) (pid : Nat) : State :=
  s.onRepair opRepairData pid
    (fun p s => match s.repair? p with
      | some r => s.endRepair r
      | none => s)
    fun p c s =>
      let s := s.reply p p.at_ (some (cluOfCore c)) opAck 0 []
      match s.repair? p with
      | none => s
      | some r =>
        if (s.arrDrop r.a).isSome then s.endRepair r
        else if r.a.x.injAt + 64 < s.sch.slots then (s.dropRepair r.rid).lostXfer r.a
        else (s.deliver r.a true p.payload).dropRepair r.rid

def execRepairData (pid : Nat) (s : State) : Host.Outcome State Fault Refusal := .next (s.moved fun s => s.doRepairData pid)

/-- REPAIR_LATE (R226): the transfer is lost. -/
def State.doRepairLate (s : State) (pid : Nat) : State :=
  s.onRepair opRepairLate pid
    (fun p s => match s.repair? p with
      | some r => s.endRepair r
      | none => s)
    fun p _ s => match s.repair? p with
      | none => s
      | some r => (s.dropRepair r.rid).lostXfer r.a

def execRepairLate (pid : Nat) (s : State) : Host.Outcome State Fault Refusal := .next (s.moved fun s => s.doRepairLate pid)

/-- RESEND for a packet of a repair (R250): it is sent again once, the source bytes read afresh. -/
def State.repairAgain (s : State) (rid : Nat) (p : Pkt) : State :=
  match s.sch.repairs.find? fun r => r.rid == rid with
  | none => s
  | some r =>
    if r.resent.contains p.seq then s
    else
      let reps := s.sch.repairs.map fun (q : Repair) => if q.rid = rid then { q with resent := p.seq :: q.resent } else q
      let s := { s with sch := { s.sch with repairs := reps } }
      if p.seq = 0 then (match s.arrCore r.a with
        | some c => s.sendRepairReq rid r.a.x c
        | none => s)
      else match s.injCore r.a.x.src, s.arrCore r.a with
        | some c, some d => s.answerRepair { p with src := s.coreSid d true, route := xyRoute r.a.tile (c / 256),
                                                    hop := tileDist r.a.tile (c / 256) } (leNat (r.a.x.header.take 30)) c
        | _, _ => s

/-- REPAIR_TIMEOUT (R226): the repaired bytes have not arrived 64 slots after the injection slot. -/
def State.doRepairTimeout (s : State) (rid : Nat) : State :=
  match s.sch.repairs.find? fun r => r.rid == rid with
  | none => s
  | some r => if r.a.x.injAt + 64 ≤ s.sch.slots then (s.dropRepair rid).lostXfer r.a else s

def execRepairTimeout (rid : Nat) (s : State) : Host.Outcome State Fault Refusal := .next (s.doRepairTimeout rid)

/-! ### Stretch, deficits and held slots (R233 to R237) -/

/-- A tile asserts slot hold (R236): the request joins a pending held slot, or names the current slot + 8. -/
def State.askHold (s : State) (t : Nat) : State :=
  let s := s.bumpW Reg.SCH_HOLDS_ASSERTED t
  match s.sch.holdAt with
  | some _ => s
  | none => { s with sch := { s.sch with holdAt := some (s.sch.slots + 8) } }

/-- A stretch event of n periods is applied, or waits when the slot has had three (R234). -/
def State.stretch (s : State) (t n : Nat) : State :=
  let k := mget 0 s.sch.events t
  if 3 ≤ k then
    { s with sch := { s.sch with evWait := mset [] s.sch.evWait t (mget [] s.sch.evWait t ++ [n]) } }
  else
    let a := s.rd Reg.SCH_STRETCH_S_SLOT t
    let s := ({ s with sch := { s.sch with events := mset 0 s.sch.events t (k + 1) } }).wr Reg.SCH_STRETCH_S_SLOT t (a + n)
    let s := s.bumpW Reg.CK_EVENTS_STRETCHES t
    if a ≤ 8 ∧ 8 < a + n then s.askHold t else s

/-- The end of a slot on a tile (R235): the deficit it carries. -/
def State.endSlotOn (s : State) (t : Nat) : State :=
  let n := s.rd Reg.SCH_STRETCH_DEFICIT t + s.rd Reg.SCH_STRETCH_S_SLOT t
  let d := n - 4 * min 2 (n / 4)
  let s := (s.wr Reg.SCH_STRETCH_DEFICIT t d).wr Reg.SCH_STRETCH_S_SLOT t 0
  let s := { s with cong := { s.cong with deficit := mset 0 s.cong.deficit t (max d (mget 0 s.cong.deficit t)) } }
  if s.rd Reg.SCH_STRETCH_MAX_DEFICIT t < d then s.wr Reg.SCH_STRETCH_MAX_DEFICIT t d else s

/-- The events that have waited are requested in the new slot. -/
def State.startSlot (s : State) : State :=
  let w := s.sch.evWait
  let s := { s with sch := { s.sch with events := [], evWait := [] } }
  s.each w fun s e => s.each e.2 fun s n => s.stretch e.1 n

/-- What was received in a scheduled slot is forwarded in the next one (R209, R213). -/
def State.shiftStage (s : State) : State :=
  if isWhey s.slotIx then s else { s with sch := { s.sch with stage := s.sch.stageIn, stageIn := [] } }

/-- A counted slot begins: what has waited for it, the injectors whose boundary this is (R228), and the reads that start (R218). -/
def State.beginSlot (s : State) : State :=
  let s := ({ s with sch := { s.sch with slots := s.sch.slots + 1 } }).startSlot
  (s.dueInjectors (s.slotIx == 0)).startReads

/-- SLOT_BOUNDARY (R208, R233, R235, R236): a counted slot ends; where a hold is pending for the next counted slot, the
held slot begins and the count stands. -/
def State.doSlotBoundary (s : State) : State :=
  if !s.clk.started || s.sch.inHeld then s
  else
    let s := (s.each (List.range 36) State.endSlotOn).shiftStage
    if s.sch.holdAt = some (s.sch.slots + 1) then
      ({ s with sch := { s.sch with inHeld := true, holdAt := none } }).startSlot
    else s.beginSlot

/-- A held slot ends (R236, R237, R387): every deficit is 0, TAKEN rises on every tile, and the next counted slot
begins. -/
def State.endHeld (s : State) : State :=
  let s := s.each (List.range 36) fun s t =>
    ((s.wr Reg.SCH_STRETCH_DEFICIT t 0).wr Reg.SCH_STRETCH_S_SLOT t 0).bumpW Reg.SCH_HOLDS_TAKEN t
  State.beginSlot { s with sch := { s.sch with inHeld := false } }

end Sys2Proof.Machine
end

