-- ==== Sys2Proof/Machine/Lanes.lean ====
section
/-! DEFINITION. Lanes and lane groups of die-to-base and tile-edge links (11.1, 11.3, 11.4): their keys, the lane-group maps (R229,
R320), spares, and what a trained link shows. -/

namespace Sys2Proof.Machine

/-- Key of a die, and its link's instance. -/
def dieKey (t p : Nat) : Nat := t * 8 + p
def dieLink (t p : Nat) : Nat := linkInst t (4 + p)

/-- Key of a direction of a die-to-base or tile-edge link, seen from tile t: an edge's sending direction is the
neighbour's receiving one. -/
def dirKey (t l : Nat) (rx : Bool) : Nat :=
  if rx then linkInst t l * 2
  else if l < 4 then (match neighbour t l with
    | some n => linkInst n (oppPort l) * 2
    | none => linkInst t l * 2 + 1)
  else linkInst t l * 2 + 1

/-- Data and spare lanes of a group (Table 11.1). -/
def dataLanes (l : Nat) : Nat := if l < 4 then 1024 else 512
def spareLanes (l : Nat) : Nat := if l < 4 then 32 else 16

/-- Link of a direction key. -/
def dirLink (d : Nat) : Nat := d / 2 % 16

def State.setLnk (s : State) (l : Links) : State := { s with lnk := l }

/-- SCH_LINK output port of a link: an edge's, or its die's logical site's. -/
def State.schPort (s : State) (t l : Nat) : Option Nat :=
  if l < 4 then some l else (let x := s.lsite t (l - 4); if x = 7 then none else some (8 + x))

/-- Retired groups of a direction of a tile's link. -/
def State.retiredMask (s : State) (t l : Nat) (rx : Bool) : Nat :=
  s.rd (if rx then Reg.LK_STATUS_GRP_RETIRED_RX else Reg.LK_STATUS_GRP_RETIRED_TX) (linkInst t l)

/-- Lanes of a direction that a list of lane keys names, as group × 2048 + lane. -/
def dirLanes (l : List Nat) (d : Nat) : List Nat := (l.filter fun k => k / 16384 == d).map (· % 16384)

/-- Groups of a direction that a bad-lane map leaves unusable, and its width (R317 step 2). -/
def badGroups (l : Nat) (bad : List Nat) : List Nat :=
  (List.range 8).filter fun g => decide (spareLanes l < (bad.filter fun x => x / 2048 == g).length)

def maskOf (l : List Nat) : Nat := (l.map (2 ^ ·)).sum

/-- Do two bad-lane maps name the same lanes? -/
def sameLanes (a b : List Nat) : Bool := a.all b.contains && b.all a.contains

/-! ### Lane-group maps (R229, R320) -/

/-- The physical group of a logical group in a lane-group map. -/
def lgOf (m g : Nat) : Nat := m / 8 ^ g % 8

/-- The highest physical group that a map does not use and that is not retired. -/
def freeGroup (m retired : Nat) : Option Nat :=
  ([7, 6, 5, 4, 3, 2, 1, 0] : List Nat).find? fun g => !bitOf retired g && !(List.range 6).any fun i => lgOf m i == g

/-- Retires a physical group in a lane-group map: the new map, and whether every logical group still has one. -/
def retireInMap (m retired g : Nat) : Nat × Bool :=
  match (List.range 6).find? fun i => lgOf m i == g with
  | none => (m, true)
  | some i => match freeGroup m (retired ||| 2 ^ g) with
    | some h => (m - g * 8 ^ i + h * 8 ^ i, true)
    | none => (m, false)

/-- Unmapped groups in use (DYN_GROUPS). -/
def dynGroups (m retired : Nat) : Nat :=
  ((List.range 8).filter fun g => !bitOf retired g && !(List.range 6).any fun i => lgOf m i == g).length

/-- The identity map. -/
def idMap : Nat := 0x2C688

/-- The lane-group map of a direction with these retired groups, from the identity map (R320). -/
def lgMapOf (retired : Nat) : Nat := ((List.range 6).filter (bitOf retired)).foldl (fun m g => (retireInMap m retired g).1) idMap

/-- Writes SCH_LINK of an output from its retired groups (R320). -/
def State.showSchLink (s : State) (t port retired : Nat) : State :=
  let m := lgMapOf retired
  (((s.wr Reg.SCH_LINK_LG_MAP t m port).wr Reg.SCH_LINK_RETIRED t retired port).wr Reg.SCH_LINK_DYN_GROUPS t
    (dynGroups m retired) port)

/-- Groups that the history names as retired. -/
def State.histGroups (s : State) (d : Nat) : List Nat := (s.lnk.grpHist.filter fun k => k / 8 == d).map (· % 8)

/-- Writes the LINK records of a trained direction (Table 11.8): of the receiver's side at tile t. -/
def State.showTrained (s : State) (t l : Nat) (rxGone txGone : List Nat) (rxBad : List Nat) : State :=
  let i := linkInst t l
  let s := ((((s.wr Reg.LK_STATUS_STATE i 2).wr Reg.LK_STATUS_WIDTH_RX i (8 - rxGone.length)).wr Reg.LK_STATUS_WIDTH_TX i
    (8 - txGone.length)).wr Reg.LK_STATUS_GRP_RETIRED_RX i (maskOf rxGone)).wr Reg.LK_STATUS_GRP_RETIRED_TX i (maskOf txGone)
  s.each (List.range 8) fun s g =>
    (s.wr Reg.LK_GROUP_RETIRED i (b2n (rxGone.contains g)) g).wr Reg.LK_GROUP_SPARES_USED i
      (if rxGone.contains g then 0 else min 32 ((rxBad.filter fun x => x / 2048 == g && decide (x % 2048 < dataLanes l)).length)) g

/-- Groups of a mask that are set. -/
def setBits (m : Nat) : List Nat := (List.range 8).filter (bitOf m)

/-- SCH_LINK of the output a link serves, from its retired groups; an edge with three of them in a direction is INVALID (R230). -/
def State.showSchOf (s : State) (t l : Nat) : State :=
  match s.schPort t l with
  | some port =>
    let s := s.showSchLink t port (s.retiredMask t l false)
    if l < 4 ∧ (3 ≤ (setBits (s.retiredMask t l false)).length ∨ 3 ≤ (setBits (s.retiredMask t l true)).length) then
      s.wr Reg.SCH_LINK_INVALID t 1 port
    else s
  | none => s

/-- The lane-group map of the direction from a die, which the die keeps (R320). -/
def State.upMapOf (s : State) (t p : Nat) : Nat := mget (idMap + 1) s.lnk.upMap (dieKey t p) - 1
def State.setUpMap (s : State) (t p m : Nat) : State := s.setLnk { s.lnk with upMap := mset (idMap + 1) s.lnk.upMap (dieKey t p) (m + 1) }

/-- The spares that serve the bad data lanes of a direction, in ascending order (R317 step 2). -/
def assignSpares (l d : Nat) (bad : List Nat) : FMap Nat :=
  (List.range 8).foldl (fun m g =>
    let lanes := ((List.range (dataLanes l)).filter fun x => bad.contains (g * 2048 + x))
    let spares := ((List.range (spareLanes l)).map (· + dataLanes l)).filter fun x => !bad.contains (g * 2048 + x)
    (List.zip lanes spares).foldl (fun m e => mset 0 m ((d * 8 + g) * 2048 + e.1) (e.2 + 1)) m) []

/-- The groups of a direction that cannot be used with this bad-lane map: those without enough spares, and those of the history. -/
def State.goneGroups (s : State) (l d : Nat) (bad : List Nat) : List Nat := (badGroups l bad ++ s.histGroups d).dedup

/-- Bad lanes and lane groups enter the lane history (R315, R423): keys direction × 16384 + group × 2048 + lane, and
direction × 8 + group. -/
def State.addHistory (s : State) (lanes groups : List Nat) : State :=
  s.setLnk { s.lnk with bad := (s.lnk.bad ++ lanes).dedup, grpHist := (s.lnk.grpHist ++ groups).dedup }

/-- Does the lane history leave a direction of a link fewer than seven groups (R319)? -/
def State.tooNarrow (s : State) (t l : Nat) : Bool :=
  [dirKey t l true, dirKey t l false].any fun d => decide (1 < (s.goneGroups l d (dirLanes s.lnk.bad d)).length)

/-- A link has trained with these maps of its two directions, without these groups (R317 to R320). -/
def State.trained (s : State) (t l : Nat) (rxBad txBad rxGone txGone : List Nat) : State :=
  let dr := dirKey t l true
  let dt := dirKey t l false
  let keys (d : Nat) (bad : List Nat) : List Nat := bad.map (d * 16384 + ·)
  let s := s.setLnk { s.lnk with
    bad := (s.lnk.bad ++ keys dr rxBad ++ keys dt txBad).dedup
    spares := mmerge (assignSpares l dr rxBad) (mmerge (assignSpares l dt txBad)
      (mkeep (fun k => k / 16384 != dr && k / 16384 != dt) s.lnk.spares))
    tries := mset 0 s.lnk.tries (linkInst t l) 0
    merged := mset ([], []) s.lnk.merged (linkInst t l) ([], [])
    mergedG := mset 0 s.lnk.mergedG (linkInst t l) 0
    ctlBad := mset 0 (mset 0 s.lnk.ctlBad dr 0) dt 0 }
  let s := (s.showTrained t l rxGone txGone rxBad).showSchOf t l
  if 4 ≤ l then s.setUpMap t (l - 4) (lgMapOf (maskOf rxGone))
  else match neighbour t l with
    | some n => (s.showTrained n (oppPort l) txGone rxGone txBad).showSchOf n (oppPort l)
    | none => s

/-- Both records of a link. -/
def linkEnds (t l : Nat) : List Nat :=
  linkInst t l :: (match (if l < 4 then neighbour t l else none) with
    | some n => [linkInst n (oppPort l)]
    | none => [])

end Sys2Proof.Machine
end

