-- ==== Sys2Proof/Machine/Sha.lean ====
section
/-! DEFINITION. SHA-384, the digest of fuse blocks, images and manifests (R436, R441, R446, R488): FIPS 180-4, which the
spec names and does not restate (log 32). Words are numbers below 2^64. -/

namespace Sys2Proof.Machine

/-- The constants of the 80 steps, four to a number, first step highest: fractional parts of the cube roots of the first 80 primes. -/
def shaKeys : List Nat :=
  [0x428a2f98d728ae227137449123ef65cdb5c0fbcfec4d3b2fe9b5dba58189dbbc,
   0x3956c25bf348b53859f111f1b605d019923f82a4af194f9bab1c5ed5da6d8118,
   0xd807aa98a303024212835b0145706fbe243185be4ee4b28c550c7dc3d5ffb4e2,
   0x72be5d74f27b896f80deb1fe3b1696b19bdc06a725c71235c19bf174cf692694,
   0xe49b69c19ef14ad2efbe4786384f25e30fc19dc68b8cd5b5240ca1cc77ac9c65,
   0x2de92c6f592b02754a7484aa6ea6e4835cb0a9dcbd41fbd476f988da831153b5,
   0x983e5152ee66dfaba831c66d2db43210b00327c898fb213fbf597fc7beef0ee4,
   0xc6e00bf33da88fc2d5a79147930aa72506ca6351e003826f142929670a0e6e70,
   0x27b70a8546d22ffc2e1b21385c26c9264d2c6dfc5ac42aed53380d139d95b3df,
   0x650a73548baf63de766a0abb3c77b2a881c2c92e47edaee692722c851482353b,
   0xa2bfe8a14cf10364a81a664bbc423001c24b8b70d0f89791c76c51a30654be30,
   0xd192e819d6ef5218d69906245565a910f40e35855771202a106aa07032bbd1b8,
   0x19a4c116b8d2d0c81e376c085141ab532748774cdf8eeb9934b0bcb5e19b48a8,
   0x391c0cb3c5c95a634ed8aa4ae3418acb5b9cca4f7763e373682e6ff3d6b2b8a3,
   0x748f82ee5defb2fc78a5636f43172f6084c87814a1f0ab728cc702081a6439ec,
   0x90befffa23631e28a4506cebde82bde9bef9a3f7b2c67915c67178f2e372532b,
   0xca273eceea26619cd186b8c721c0c207eada7dd6cde0eb1ef57d4f7fee6ed178,
   0x06f067aa72176fba0a637dc5a2c898a6113f9804bef90dae1b710b35131c471b,
   0x28db77f523047d8432caab7b40c724933c9ebe0a15c9bebc431d67c49c100d4c,
   0x4cc5d4becb3e42b6597f299cfc657e2a5fcb6fab3ad6faec6c44198c4a475817]

/-- The chaining value before the first block: what the steps call a to d, and e to h, newest first. -/
def shaStart : List Nat × List Nat :=
  ([0xcbbb9d5dc1059ed8, 0x629a292a367cd507, 0x9159015a3070dd17, 0x152fecd8f70e5939],
   [0x67332667ffc00b31, 0x8eb44a8768581511, 0xdb0c2e0d64f98fa7, 0x47b5481dbefa4fa4])

/-- The 64-bit words of a number, highest first. -/
def shaSplit (n v : Nat) : List Nat := (List.range n).map fun i => v >>> (64 * (n - 1 - i)) % 2 ^ 64

/-- XOR of a word's rotations to the right. -/
def shaTurn (x : Nat) (by_ : List Nat) : Nat := (by_.map fun n => (x >>> n ||| x <<< (64 - n)) % 2 ^ 64).foldl Nat.xor 0

/-- The word that enters the sixteen-word window of the message, whose oldest word is first. -/
def shaNext (w : List Nat) : Nat :=
  let x := w.getD 1 0
  let y := w.getD 14 0
  (w.headD 0 + w.getD 9 0 + Nat.xor (shaTurn x [1, 8]) (x >>> 7) + Nat.xor (shaTurn y [19, 61]) (y >>> 6)) % 2 ^ 64

/-- The steps of a block. Each puts one new word before the four latest of either register group: the values that b, c, d and f, g, h
pass down are those words. -/
def shaSteps : List Nat → List Nat → List Nat × List Nat → List Nat × List Nat
  | [], _, r => r
  | k :: ks, w, (p, q) =>
    let u := q.headD 0
    let pick := Nat.xor (q.getD 2 0) (Nat.land u (Nat.xor (q.getD 1 0) (q.getD 2 0)))
    let t := k + w.headD 0 + q.getD 3 0 + pick + shaTurn u [14, 18, 41]
    let v := p.headD 0
    let most := Nat.lor (Nat.land v (Nat.lor (p.getD 1 0) (p.getD 2 0))) (Nat.land (p.getD 1 0) (p.getD 2 0))
    shaSteps ks (w.tail ++ [shaNext w]) ((t + most + shaTurn v [28, 34, 39]) % 2 ^ 64 :: p.take 3, (t + p.getD 3 0) % 2 ^ 64 :: q.take 3)

/-- Adds up two chaining values. -/
def shaJoin (r x : List Nat) : List Nat := (r.zip x).map fun e => (e.1 + e.2) % 2 ^ 64

/-- The blocks of a padded message of 1,024-bit numbers. -/
def shaBlocks (l : List Nat) : List Nat × List Nat :=
  l.foldl (fun r m =>
    let x := shaSteps (shaKeys.flatMap (shaSplit 4)) (shaSplit 16 m) r
    (shaJoin r.1 x.1, shaJoin r.2 x.2)) shaStart

/-- The bytes of a message as one number, the first byte highest. -/
def shaNumber (m : List Byte) : Nat := m.foldl (fun n b => 256 * n + b.toNat) 0

/-- A message as numbers of n bytes each. -/
def shaCut (n : Nat) : Nat → List Byte → List Nat
  | 0, _ => []
  | k + 1, m => shaNumber (m.take n) :: shaCut n k (m.drop n)

/-- SHA-384 of a message, 48 bytes: a one bit, zeros and the length in bits fill the last block; the first six words are the digest. -/
def sha384 (m : List Byte) : List Byte :=
  let whole := m.length / 128
  let rest := m.drop (128 * whole)
  let last := (2 * shaNumber rest + 1) <<< (1023 - 8 * rest.length)
  let tail := if rest.length < 112 then [last + 8 * m.length] else [last, 8 * m.length]
  let r := shaBlocks (shaCut 128 whole m ++ tail)
  (r.1 ++ r.2.take 2).flatMap fun w => (leBytes 8 w).reverse.map (BitVec.ofNat 8)

end Sys2Proof.Machine
end

