-- ==== Sys2Proof/Machine/Die.lean ====
section
/-! DEFINITION. Dies: the culture's reload (R440, R446 to R448), compute reset of a core (R172, R456), loss, substitution,
migration and test of a die (14.2 to 14.6), and the power-up of a die beside its neighbours (R354 to R356). -/

namespace Sys2Proof.Machine

/-! ### Register keys and the stored state (R437) -/

/-- Block, instance and offset of a register key. -/
def keyBlk (k : Nat) : Nat := k / 2 ^ 42
def keyInst (k : Nat) : Nat := k / 2 ^ 26 % 2 ^ 16
def keyOff (k : Nat) : Nat := k / 64 % 2 ^ 20

/-- Fields of the site maps, and of the links' maps and widths. -/
def isMapKey (k : Nat) : Bool := keyBlk k == blkNum .tileSite && decide (keyOff k < 0x10)
def isLinkKey (k : Nat) : Bool :=
  (keyBlk k == blkNum .sched && decide (0x40 ≤ keyOff k) && decide (keyOff k < 0xC0)) ||
    (keyBlk k == blkNum .link && decide (keyOff k < 0x8))

/-- The stored state is rewritten (R437): "since the stored state was written" (Table 15.6) starts again. -/
def State.saveStored (s : State) : State :=
  { s with boot := { s.boot with stored := { s.boot.stored with
      maps := mkeep isMapKey s.regs, links := mkeep isLinkKey s.regs, cleanPower := true, cleanHistory := true } } }

/-! ### The culture in the service areas (R439, R440, R448) -/

/-- First bytes of the service areas of T1 and of tile 0's T2. -/
def svcT1 : Nat := t1Key 1535000000000
def svcT2 : Nat := t2Key 0 127000000000

/-- n lines of the culture from line i on: from T1, and from T2 where T1 answers POISON; none where both do. -/
def State.cultureLines : Nat → Nat → State → State × Option (List Byte)
  | 0, _, s => (s, some [])
  | n + 1, i, s =>
    let (s, bad) := s.readTier (svcT1 + 64 * i) 64
    let (s, l) := if !bad then (s, some (s.ldBytes (svcT1 + 64 * i) 64))
      else
        let (s, bad) := s.readTier (svcT2 + 64 * i) 64
        (s, if bad then none else some (s.ldBytes (svcT2 + 64 * i) 64))
    let (s, r) := State.cultureLines n (i + 1) s
    (s, match l, r with
      | some a, some b => some (a ++ b)
      | _, _ => none)

/-- A section of the manifest (Table 15.4): its first chunk, its chunks, DEST_OFF, ENTRY and digest. -/
structure Section where
  first : Nat
  count : Nat
  dest : Nat
  entry : Nat
  digest : List Byte
  deriving DecidableEq, Repr

/-- n bytes of a list as a little-endian number. -/
def ldList (bs : List Byte) (a n : Nat) : Nat := leNat (ofBytes ((bs.drop a).take n))

/-- The valid section of a target (Tables 15.3, 15.4). -/
def manifestSection (m : List Byte) (target : Nat) : Option Section :=
  ((List.range 4).filterMap fun i =>
    let w0 := ldList m (0x40 + 16 * i) 8
    let w1 := ldList m (0x48 + 16 * i) 8
    if bitOf w0 0 && bitsOf w0 2 1 == target then
      some (⟨bitsOf w0 27 16, bitsOf w0 40 28, bitsOf w1 23 0, bitsOf w1 47 24, (m.drop (0x80 + 48 * i)).take 48⟩ : Section)
    else none).head?

/-- TARGET of a core slot. -/
def slotTarget (slot : Nat) : Nat := if slot = 4 then 0 else if slot < 2 then 1 else 2

/-- MANIFEST_DIGEST (CUL_DIGEST). -/
def State.manifestDigest (s : State) : List Byte := toBytes ((List.range 6).flatMap fun w => leBytes 8 (s.rd Reg.CUL_DIGEST_DIGEST 0 w))

/-- Writes a section's bytes to a core: scratch for an S-core, the control store otherwise. -/
def State.placeSection (s : State) (core off : Nat) (bs : List Byte) : State :=
  if slotOf core = 4 then s.writeFull core off bs else s.stBytes (storeKey core off) bs

/-- Reloads a core's parts and checks them as R446 does; answers the S-core's ENTRY, none where they do not verify. -/
def State.loadCulture (s : State) (core : Nat) : State × Option Nat :=
  let (s, m) := State.cultureLines 64 0 s
  match m with
  | none => (s, none)
  | some m =>
    if sha384 m ≠ s.manifestDigest then (s, none)
    else match manifestSection m (slotTarget (slotOf core)) with
      | none => (s, none)
      | some x =>
        let (s, bs) := State.cultureLines (64 * x.count) (64 * x.first) s
        match bs with
        | none => (s, none)
        | some bs => if sha384 bs ≠ x.digest then (s, none) else (s.placeSection core x.dest bs, some x.entry)

/-- A core is confirmed (R446, R447): an S-core starts at ENTRY, at service privilege. -/
def State.confirm (s : State) (core entry : Nat) : State :=
  let s := { s with boot := { s.boot with
    confirmed := s.boot.confirmed.filter (· != core) ++ [core], reload := s.boot.reload.filter (· != core) } }
  if slotOf core = 4 then s.setSc (cluOfCore core) { up := true, pc := w64 entry, priv := true } else s

/-! ### Compute reset of a core (R172, R456, Table 19.2) -/

/-- Registers of a core that a compute reset returns to their reset values. -/
def State.resetCoreRegs (s : State) (core : Nat) : State :=
  let ck := cluOfCore core
  let slot := slotOf core
  if slot < 4 then
    let qk := ck * 4 + slot
    s.each [Reg.CQ_LAST_TAG, Reg.CQ_LAST_ARITH_STATUS, Reg.CQ_LAST_CAUSE, Reg.CQ_STICKY_ARITH_OR, Reg.CQ_STICKY_IDX_OOB] fun s f =>
      s.wr f qk 0
  else
    s.each [Reg.DI_STATUS_OUTSTANDING, Reg.DI_STATUS_STOPPED, Reg.DI_LAST_OPID, Reg.DI_LAST_CAUSE, Reg.DI_LAST_SEQ] fun s f =>
      s.wr f ck 0

/-- Zero-fill of a core (R172): its memory-side operations are discarded, its scratch is zero, its handles are free; its
culture must be reloaded (R448). -/
def State.zeroFill (s : State) (core : Nat) : State :=
  let s := (((s.setMse core []).wr Reg.MSE_STATUS_STOPPED_ECC core 0).zeroScr core).freePails core
  { s with boot := { s.boot with confirmed := s.boot.confirmed.filter (· != core)
                                 reload := s.boot.reload.filter (· != core) ++ [core] } }

/-- The reset of one core up to its reload: Abandon, zero-fill, its registers; rings of a reset S-core are unbound. -/
def State.resetCore (s : State) (core : Nat) : State :=
  let rings := if slotOf core = 4 then s.ringsOf (cluOfCore core) else []
  let s := (s.abandon core).each rings fun s e => s.wr Reg.MV_BIND_ENABLE e.1 0 e.2
  ((s.zeroFill core).resetCoreRegs core).zeroCtrs (cluOfCore core)

/-! ### Vats and cores of a site -/

/-- The cores of a die. -/
def coresOfDie (t p : Nat) : List Nat := (List.range 4).flatMap fun c => coresOfClu (t * 32 + p * 4 + c)

/-- The smallest vats that hold the clusters of a logical site (R396). -/
def State.holders (s : State) (t l : Nat) : List Nat :=
  ((List.range 4).filterMap fun c => (s.smallestAt (t * 32 + l * 4 + c)).map Vat.id).dedup

/-- Ends a SITE_CMD (Table 1.5); BUSY is a view of `siteBusy`. -/
def State.endSite (s : State) (t result : Nat) : State :=
  (s.wr Reg.SITE_STATUS_DONE t 1).wr Reg.SITE_STATUS_RESULT t result

/-! ### Site maps (R19 to R23) -/

/-- A site-map change: the entry and MAP_GEN (R21); the logical site's downlink takes the lane-group map of its new die's
link (R320); the uplink's map is the die's own (`upMapOf`). -/
def State.remap (s : State) (t l p : Nat) : State :=
  let s := (s.mapSite t l p).bumpW Reg.SITE_MAP_MAP_GEN t
  if p = 7 then s else s.showSchLink t (8 + l) (s.rd Reg.LK_STATUS_GRP_RETIRED_TX (linkInst t (4 + p)))

/-- One record for each of a list of vats, one with vat 0 where there is none. -/
def State.recEach (s : State) (vats : List Nat) (r : FRec) : State :=
  s.each (if vats = [] then [0] else vats) fun s v => s.faultRec { r with vat := v }

/-- Does a site-map change run in a tile (R22)? Shown as SITE_STATUS.BUSY (R23). -/
def State.siteBusy (s : State) (t : Nat) : Bool :=
  s.flt.migrs.any (fun m => m.tile == t) || s.flt.substs.any fun x => x.tile == t

/-- Drops the power-up of a die. -/
def State.dropUp (s : State) (t p : Nat) : State :=
  { s with pwr := { s.pwr with ups := s.pwr.ups.filter fun u => !(u.tile == t && u.site == p) } }

/-- A test of a tile ends or is given up: BUSY of FT_TEST shows what is left. -/
def State.dropTest (s : State) (t p : Nat) : State :=
  let l := s.flt.tests.filter fun x => !(x.tile == t && x.site == p)
  ({ s with flt := { s.flt with tests := l } }).wr Reg.FT_TEST_BUSY t (b2n (l.any fun x => x.tile == t))

def State.addTest (s : State) (x : Test) : State :=
  ({ s with flt := { s.flt with tests := s.flt.tests ++ [x] } }).wr Reg.FT_TEST_BUSY x.tile 1

/-- Its link closes, or comes up at full width. -/
def State.closeDieLink (s : State) (t p : Nat) : State := s.wr Reg.LK_STATUS_STATE (dieLink t p) 0

/-! ### Migrations (R413, R414, R416) -/

/-- Drops a migration; one that SITE_CMD asked for ends with a result. -/
def State.endMigr (s : State) (m : Migr) (result : Nat) : State :=
  let s := { s with flt := { s.flt with migrs := s.flt.migrs.filter fun x => x.tile != m.tile } }
  if m.byCmd then s.endSite m.tile result else s

/-- Clusters of a logical site that belong to no vat: those of vat 0. -/
def State.svcClus (s : State) (t l : Nat) : List Nat :=
  ((List.range 4).filter fun c => (s.smallestAt (t * 32 + l * 4 + c)).isNone).filterMap fun c => s.physOf (t * 32 + l * 4 + c)

/-- Vat 0's cores of a site pause with a vat's (R413 step 2), and go on. -/
def State.pauseSvc (s : State) (cks : List Nat) : State :=
  (s.each (cks.flatMap coresOfClu) fun s c => s.reqSpill c .servicePause).setInjectors cks 1 true
def State.resumeSvc (s : State) (cks : List Nat) : State :=
  (s.setInjectors cks 0 true).each cks fun s ck =>
    let s := s.setSc ck { s.sc ck with spillReq := false }
    s.each (List.range 4) fun s q => s.setCore (coreOf ck q) { s.core (coreOf ck q) with spillReq := none, spilled := false }

/-- The vats of a migration run again where they are still paused. -/
def State.resumeMigr (s : State) (m : Migr) : State :=
  let s := s.each m.vats fun s v => match s.vat? v with
    | some x => if x.run = .paused then s.runVat v else s
    | none => s
  s.resumeSvc (s.svcClus m.tile m.lsite)

/-- A dry die that was being powered up for a migration powers down again. -/
def State.dryAgain (s : State) (t p : Nat) : State :=
  if p = 7 then s else ((s.setSiteSt t p 2).closeDieLink t p).dropUp t p

/-- A migration ends without a swap: FAILED or BUSY, the map unchanged, the vats resumed. -/
def State.failMigr (s : State) (m : Migr) (result : Nat) : State :=
  let s := if m.fresh = 7 then (s.setSiteSt m.tile m.old 1).dropTest m.tile m.old else s
  ((s.dryAgain m.tile m.fresh).endMigr m result).resumeMigr m

/-- SITE_CMD MIGRATE, the tile controller's own request (R404), and the rotation (R417): checks and step 1; a change that runs
refuses every other (R22). Answers RESULT where it ends at once. -/
def State.startMigr (s : State) (t l : Nat) (preempt byCmd strike : Bool) : State × Option Nat :=
  let p := s.psite t l
  let dry := s.rd Reg.SITE_MAP_DRY t
  if s.siteBusy t then (s, some 1)
  else if 6 ≤ l ∨ p = 7 then (s, some 2)
  else if dry ≠ 7 ∧ s.siteSt t dry = 2 then
    ({ s with flt := { s.flt with migrs := s.flt.migrs ++ [(⟨t, l, p, dry, [], 0, s.now, byCmd, strike⟩ : Migr)] } }, none)
  else if !preempt then (s, some 1)
  else
    let vs := s.holders t l
    let s := { s with flt := { s.flt with migrs := s.flt.migrs ++ [(⟨t, l, p, 7, vs, 1, s.now, byCmd, strike⟩ : Migr)] } }
    ((s.each vs fun s v => s.pauseVat v .servicePause true).pauseSvc (s.svcClus t l), none)

def State.doMigrate (s : State) (t l : Nat) (preempt : Bool) : State :=
  match s.startMigr t l preempt true false with
  | (s, some r) => s.endSite t r
  | (s, none) => s

def execMigrate (t : Tile) (lsite : BitVec 3) (s : State) : Host.Outcome State Fault Refusal :=
  .next (s.doMigrate t.val lsite.toNat false)

def execMigratePreempt (t : Tile) (lsite : BitVec 3) (s : State) : Host.Outcome State Fault Refusal :=
  .next (s.doMigrate t.val lsite.toNat true)

/-- The dry die of a migration is powered and trained: the vats pause (R413 step 2). -/
def State.migrTrained (s : State) (t p : Nat) : State :=
  match s.flt.migrs.find? fun m => m.tile == t && m.fresh == p && m.ph == 0 with
  | none => s
  | some m =>
    let vs := s.holders t m.lsite
    let s := { s with flt := { s.flt with migrs := s.flt.migrs.map fun (x : Migr) =>
      if x.tile = t then { x with vats := vs, ph := 1, since := s.now } else x } }
    (s.each vs fun s v => s.pauseVat v .servicePause true).pauseSvc (s.svcClus t m.lsite)

/-- Does a packet name a core of a logical site? -/
def State.pktToSite (s : State) (p : Pkt) (t l : Nat) : Bool :=
  let w := p.daddr.toNat
  let id := if w < 2 ^ 63 then some (pailAddr w).id else match decodePa (w % 2 ^ 56) with
    | some (.scr id _) => some id
    | _ => none
  p.dmod == s.ownMod && (match id with
    | some id => cidTile id == t && (if p.cls = 3 then s.psite t l == cidSite id else cidSite id == l)
    | none => false)

/-- Has a core carried out its Spill, or nothing to spill? -/
def State.quiet (s : State) (core : Nat) : Bool :=
  s.fenced core ||
    (if slotOf core = 4 then
       let c := s.sc (cluOfCore core)
       !c.up || c.stopped || (c.spilled && c.accs == [])
     else (s.core core).spilled || s.que (cluOfCore core * 4 + slotOf core) == [])

/-- The drain of R413 step 3 is over: the vats' cores have stopped, every packet the vats started is answered, and none
for a core of the site is in flight. -/
def State.drained (s : State) (m : Migr) : Bool :=
  let ids := m.vats.flatMap s.subtree
  let cks := (ids.flatMap s.vatClus).dedup
  cks.all (fun ck => (coresOfClu ck).all s.quiet && s.fops ck == []) &&
    (s.svcClus m.tile m.lsite).all (fun ck => (coresOfClu ck).all s.quiet && s.fops ck == []) &&
    s.fab.net.all fun p => !ids.contains p.vat && !s.pktToSite p m.tile m.lsite

/-- Moves the fields of a register block whose offset satisfies `p` from n instances at `src` to `dst`. -/
def State.moveRegs (s : State) (b : Blk) (p : Nat → Bool) (src dst n : Nat) : State :=
  let own (base k : Nat) : Bool := keyBlk k == blkNum b && p (keyOff k) && decide (base ≤ keyInst k) && decide (keyInst k < base + n)
  let moved := (s.regs.filter fun e => own src e.1).map fun e => (e.1 - src * 2 ^ 26 + dst * 2 ^ 26, e.2)
  { s with regs := mmerge moved (mkeep (fun k => !own src k && !own dst k) s.regs) }

/-- Copies a die's state to another die (R413 step 4): scratch with its check bits, control stores (log 33), contexts,
queues, engines, injectors, and the registers that belong to them. -/
def State.copyDie (s : State) (t old new : Nat) : State :=
  let c0 := t * 256 + old * 32
  let c1 := t * 256 + new * 32
  let k0 := t * 32 + old * 4
  let k1 := t * 32 + new * 4
  let ren (ck : Nat) : Nat := if k0 ≤ ck ∧ ck < k0 + 4 then ck - k0 + k1 else ck
  let renC (c : Nat) : Nat := if c0 ≤ c ∧ c < c0 + 32 then c - c0 + c1 else c
  let renW (w : Nat) : Nat := renC (w / 2 ^ 21) * 2 ^ 21 + w % 2 ^ 21
  let renP (a : Nat) : Nat := renC (a / 2 ^ 24) * 2 ^ 24 + a % 2 ^ 24
  let renX (x : Xfer) : Xfer := { x with from_ := renP x.from_ }
  let renPkt (p : Pkt) : Pkt := { p with from_ := ren p.from_ }
  let s := { s with
    mem := mmove (storeKey c0 0) (storeKey c1 0) (32 * 2 ^ 24) (mmove (scrKey c0 0) (scrKey c1 0) (32 * 2 ^ 24) s.mem)
    cmp := { s.cmp with
      sc := mmove k0 k1 4 s.cmp.sc
      queues := mmove (k0 * 4) (k1 * 4) 16 s.cmp.queues
      cores := mmove c0 c1 32 s.cmp.cores
      mse := mmove c0 c1 32 s.cmp.mse
      fops := mmove k0 k1 4 s.cmp.fops
      ecc := mmove (c0 * 2 ^ 21) (c1 * 2 ^ 21) (32 * 2 ^ 21) s.cmp.ecc
      wback := s.cmp.wback.map renW }
    fab := { s.fab with
      net := s.fab.net.map renPkt
      reorder := s.fab.reorder.map fun (e : Early) => { e with p := renPkt e.p, core := renC e.core }
      parked := s.fab.parked.map fun (q : Parked) => { q with by_ := q.by_.map ren, p := renPkt q.p }
      turn := mmove k0 k1 4 s.fab.turn
      expect := mmove (k0 * 2 ^ 36) (k1 * 2 ^ 36) (4 * 2 ^ 36) s.fab.expect }
    sch := { s.sch with
      stage := s.sch.stage.map fun (e : Nat × Option Xfer) => (e.1, e.2.map renX)
      stageIn := s.sch.stageIn.map fun (e : Nat × Option Xfer) => (e.1, e.2.map renX)
      arrivals := s.sch.arrivals.map fun (a : Arrival) => { a with x := renX a.x }
      repairs := s.sch.repairs.map fun (r : Repair) => { r with a := { r.a with x := renX r.a.x } }
      injDue := s.sch.injDue.map fun (e : InjDue) => { e with ck := ren e.ck }
      reads := s.sch.reads.map fun (r : SRead) => { r with core := renC r.core, pos := renP r.pos } }
    boot := { s.boot with confirmed := s.boot.confirmed.map renC, reload := s.boot.reload.map renC } }
  let s := (s.moveRegs .scratch (fun o => decide (o < 0x400)) c0 c1 32).moveRegs .schedInj (fun _ => true) c0 c1 32
  let s := (s.moveRegs .cmdCounter (fun _ => true) k0 k1 4).moveRegs .dynInj (fun o => o == 0 || o == 0x10) k0 k1 4
  s.moveRegs .cmdQueue (fun o => o == 0x8 || o == 0x18) (k0 * 4) (k1 * 4) 16

/-- Copy, swap, resume and test (R413 steps 4 to 7). -/
def State.swapDie (s : State) (m : Migr) : State :=
  let s := s.copyDie m.tile m.old m.fresh
  let s := (s.remap m.tile m.lsite m.fresh).wr Reg.SITE_MAP_DRY m.tile m.old
  let s := ((s.setSiteSt m.tile m.fresh 1).setSiteSt m.tile m.old 3).bump Reg.FT_CNT_MIGRATIONS m.tile
  let s := s.faultRec { type := evMigrated, tile := m.tile, psite := m.old, lsite := m.lsite, d0 := m.fresh }
  (((s.endMigr m 0).resumeMigr m).addTest ⟨m.tile, m.old, if m.strike then 1 else 0, s.now⟩).saveStored

/-- What a slot boundary does for a migration: a held vat ends it (R416); after the drain the swap, or the test in
place (R414). -/
def State.stepMigr (s : State) (m : Migr) : State :=
  if m.ph ≠ 1 then s
  else if m.vats.any (fun v => ((s.vat? v).map Vat.run) == some .held) then s.failMigr m 3
  else if !s.drained m then s
  else if m.fresh = 7 then
    let s := { s with flt := { s.flt with migrs := s.flt.migrs.map fun (x : Migr) => if x.tile = m.tile then { x with ph := 2 } else x } }
    (s.setSiteSt m.tile m.old 3).addTest ⟨m.tile, m.old, 2, s.now⟩
  else s.swapDie m

/-- MIGRATE_DRAIN_TIMEOUT (R413 step 3). -/
def State.doMigrateDrain (s : State) (t : Nat) : State :=
  match s.flt.migrs.find? fun m => m.tile == t && m.ph == 1 with
  | none => s
  | some m => if s.drained m ∨ s.now < m.since + us 50 then s else s.failMigr m 1

def execMigrateDrainTimeout (t : Tile) (s : State) : Host.Outcome State Fault Refusal := .next (s.doMigrateDrain t.val)

/-- DRY_SITE_ROTATION (R417): logical sites 0 to 5 in turn, once a day, never beside a tile that migrates. -/
def State.doRotation (s : State) (t : Nat) : State :=
  let seen := mget 0 s.svc.rotateSeen t
  let dry := s.rd Reg.SITE_MAP_DRY t
  let near := (List.range 4).filterMap (neighbour t)
  if dry = 7 ∨ s.siteSt t dry ≠ 2 ∨ (seen ≠ 0 ∧ s.now < seen - 1 + us (86400 * 10 ^ 6)) ∨
      (s.flt.migrs.any fun m => near.contains m.tile) then s
  else
    let l := mget 0 s.svc.rotated t
    let s := { s with svc := { s.svc with rotated := mset 0 s.svc.rotated t ((l + 1) % 6)
                                          rotateSeen := mset 0 s.svc.rotateSeen t (s.now + 1) } }
    s.doMigrate t l false

def execDrySiteRotation (t : Tile) (s : State) : Host.Outcome State Fault Refusal := .next (s.doRotation t.val)

/-! ### Die loss and substitution (R405 to R412) -/

/-- The neighbour check of R355 step 2. -/
def State.rampCheck (s : State) (t : Nat) : Bool :=
  (t :: (List.range 4).filterMap (neighbour t)).all fun u =>
    s.rd Reg.CK_STATUS_MARGIN_WARN u == 0 && decide (s.rd Reg.PW_POWER_P1MS u ≤ 510)

/-- A ramp begins: PW_UP (Table 12.8). -/
def State.ramp (s : State) (t waited : Nat) (slow : Bool) : State :=
  ((s.wr Reg.PW_UP_WAITED t waited).wr Reg.PW_UP_SLOW_RAMP t (b2n slow)).bump Reg.PW_UP_UPS t

/-- The state of a substituted die (R407, R524): engines empty, per-core blocks at their cold-reset values, scratch zero. -/
def State.freshDie (s : State) (t p : Nat) : State :=
  let c0 := t * 256 + p * 32
  let k0 := t * 32 + p * 4
  let inR (lo n k : Nat) : Bool := decide (lo ≤ k) && decide (k < lo + n)
  let coreKeyed (k : Nat) : Bool :=
    [blkNum .matrixChk, blkNum .scratch, blkNum .schedInj].contains (keyBlk k) && inR c0 32 (keyInst k)
  let cluKeyed (k : Nat) : Bool := [blkNum .cmdCounter, blkNum .dynInj].contains (keyBlk k) && inR k0 4 (keyInst k)
  let queKeyed (k : Nat) : Bool := keyBlk k == blkNum .cmdQueue && inR (k0 * 4) 16 (keyInst k)
  let s := { s with
    regs := mkeep (fun k => !coreKeyed k && !cluKeyed k && !queKeyed k) s.regs
    cmp := { s.cmp with sc := mkeep (fun k => !inR k0 4 k) s.cmp.sc
                        queues := mkeep (fun k => !inR (k0 * 4) 16 k) s.cmp.queues
                        cores := mkeep (fun k => !inR c0 32 k) s.cmp.cores
                        fops := mkeep (fun k => !inR k0 4 k) s.cmp.fops } }
  (s.each (coresOfDie t p) State.zeroFill).each (coresOfDie t p) State.clearFence

/-- The culture of every core of a die (R406 step 4): false where one does not verify. -/
def State.loadDie (s : State) (t p : Nat) : State × Bool :=
  (coresOfDie t p).foldl (fun r c =>
    if !r.2 then r
    else match r.1.loadCulture c with
      | (s, some e) => (s.confirm c e, true)
      | (s, none) => (s, false)) (s, true)

/-- Reasons of a loss after which the die is tested (R411, R446). -/
def retested (why : Nat) : Bool := why == 0 || why == 4

def lossCode : LossWhy → Nat
  | .arrayCheck => 0
  | .router => 1
  | .link => 2
  | .training => 3
  | .culture => 4
  | .test => 5

/-- The old die after its substitution: tested under R411, or RETIRED. -/
def State.oldDie (s : State) (t p : Nat) (retest : Bool) : State :=
  if retest then (s.setSiteSt t p 3).addTest ⟨t, p, 1, s.now⟩ else s.setSiteSt t p 6

/-- The dry die that a loss may take (R406, R410): none where there is none, or its last completed test did not pass. A
test on it is abandoned. -/
def State.takeDry (s : State) (t : Nat) : State × Option Nat :=
  let d := s.rd Reg.SITE_MAP_DRY t
  if d = 7 then (s, none)
  else if s.siteSt t d = 3 then
    let s := ((s.dropTest t d).dropUp t d).setSiteSt t d 2
    (s, if (mget 0 s.flt.lastTest (dieKey t d)) % 2 = 0 ∧ mget 0 s.flt.lastTest (dieKey t d) ≠ 0 then some d else none)
  else if s.siteSt t d = 2 ∨ s.siteSt t d = 4 then (s.dropUp t d, some d)
  else (s, none)

/-- A failed substitution waits for its report (R409). -/
def State.substFails (s : State) (x : Subst) : State := { s with flt := { s.flt with substs := s.flt.substs ++ [x] } }

/-- Is a vat, or a vat above it, paused or held (R228, R271)? -/
def State.vatHalted (s : State) (id : Nat) : Bool :=
  (s.chain id).any fun i => match s.vat? i with
    | some v => v.run == .paused || v.run == .held
    | none => false

/-- Clusters of a die whose vat is held or paused have their injectors stopped (R228, R240, R271). -/
def State.stopFrozen (s : State) (t p : Nat) : State :=
  let cks := ((List.range 4).map (t * 32 + p * 4 + ·)).filter fun ck => s.vatHalted (s.vatIdOf ck)
  s.each cks fun s ck => (s.stopInj ck 1).wr Reg.DI_STATUS_STOPPED ck 1

/-- R406 on a dry die; the flags of the vats that it held are cleared, as they resume after a substitution (R281). Its link trains with the lane history, which training adds to by TRAINING_ATTEMPT alone (log 69). -/
def State.substitute (s : State) (x : Subst) (out : SubstOut) : State :=
  let t := x.tile
  let d := x.fresh
  let s := (s.setSiteSt t d 4).ramp t 0 (!s.rampCheck t)
  if out = .rampFails then s.substFails x
  else
    let s := s.bump Reg.LK_STATUS_TRAINS (dieLink t d)
    let rx := dirLanes s.lnk.bad (dirKey t (4 + d) true)
    let tx := dirLanes s.lnk.bad (dirKey t (4 + d) false)
    let rxGone := s.goneGroups (4 + d) (dirKey t (4 + d) true) rx
    let txGone := s.goneGroups (4 + d) (dirKey t (4 + d) false) tx
    if out = .trainingFails ∨ 1 < rxGone.length ∨ 1 < txGone.length then s.substFails x
    else
      let s := ((s.trained t (4 + d) rx tx rxGone txGone).freshDie t d)
      let (s, ok) := s.loadDie t d
      if !ok ∨ out = .cultureFails then s.substFails x
      else
        let s := (((s.remap t x.lsite d).wr Reg.SITE_MAP_DRY t 7).setSiteSt t d 1).stopFrozen t d
        let s := ((s.reloadLists t x.lsite).bump Reg.FT_CNT_SUBSTITUTIONS t).each (coresOfDie t x.old) State.clearFence
        let (w, s) := s.draw
        let s := s.recEach x.vats { type := evSubstituted, tile := t, psite := x.old, lsite := x.lsite, d0 := d, d1 := w.toNat }
        let s := (if x.byCmd then s.endSite t 0 else s).clearFlags ((x.vats.flatMap s.subtree).dedup)
        (s.oldDie t x.old x.retest).saveStored

/-- A compute reset with no core left to reload has ended; the host's RESET command with it. -/
def State.finishReset (s : State) : State :=
  match s.boot.rst with
  | some (_, _, []) =>
    let s := { s with boot := { s.boot with rst := none } }
    let s := ((s.wr Reg.RST_STATUS_BUSY 0 0).wr Reg.RST_STATUS_DONE 0 1).wr Reg.RST_STATUS_RESULT 0 0
    s.each (s.host.cmds.filter fun c => c.started && c.fn == 0 && c.opcode == 5) fun s c => s.endCmd c stOk 0
  | _ => s

/-- A reset ends for cores of a lost die (R457). -/
def State.dropReset (s : State) (cores : List Nat) : State :=
  State.finishReset { s with boot := { s.boot with
    reload := s.boot.reload.filter fun c => !cores.contains c
    rst := s.boot.rst.map fun r => (r.1, r.2.1, r.2.2.filter fun c => !cores.contains c) } }

/-- R405 on a die that a logical site names. -/
def State.loseMapped (s : State) (t p l why : Nat) (byCmd : Bool) (out : SubstOut) : State :=
  let vs := s.holders t l
  let s := match s.flt.migrs.find? fun m => m.tile == t with
    | some m =>
      let s := s.endMigr m 3
      let s := if m.old = p then s.dropTest t p else s
      s.resumeMigr { m with vats := m.vats.filter fun v => !vs.contains v }
    | none => s
  let s := (s.each vs fun s v => s.faultHold v true).each (coresOfDie t p) State.fence
  let s := (s.dropReset (coresOfDie t p)).recEach vs
    { type := evDieFailed, tile := t, psite := p, lsite := l, cause := if why = 0 then 0x08 else 0 }
  let s := (s.closeDieLink t p).setSiteSt t p 6
  match s.takeDry t with
  | (s, none) =>
    let s := (s.remap t l 7).recEach vs { type := evNoSpare, tile := t, psite := p, lsite := l }
    (if byCmd then s.endSite t 3 else s).saveStored
  | (s, some d) => s.substitute ⟨t, l, p, d, vs, byCmd, retested why || byCmd⟩ out

/-- A lost die (R405, R410, R416): a mapped one; the target of a migration; one under test. -/
def State.loseDie (s : State) (t p why : Nat) (out : SubstOut) : State :=
  let l := s.lsite t p
  if !([1, 3, 4].contains (s.siteSt t p)) then s
  else if s.flt.substs.any fun x => x.tile == t then
    { s with flt := { s.flt with lossQueue := s.flt.lossQueue ++ [(dieKey t p, why)] } }
  else if l ≠ 7 then s.loseMapped t p l why false out
  else
    let s := match s.flt.migrs.find? fun m => m.tile == t && m.fresh == p with
      | some m => (s.endMigr m 3).resumeMigr m
      | none => s
    let s := (((s.dropTest t p).dropUp t p).setSiteSt t p 6).closeDieLink t p
    let s := if s.rd Reg.SITE_MAP_DRY t = p then s.wr Reg.SITE_MAP_DRY t 7 else s
    (s.faultRec { type := evDieFailed, tile := t, psite := p }).saveStored

/-- DIE_LOSS (R405). A router fault and a failing test are told by the command; every other loss has been reported. -/
def State.doDieLoss (s : State) (t p : Nat) (why : LossWhy) (out : SubstOut) : State :=
  let e := (dieKey t p, lossCode why)
  if why = .router ∨ why = .test ∨ s.flt.lossQueue.contains e then
    ({ s with flt := { s.flt with lossQueue := s.flt.lossQueue.erase e } }).loseDie t p (lossCode why) out
  else s

def execDieLoss (t : Tile) (ps : PSite) (why : LossWhy) (out : SubstOut) (s : State) : Host.Outcome State Fault Refusal :=
  .next (s.doDieLoss t.val ps.val why out)

/-- SITE_CMD SUBSTITUTE (R412). -/
def State.doSubstitute (s : State) (t l : Nat) (out : SubstOut) : State :=
  let d := s.rd Reg.SITE_MAP_DRY t
  if s.siteBusy t then s.endSite t 1
  else if 6 ≤ l ∨ s.psite t l = 7 then s.endSite t 2
  else if d = 7 ∨ s.siteSt t d ≠ 2 then s.endSite t 1
  else s.loseMapped t (s.psite t l) l 6 true out

def execSubstitute (t : Tile) (lsite : BitVec 3) (out : SubstOut) (s : State) : Host.Outcome State Fault Refusal :=
  .next (s.doSubstitute t.val lsite.toNat out)

/-- SUBSTITUTE_FAILED (R409). -/
def State.doSubstFailed (s : State) (t : Nat) : State :=
  match s.flt.substs.find? fun x => x.tile == t with
  | none => s
  | some x =>
    let s := { s with flt := { s.flt with substs := s.flt.substs.filter fun y => y.tile != t } }
    let s := (((s.setSiteSt t x.fresh 6).closeDieLink t x.fresh).wr Reg.SITE_MAP_DRY t 7).remap t x.lsite 7
    let s := s.dropReset (coresOfDie t x.fresh)
    let s := s.recEach x.vats { type := evSubstFailed, tile := t, psite := x.fresh, lsite := x.lsite }
    let s := if x.byCmd then s.endSite t 3 else s
    (s.oldDie t x.old x.retest).saveStored

def execSubstituteFailed (t : Tile) (s : State) : Host.Outcome State Fault Refusal := .next (s.doSubstFailed t.val)

/-! ### Tests (R411, R414, R415, R419, R424) -/

/-- Thirty days in CK_T cycles. -/
def days30 : Nat := us (30 * 86400 * 10 ^ 6)

/-- A die that passed becomes the dry die of its tile, if the tile has none, and is powered down. -/
def State.toDry (s : State) (t p : Nat) : State :=
  let s := (s.setSiteSt t p 2).closeDieLink t p
  if s.rd Reg.SITE_MAP_DRY t = 7 then s.wr Reg.SITE_MAP_DRY t p else s

/-- A die is condemned. -/
def State.condemn (s : State) (t p : Nat) : State :=
  let s := (s.setSiteSt t p 6).closeDieLink t p
  if s.rd Reg.SITE_MAP_DRY t = p then s.wr Reg.SITE_MAP_DRY t 7 else s

/-- What a test records whatever its reason (Table 14.6, R415, R424). -/
def State.recordTest (s : State) (t p : Nat) (r : BistResult) : State :=
  let s := (s.dropTest t p).dropUp t p
  let s := { s with flt := { s.flt with lastTest := mset 0 s.flt.lastTest (dieKey t p) (s.now * 2 + (if r.pass then 1 else 0) + 1) } }
  let s := ((((s.wr Reg.FT_TEST_DONE t 1).wr Reg.FT_TEST_RESULT t (if r.pass then 0 else 1)).wr Reg.FT_TEST_SITE t p).wr
    Reg.FT_TEST_DURATION t (min r.ms 2047)).bump Reg.FT_CNT_FUSE_PASS t r.fuseBadPassed
  let s := s.faultRec { type := if r.pass then evTestPass else evTestFail, tile := t, psite := p, lsite := s.lsite t p,
                        d0 := if r.pass then 0 else 1 }
  if r.condemnedFuseGood then s.faultRec { type := evFuseDiscrepancy, tile := t, psite := p } else s

/-- A strike (R411): the second within 30 days retires the die. -/
def State.strike (s : State) (t p : Nat) : State :=
  let last := mget 0 s.flt.strikeAt (dieKey t p)
  let s := { s with flt := { s.flt with strikeAt := mset 0 s.flt.strikeAt (dieKey t p) (s.now + 1) } }
  if last ≠ 0 ∧ s.now < last - 1 + days30 then (s.wr Reg.FT_DIE_STRIKES t 2 p).condemn t p
  else (s.wr Reg.FT_DIE_STRIKES t 1 p).toDry t p

/-- The test in place ends (R414). -/
def State.endInPlace (s : State) (t p : Nat) (pass : Bool) : State :=
  match s.flt.migrs.find? fun m => m.tile == t && m.ph == 2 with
  | none => s
  | some m =>
    if pass then ((s.setSiteSt t p 1).endMigr m 0).resumeMigr m
    else
      let s := (s.each (s.holders t m.lsite) fun s v => s.faultHold v true).each (coresOfDie t p) State.fence
      (((s.condemn t p).remap t m.lsite 7).endMigr m 3).saveStored

/-- Keys of a die link's lanes or groups in the lane history, from those that a test gives with its receiving direction 1; `n` is
the number of keys of a direction. -/
def dieLinkKeys (t p n : Nat) (l : List Nat) : List Nat :=
  (l.filter fun k => decide (k < 2 * n)).map fun k => dirKey t (4 + p) (decide (n ≤ k)) * n + k % n

/-- BIST_COMPLETE (R415). A die whose link has too few lane groups left is condemned with the ones that fail (R319, R423). -/
def State.doBist (s : State) (t p : Nat) (r : BistResult) : State :=
  match s.flt.tests.find? fun x => x.tile == t && x.site == p with
  | none => s
  | some x =>
    if s.siteSt t p ≠ 3 then s
    else
      let s := (s.recordTest t p r).addHistory (dieLinkKeys t p 16384 r.badLanes) (dieLinkKeys t p 8 r.badGroups)
      let good := r.pass && !s.tooNarrow t (4 + p)
      if x.why = 2 then s.endInPlace t p good
      else (if !good then s.condemn t p else if x.why = 1 then s.strike t p else s.toDry t p).saveStored

def execBistComplete (t : Tile) (ps : PSite) (r : BistResult) (s : State) : Host.Outcome State Fault Refusal :=
  .next (s.doBist t.val ps.val r)

/-- TEST_DRY (R419). -/
def State.doTestDry (s : State) (t : Nat) : State :=
  let d := s.rd Reg.SITE_MAP_DRY t
  if s.siteBusy t || s.flt.tests.any (fun x => x.tile == t) then s.wr Reg.FT_TEST_BUSY_REFUSED t 1
  else if d = 7 ∨ s.siteSt t d ≠ 2 then (s.wr Reg.FT_TEST_DONE t 1).wr Reg.FT_TEST_RESULT t 2
  else s.addTest ⟨t, d, 3, s.now⟩

def execTestDry (t : Tile) (s : State) : Host.Outcome State Fault Refusal := .next (s.doTestDry t.val)

/-! ### Power-up of a die (R354 to R356) -/

/-- Is a die waiting to be powered: 0 for a migration, 1 for a test? -/
def State.wantsPower (s : State) (t p : Nat) : Option Nat :=
  if s.pwr.ups.any fun u => u.tile == t && u.site == p then none
  else if s.flt.migrs.any fun (m : Migr) => m.tile == t && m.fresh == p && m.ph == 0 then some 0
  else if s.flt.tests.any fun (x : Test) => x.tile == t && x.site == p && (x.why == 3 || x.why == 1) then some 1
  else none

/-- POWER_UP_RESERVATION (R354): a power-up asks for 90 W. -/
def State.doReserve (s : State) (t p : Nat) : State :=
  match s.wantsPower t p with
  | none => s
  | some why => { s with pwr := { s.pwr with ups := s.pwr.ups ++ [(⟨t, p, s.now, none, none, why⟩ : PowerUp)] } }

def execPowerUpReservation (t : Tile) (ps : PSite) (s : State) : Host.Outcome State Fault Refusal := .next (s.doReserve t.val ps.val)

/-- A power-up is in progress from its grant until 100 µs into its ramp (R356). -/
def PowerUp.busy (u : PowerUp) (now : Nat) : Bool :=
  u.checkAt.isSome && (match u.rampAt with
    | some r => decide (now < r + us 100)
    | none => true)

/-- The conditions of a grant (R354). -/
def State.grantOk (s : State) (t : Nat) : Bool :=
  let near := t :: (List.range 4).filterMap (neighbour t)
  decide (s.rd Reg.PW_POWER_P1MS t + 90 * (s.pwr.ups.filter fun u => u.tile == t && u.busy s.now).length + 90 ≤ 600) &&
    !s.pwr.ups.any fun u => near.contains u.tile && u.busy s.now

def State.setUp (s : State) (u : PowerUp) : State :=
  { s with pwr := { s.pwr with ups := s.pwr.ups.map fun (v : PowerUp) => if v.tile = u.tile ∧ v.site = u.site then u else v } }

/-- RESERVATION_GRANT (R354, R355): the oldest waiting request; its check passes, or polling begins. It waits for a setting
change of its tile to finish (R390). -/
def State.doGrant (s : State) (t : Nat) : State :=
  match s.pwr.ups.find? fun u => u.checkAt.isNone with
  | none => s
  | some u =>
    if u.tile ≠ t ∨ !s.grantOk t ∨ s.rd Reg.CK_STATUS_CHANGING t = 1 then s
    else
      let s := s.setSiteSt t u.site (if u.why = 0 then 4 else 3)
      if s.rampCheck t then (s.setUp { u with checkAt := some s.now, rampAt := some s.now }).ramp t 0 false
      else s.setUp { u with checkAt := some s.now }

def execReservationGrant (t : Tile) (s : State) : Host.Outcome State Fault Refusal := .next (s.doGrant t.val)

/-- RAMP_CHECK_POLL (R355 step 4). -/
def State.doRampPoll (s : State) (t : Nat) : State :=
  match s.pwr.ups.find? fun u => u.tile == t && u.checkAt.isSome && u.rampAt.isNone with
  | none => s
  | some u =>
    let waited := (s.now - u.checkAt.getD 0) / 900
    if s.rampCheck t then (s.setUp { u with rampAt := some s.now }).ramp t (min waited 5000) false
    else if 5000 ≤ waited then (s.setUp { u with rampAt := some s.now }).ramp t 5000 true
    else s

def execRampCheckPoll (t : Tile) (s : State) : Host.Outcome State Fault Refusal := .next (s.doRampPoll t.val)

/-- RESERVATION_TIMEOUT (R354): 5 ms without a grant end a MIGRATE BUSY and a TEST_DRY with RESULT 3; a test that no
command waits for goes on waiting. -/
def State.doReserveTimeout (s : State) (t : Nat) : State :=
  match s.pwr.ups.find? fun u => u.tile == t && u.checkAt.isNone with
  | none => s
  | some u =>
    if s.now < u.since + us 5000 then s
    else match s.flt.migrs.find? fun m => m.tile == t && m.fresh == u.site with
      | some m => (s.dropUp t u.site).failMigr m 1
      | none =>
        if s.flt.tests.any fun x => x.tile == t && x.site == u.site && x.why == 3 then
          (((s.dropUp t u.site).dropTest t u.site).wr Reg.FT_TEST_DONE t 1).wr Reg.FT_TEST_RESULT t 3
        else s

def execReservationTimeout (t : Tile) (s : State) : Host.Outcome State Fault Refusal := .next (s.doReserveTimeout t.val)

/-- RAMP_FAILURE (R356): the site is RETIRED and the command FAILED. -/
def State.doRampFailure (s : State) (t : Nat) : State :=
  match s.pwr.ups.find? fun u => u.tile == t && u.rampAt.isSome with
  | none => s
  | some u =>
    let asked := s.flt.tests.any fun x => x.tile == t && x.site == u.site && x.why == 3
    let s := ((s.dropUp t u.site).dropTest t u.site).condemn t u.site
    let s := if asked then (s.wr Reg.FT_TEST_DONE t 1).wr Reg.FT_TEST_RESULT t 1 else s
    let s := match s.flt.migrs.find? fun m => m.tile == t && m.fresh == u.site with
      | some m => (s.endMigr m 3).resumeMigr m
      | none => s
    s.saveStored

def execRampFailure (t : Tile) (s : State) : Host.Outcome State Fault Refusal := .next (s.doRampFailure t.val)

end Sys2Proof.Machine
end

