-- ==== Sys2Proof/Machine/Wire.lean ====
section
/-! DEFINITION. Packets as they stand on a link (R243 to R245, Table 9.3), and packets that come from another module by a
reach port. -/

namespace Sys2Proof.Machine

/-- Field i of a header. -/
def hdrFld (h i : Nat) : Nat := let e := hdrLayout.getD i (0, 0); h / 2 ^ e.1 % 2 ^ e.2

/-- The packet that a header, a payload and a trailer spell. -/
def wirePkt (h : Nat) (payload : List Byte) (trailer : Nat) : Pkt :=
  { blankPkt with cls := hdrFld h 0, op := hdrFld h 1, epoch := hdrFld h 2, rmode := hdrFld h 3 == 1, hop := hdrFld h 4,
                  vat := hdrFld h 5, len := hdrFld h 6, route := hdrFld h 7, daddr := w64 (hdrFld h 8), dmod := hdrFld h 9,
                  dtile := hdrFld h 10, src := hdrFld h 11, seq := hdrFld h 12, opid := hdrFld h 13, redop := hdrFld h 14,
                  skim := hdrFld h 15, cause := hdrFld h 16, payload := payload, hdrOk := bitsOf h 255 240 == hcrcOf (h % 2 ^ 240),
                  crcOk := trailer == trailerOf h payload }

/-! ### From another module -/

/-- Stands for the cluster of a source in another module. -/
def foreignFrom (src : Nat) : Nat := 2 ^ 21 + src

/-- Does a packet that has left the module wait for this reply (R250)? A base die's reply names its consumer in DADDR, every other one
carries the SRC of the packet it answers (log 66). -/
def Pkt.awaits (q p : Pkt) : Bool :=
  let consumer := if p.op != opReadResp && sidBase p.src then p.daddr.toNat / 2 ^ 30 % 2 ^ 20 else p.src
  q.at_ == 64 && !isReply q.op && q.src == consumer && q.opid == p.opid && q.seq == p.seq &&
    (if p.op = opLoadResp then q.op == opLoad || q.op == opAmo else if p.op = opReadResp then q.op == opReadReq else
      if p.op = opAck then q.op != opLoad && q.op != opAmo else true)

/-- A packet from another module enters the reach stage of a port, after what its receiver meets there (R334). A reply takes up what
its operation has left here; a request is its source's. -/
def State.enter (s : State) (port : Nat) (p : Pkt) : State :=
  let t := reachHost port
  match s.meet t (40 + port) { p with at_ := t, inPort := 16 + port, sentAt := s.now, pid := s.fab.nextPid } with
  | (s, none) => s
  | (s, some p) =>
    let s := s.unhold t (16 + port) p.cls
    let add (s : State) (p : Pkt) : State :=
      { s with fab := { s.fab with net := s.fab.net ++ [p], nextPid := s.fab.nextPid + 1 } }
    if isReply p.op then
      match s.fab.net.find? fun q => q.awaits p with
      | some q => add (s.dropPkt q.pid) { p with owner := q.owner, from_ := q.from_ }
      | none => add s { p with owner := .fop, from_ := foreignFrom p.src }
    else
      let k := match decodePa (p.daddr.toNat % 2 ^ 56) with
        | some t => streamOf p.dmod t p.dtile (p.cls == 3)
        | none => 2 ^ 20
      let mem := p.op == opLoad || p.op == opStore || p.op == opAmo
      add s { p with owner := if mem then .smem k else .unit, from_ := foreignFrom p.src }

end Sys2Proof.Machine
end

