-- ==== Sys2Proof/Machine/Links.lean ====
section
/-! DEFINITION. The link layer (11): flits, replay and credits, lane errors, sparing and group retirement, training,
express light, reach ports and error injection; and what a retired group does to the scheduled plane (R229 to R232). -/

namespace Sys2Proof.Machine

/-! ### Ends, directions, groups and lanes -/

/-- Key of a link end's receiving or sending side: its own record's instance, or a die's own. -/
def endKey : LinkEnd → Nat
  | .link t l => linkInst t.val l.val
  | .die t p => upKey t.val p.val
  | .express t p => 576 + xpInst t.val p.val
  | .reach p => reachKey p.val

/-- Where an injected error of an end waits (R334): tile and place. -/
def endPort : LinkEnd → Nat × Nat
  | .link t l => (t.val, if l.val < 4 then l.val else dieInp (l.val - 4))
  | .die t p => (t.val, dieInp p.val)
  | .express t p => (t.val, if p.val < 2 then 4 else 5)
  | .reach p => (reachHost p.val, 40 + p.val)

/-- The direction that an end of a die-to-base or tile-edge link receives: tile and link of the record, and whether the tile is its
receiver. -/
def endDir : LinkEnd → Option (Nat × Nat × Bool)
  | .link t l => some (t.val, l.val, true)
  | .die t p => some (t.val, 4 + p.val, false)
  | _ => none

/-! ### Retired groups on the scheduled plane (R229 to R231, R320) -/

/-- Vats that own a triple on an output in their loaded schedules. -/
def State.ownersOf (s : State) (t port : Nat) : List Nat :=
  ((s.sch.images.filter fun i => i.st != .disarmed && i.own.any fun r => r.1 == t && r.2.1 == port).map Image.vat).dedup

/-- An output becomes INVALID for schedules: its owners are held and disarmed (R230, R232). -/
def State.invalidate (s : State) (t port : Nat) : State × List Nat :=
  let vs := s.ownersOf t port
  if s.rd Reg.SCH_LINK_INVALID t port = 1 then (s, [])
  else
    let s := (s.wr Reg.SCH_LINK_INVALID t 1 port).disarm vs
    (s.each vs fun s v => s.faultHold v false, vs)

/-- DETAIL0 of a link's record: link index and group (log 34). -/
def linkDetail (l g : Nat) : Nat := l + g * 16

/-- A tile edge becomes INVALID for schedules in both directions (R230, R232). -/
def State.edgeInvalid (s : State) (t e : Nat) : State × List Nat :=
  ((t, e) :: ((neighbour t e).map fun n => (n, oppPort e)).toList).foldl
    (fun r x => let (s, v) := r.1.invalidate x.1 x.2; (s, (r.2 ++ v).dedup)) (s, [])

/-- The transfers on the logical group of a failed physical group fail their CRC (R229). -/
def State.tearGroup (s : State) (t port m g : Nat) (up : Bool) : State :=
  match (List.range 6).find? fun i => lgOf m i == g with
  | some i => s.tear t port i up
  | none => s

/-- Table 8.10 of the sending side of a tile's output after one of its groups has retired: a new map, or the link INVALID. -/
def State.retireSched (s : State) (t l g : Nat) : State :=
  match s.schPort t l with
  | none => s
  | some port =>
    let m := s.rd Reg.SCH_LINK_LG_MAP t port
    let r := s.rd Reg.SCH_LINK_RETIRED t port
    let x := retireInMap m r g
    let s := ((s.wr Reg.SCH_LINK_LG_MAP t x.1 port).wr Reg.SCH_LINK_RETIRED t (r ||| 2 ^ g) port).wr Reg.SCH_LINK_DYN_GROUPS t
      (dynGroups x.1 (r ||| 2 ^ g)) port
    let s := s.tearGroup t port m g false
    if x.2 || decide (4 ≤ l) then s
    else
      let (s, vs) := s.edgeInvalid t l
      s.recEach vs { type := evLinkInvalid, tile := t, d0 := linkDetail l g }

/-- The same of a die's sending direction, whose map the die keeps (R320). -/
def State.retireUp (s : State) (t p g : Nat) : State :=
  let m := s.upMapOf t p
  let s := s.setUpMap t p (retireInMap m (s.retiredMask t (4 + p) true) g).1
  if s.lsite t p = 7 then s else s.tearGroup t (8 + s.lsite t p) m g true

/-- Enters a retired group in one tile's LINK record. -/
def State.markGroup (s : State) (t l g : Nat) (rx : Bool) : State :=
  let i := linkInst t l
  let m := s.rd (if rx then Reg.LK_STATUS_GRP_RETIRED_RX else Reg.LK_STATUS_GRP_RETIRED_TX) i ||| 2 ^ g
  let n := 8 - ((List.range 8).filter (bitOf m)).length
  if rx then ((s.wr Reg.LK_STATUS_GRP_RETIRED_RX i m).wr Reg.LK_STATUS_WIDTH_RX i n).wr Reg.LK_GROUP_RETIRED i 1 g
  else (s.wr Reg.LK_STATUS_GRP_RETIRED_TX i m).wr Reg.LK_STATUS_WIDTH_TX i n

/-- A link whose two directions are retired reads STATE 3. -/
def State.showRetired (s : State) (t l : Nat) : State :=
  if s.retiredMask t l true = 255 ∧ s.retiredMask t l false = 255 then s.wr Reg.LK_STATUS_STATE (linkInst t l) 3 else s

/-- A group of a direction is retired (R229 to R231, R314): both ends' records, the sender's lane-group map, the transfers on it, the
report, the loss of a die at its second group, and the stored state (R437). `inj`: through an injected error (R315). -/
def State.retireGroup (s : State) (t l g : Nat) (rx inj : Bool) : State :=
  if bitOf (s.retiredMask t l rx) g then s
  else
    let s := s.markGroup t l g rx
    let peer := if l < 4 then neighbour t l else none
    let s := match peer with
      | some n => s.markGroup n (oppPort l) g (!rx)
      | none => s
    let s := if inj then s else s.setLnk { s.lnk with grpHist := s.lnk.grpHist ++ [dirKey t l rx * 8 + g] }
    let k := ((List.range 8).filter (bitOf (s.retiredMask t l rx))).length
    let s := match rx, peer with
      | true, some n => s.retireSched n (oppPort l) g
      | true, none => s.retireUp t (l - 4) g
      | false, _ => s.retireSched t l g
    let s := if l < 4 then (if k ≤ 2 then s.faultRec { type := evLinkDegraded, tile := t, injected := inj, d0 := linkDetail l g } else s)
      else if k = 2 then s.reportLoss t (l - 4) 2 else s
    let s := s.showRetired t l
    (match peer with
     | some n => s.showRetired n (oppPort l)
     | none => s).saveStored

/-- LANE_GROUP_RETIREMENT (R229, R314): a group that is due. -/
def State.doGroupRetirement (s : State) (t l g : Nat) (rx : Bool) : State :=
  let k := dirKey t l rx * 8 + g
  if s.lnk.due.contains k then
    let inj := s.lnk.injBad.any fun x => x / 2048 == k
    (s.setLnk { s.lnk with due := s.lnk.due.filter (· != k) }).retireGroup t l g rx inj
  else s

def execLaneGroupRetirement (t : Tile) (link : Fin 11) (rx : Bool) (group : BitVec 3) (s : State) :
    Host.Outcome State Fault Refusal := .next (s.doGroupRetirement t.val link.val group.toNat rx)

/-- A group becomes due for retirement at the next slot boundary. -/
def State.groupDue (s : State) (k : Nat) : State :=
  if s.lnk.due.contains k then s else s.setLnk { s.lnk with due := s.lnk.due ++ [k] }

/-! ### Express links (R322, R323, R327) -/

/-- The four port records of an express link: of a tile and its partner. -/
def expressEnds (t : Nat) (col : Bool) : List Nat :=
  let b := if col then 2 else 0
  (t :: (neighbour t (if col then 5 else 4)).toList).flatMap fun u => [xpInst u b, xpInst u (b + 1)]

/-- An express link is retired: STATE 3, or 4 where its light is lost. -/
def State.retireExpress (s : State) (t : Nat) (col : Bool) (st : Nat) : State :=
  s.each (expressEnds t col) fun s i => s.wr Reg.XP_STATUS_STATE i st

/-- Live channels of a port. -/
def popcount (n w : Nat) : Nat := ((List.range w).filter (bitOf n)).length

/-- Is a takeover of a kind's pair less than 1 ms old, so that errors do not count (R325)? -/
def State.inTakeover (s : State) (col : Bool) : Bool :=
  let began := mget 0 s.lnk.takeover (b2n col)
  decide (began ≠ 0) && decide (s.now < began - 1 + us 1000)

/-- A channel of a receive port is retired (R323): both ends drop it; below 16 channels the link is retired. -/
def State.retireChan (s : State) (rx ch : Nat) : State :=
  let t := rx / 4
  let col := rx % 4 == 3
  if !bitOf (s.rd Reg.XP_CHAN_LIVE rx) ch then s
  else
    let live := s.rd Reg.XP_CHAN_LIVE rx - 2 ^ ch
    let s := (s.wr Reg.XP_CHAN_LIVE rx live).bump Reg.XP_ERR_CHAN_RETIRED rx
    let s := match neighbour t (if col then 5 else 4) with
      | some n => s.wr Reg.XP_CHAN_LIVE (xpInst n (if col then 2 else 0)) live
      | none => s
    if popcount live 32 < 16 ∧ s.rd Reg.XP_STATUS_STATE rx = 2 then s.retireExpress t col 3 else s

/-- A slot boundary retires the channels that have been found failing (R323). -/
def State.retireChans (s : State) : State :=
  let due := s.lnk.chanDue
  (s.setLnk { s.lnk with chanDue := [] }).each due fun s k => s.retireChan (k / 32) (k % 32)

/-! ### Whey-slot tests (R312 to R314) -/

/-- Counts the errors of a lane in this whey slot; answers whether it is failing (R312): errors in its window at
LANE_THRESH, or errors in three whey slots running. -/
def State.laneErrors (s : State) (key thresh wlog errs : Nat) : State × Bool :=
  let e := mget (0, 0, 0) s.lnk.laneErr key
  let win := s.frameNo / 2 ^ wlog
  let slot := s.frameNo * 6 + (([0, 43, 85, 128, 171, 213] : List Nat).findIdx (· == s.slotIx))
  let n := (if e.1 = win then e.2.1 else 0) + errs
  let run := if errs = 0 then 0 else if e.2.2 / 4 = slot ∧ e.2.2 ≠ 0 then min 3 (e.2.2 % 4 + 1) else 1
  let last := if errs = 0 then 0 else (slot + 1) * 4 + run
  (s.setLnk { s.lnk with laneErr := mset (0, 0, 0) s.lnk.laneErr key (win, n, last) }, decide (thresh ≤ n) || decide (3 ≤ run))

/-- Unused spare lanes of a group, lowest first: neither bad nor serving. -/
def State.freeSpare (s : State) (d g : Nat) : Option Nat :=
  let l := dirLink d
  let used := (s.lnk.spares.filter fun e => e.1 / 2048 == d * 8 + g).map fun e => e.2 - 1
  ((List.range (spareLanes l)).map (· + dataLanes l)).find? fun x =>
    !used.contains x && !(s.lnk.bad ++ s.lnk.injBad).contains ((d * 8 + g) * 2048 + x)

/-- A lane of a direction of a link is failing (R313, R314): it is bad; the data lane it carries moves to the lowest unused spare; with
no spare left the group is due for retirement. LK_GROUP counts the tile's receiving direction (Table 11.8). -/
def State.laneFails (s : State) (t l g lane : Nat) (rx inj : Bool) : State :=
  let i := linkInst t l
  let d := dirKey t l rx
  let key := (d * 8 + g) * 2048 + lane
  let shown (f : State → State) (s : State) : State := if rx then f s else s
  if (s.lnk.bad ++ s.lnk.injBad).contains key then s
  else
    let s := shown (fun s => (s.bump Reg.LK_GROUP_LANE_FAILS i 1 g).wr Reg.LK_GROUP_LAST_LANE i lane g) s
    let s := if inj then s.setLnk { s.lnk with injBad := s.lnk.injBad ++ [key] } else s.setLnk { s.lnk with bad := s.lnk.bad ++ [key] }
    let carried := if lane < dataLanes l then some key
      else ((s.lnk.spares.find? fun e => e.1 / 2048 == d * 8 + g && e.2 == lane + 1).map Prod.fst)
    match carried with
    | none => s
    | some k =>
      match s.freeSpare d g with
      | none => (s.setLnk { s.lnk with spares := mset 0 s.lnk.spares k 0 }).groupDue (d * 8 + g)
      | some x =>
        shown (fun s => s.wr Reg.LK_GROUP_SPARES_USED i ((s.lnk.spares.filter fun e => e.1 / 2048 == d * 8 + g).length) g)
          (s.setLnk { s.lnk with spares := mset 0 s.lnk.spares k (x + 1) })

/-- Lane keys of express channels, by their receiving port, and of reach lanes. -/
def xpLane (rx ch : Nat) : Nat := (2 ^ 12 + rx) * 8 * 2048 + ch
def reachLane (p lane : Nat) : Nat := (2 ^ 13 + p) * 8 * 2048 + lane

/-- Errors that an injection of kind 4 shows on a lane in this whey slot, and whether it does. -/
def State.injLaneErr (s : State) (key : Nat) : State × Bool :=
  let n := mget 0 s.lnk.injLane key
  if n = 0 then (s, false) else (s.setLnk { s.lnk with injLane := mset 0 s.lnk.injLane key (n - 1) }, true)

/-- A lane of a die-to-base or tile-edge direction in a whey slot (R312); the thresholds are the tile's LK_CFG. -/
def State.wheyLane (s : State) (t l g lane errs : Nat) (rx : Bool) : State :=
  let i := linkInst t l
  if s.rd Reg.LK_STATUS_STATE i ≠ 2 ∨ bitOf (s.retiredMask t l rx) g ∨ dataLanes l + spareLanes l ≤ lane then s
  else
    let key := (dirKey t l rx * 8 + g) * 2048 + lane
    let (s, inj) := s.injLaneErr key
    let (s, bad) := s.laneErrors key (s.rd Reg.LK_CFG_LANE_THRESH i) (s.rd Reg.LK_CFG_WINDOW_LOG2 i) (if inj then max 1 errs else errs)
    if bad then s.laneFails t l g lane rx inj else s

/-- A channel of an express port in a whey slot (R323, R325); a failing one is retired at the next slot boundary. -/
def State.wheyChan (s : State) (rx ch errs : Nat) : State :=
  if rx % 2 = 0 ∨ 32 ≤ ch ∨ s.rd Reg.XP_STATUS_STATE rx ≠ 2 then s
  else
    let key := xpLane rx ch
    let (s, inj) := s.injLaneErr key
    if s.inTakeover (rx % 4 == 3) then s
    else
      let (s, bad) := s.laneErrors key 8 10 (if inj then max 1 errs else errs)
      if bad ∧ !s.lnk.chanDue.contains (rx * 32 + ch) then s.setLnk { s.lnk with chanDue := s.lnk.chanDue ++ [rx * 32 + ch] } else s

/-- A lane of a reach port: its forward error correction counts the symbols it corrects (R329, R333). -/
def State.wheyReach (s : State) (p lane errs : Nat) : State :=
  if !s.reachUp p ∨ 8 ≤ lane then s
  else
    let (s, inj) := s.injLaneErr (reachLane p lane)
    s.bumpW Reg.RP_FEC_CORRECTED p (if inj then max 1 errs else errs)

/-- WHEY_SLOT_PRBS (R312, R323): what one lane or channel of a receiving end shows in this whey slot. -/
def State.doWhey (s : State) (e : LinkEnd) (g lane errs : Nat) : State :=
  if !s.clk.started || !isWhey s.slotIx then s
  else match e with
    | .link t l => s.wheyLane t.val l.val g lane errs true
    | .die t p => s.wheyLane t.val (4 + p.val) g lane errs false
    | .express t p => s.wheyChan (xpInst t.val p.val) lane errs
    | .reach p => s.wheyReach p.val lane errs

def execWheySlotPrbs (e : LinkEnd) (group : BitVec 3) (lane errs : Nat) (s : State) : Host.Outcome State Fault Refusal :=
  .next (s.doWhey e group.toNat lane errs)

/-! ### Flits (R309 to R311) -/

def State.rx (s : State) (k : Nat) : LinkRx := mget {} s.lnk.rx k
def State.setRx (s : State) (k : Nat) (v : LinkRx) : State := s.setLnk { s.lnk with rx := mset {} s.lnk.rx k v }

/-- A flit CRC failure of a lane group may make the group due (R314): GROUP_THRESH of them in a window in which no lane of the group has
reached its own threshold. -/
def State.countGroup (s : State) (t l g : Nat) (rx : Bool) : State :=
  let i := linkInst t l
  let k := dirKey t l rx * 8 + g
  let s := if rx then s.bump Reg.LK_GROUP_CRC_ERR i 1 g else s
  let win := s.frameNo / 2 ^ s.rd Reg.LK_CFG_WINDOW_LOG2 i
  let old := mget (0, 0) s.lnk.grpErr k
  let n := (if old.1 = win then old.2 else 0) + 1
  let s := s.setLnk { s.lnk with grpErr := mset (0, 0) s.lnk.grpErr k (win, n) }
  let hot := s.lnk.laneErr.any fun x => x.1 / 2048 == k && x.2.1 == win && decide (s.rd Reg.LK_CFG_LANE_THRESH i ≤ x.2.2.1)
  if n < s.rd Reg.LK_CFG_GROUP_THRESH i || hot || s.lnk.due.contains k || bitOf (s.retiredMask t l rx) g then s
  else (s.bump Reg.LK_ERR_GROUP_STORM i).groupDue k

/-- A flit CRC failure is counted at its end. -/
def State.countCrc (s : State) (e : LinkEnd) (g : Nat) : State :=
  match e with
  | .express t p => s.bump Reg.XP_ERR_CRC_ERR (xpInst t.val p.val)
  | .reach p => s.bump Reg.RP_ERR_CRC_ERR p.val
  | .link t l => s.countGroup t.val l.val g true
  | .die t p => s.countGroup t.val (4 + p.val) g false

/-- A flit that a reach port has accepted (R309): its bytes follow those of its class's packet, which enters the module with its last
flit. -/
def State.takeFlit (s : State) (p cls : Nat) (flit : List Byte) : State :=
  let w := mget [] s.fab.asm (p * 4 + cls) ++ flit.take 252
  let h := leNat (ofBytes (w.take 32))
  let n := hdrFld h 6
  let keep (s : State) (w : List Byte) : State := { s with fab := { s.fab with asm := mset [] s.fab.asm (p * 4 + cls) w } }
  if w.length < 252 * ((n + 36 + 251) / 252) then keep s w
  else (keep s []).enter p (wirePkt h ((w.drop 32).take n) (leNat (ofBytes ((w.drop (32 + n)).take 4))))

/-- What an injected error does to a flit that comes by (R334): 1 discards it unseen, 2 and 8 spoil it, 0 nothing. -/
def State.flitInject (s : State) (e : LinkEnd) : State × Nat :=
  match s.takeInject (endPort e).1 (endPort e).2 1 2 with
  | (s, 0) => (match e with
    | .reach p => (match s.takeInject (endPort e).1 (endPort e).2 8 8 with
      | (s, 0) => (s, 0)
      | (s, k) => (s.bump Reg.RP_FEC_UNCORR p.val, k))
    | _ => (s, 0))
  | r => r

/-- FLIT_RECEIVE (R309, R310, R334): a flit in sequence with a good CRC is accepted; a CRC failure or a gap makes the receiver ask for
the expected number and discard what follows. Packets within the module hop whole (Machine/Packets.lean); a reach port puts together
the packet that its flits carry. -/
def State.doFlitReceive (s : State) (e : LinkEnd) (g seq cls : Nat) (flit : List Byte) : State :=
  let k := endKey e
  match s.flitInject e with
  | (s, 1) => s
  | (s, i) =>
    let r := s.rx k
    if !flitOk flit || i != 0 then (s.countCrc e g).setRx k { r with discarding := true }
    else if seq = r.expect then
      let s := s.setRx k { expect := (r.expect + 1) % (linkCaps k).2.2.2, discarding := false }
      match e with
      | .reach p => if s.reachUp p.val then s.takeFlit p.val cls flit else s
      | _ => s
    else s.setRx k { r with discarding := true }

def execFlitReceive (l : LinkEnd) (group : BitVec 3) (seq : Nat) (cls : BitVec 2) (crc : BitVec 32) (data : List Byte) (s : State) :
    Host.Outcome State Fault Refusal := .next (s.moved fun s => s.doFlitReceive l group.toNat seq cls.toNat (flitBytes data crc))

/-- Does a replay buffer hold a flit? -/
def LinkTx.holds (x : LinkTx) (seq : Nat) : Bool := x.held.any fun f => f.1 == seq

/-- REPLAY_REQUEST (R310): the sender counts it; the flits from the named one go out again from the replay buffer. A die's end of a
die-to-base link has no record to count it in. -/
def State.doReplay (s : State) (e : LinkEnd) (seq : Nat) : State :=
  if !(s.tx (endKey e)).holds seq then s
  else match e with
    | .link t l => s.bumpW Reg.LK_ERR_REPLAYS (linkInst t.val l.val)
    | .die _ _ => s
    | .express t p => s.bumpW Reg.XP_ERR_REPLAYS (xpInst t.val p.val)
    | .reach p => s.bumpW Reg.RP_ERR_REPLAYS p.val

def execReplayRequest (l : LinkEnd) (seq : Nat) (s : State) : Host.Outcome State Fault Refusal := .next (s.doReplay l seq)

/-- FLIT_ACK (R310): every flit up to the named one leaves the replay buffer. -/
def State.doFlitAck (s : State) (e : LinkEnd) (seq : Nat) : State :=
  let x := s.tx (endKey e)
  if x.holds seq then s.setTx (endKey e) { x with held := (x.held.dropWhile fun f => f.1 != seq).drop 1 } else s

def execFlitAck (l : LinkEnd) (seq : Nat) (s : State) : Host.Outcome State Fault Refusal := .next (s.moved fun s => s.doFlitAck l seq)

/-- CREDIT_RETURN (R311): one credit, to the share or the pool it came from. -/
def State.doCredit (s : State) (e : LinkEnd) (cls : Nat) (pool : Bool) : State :=
  let x := s.tx (endKey e)
  s.setTx (endKey e) (if pool then { x with pool := x.pool - 1 } else { x with share := x.share.set cls (x.share.getD cls 0 - 1) })

def execCreditReturn (l : LinkEnd) (cls : BitVec 2) (pool : Bool) (s : State) : Host.Outcome State Fault Refusal :=
  .next (s.moved fun s => s.doCredit l cls.toNat pool)

/-- CONTROL_PAIR_FAILURE (R308): the first pair of a direction, and then the second, which retires the direction as if
every group had been. -/
def State.doControlPair (s : State) (t l : Nat) (rx : Bool) : State :=
  let d := dirKey t l rx
  if s.rd Reg.LK_STATUS_STATE (linkInst t l) ≠ 2 ∨ 2 ≤ mget 0 s.lnk.ctlBad d then s
  else
    let n := mget 0 s.lnk.ctlBad d + 1
    let s := (s.setLnk { s.lnk with ctlBad := mset 0 s.lnk.ctlBad d n }).wr Reg.LK_STATUS_CTL_DEGRADED (linkInst t l) 1
    let s := match (if l < 4 then neighbour t l else none) with
      | some m => s.wr Reg.LK_STATUS_CTL_DEGRADED (linkInst m (oppPort l)) 1
      | none => s
    if n = 2 then s.each (List.range 8) fun s g => s.retireGroup t l g rx false else s

def execControlPairFailure (t : Tile) (link : Fin 11) (rx : Bool) (s : State) : Host.Outcome State Fault Refusal :=
  .next (s.doControlPair t.val link.val rx)

/-! ### Training (R316 to R320) -/

/-- What this end proposes for a direction: its findings, with the lane history if it holds one, and the map merged after the last
attempt. -/
def State.propose (s : State) (d : Nat) (found merged : List Nat) (reset : Bool) : List Nat :=
  (merged ++ found ++ (if reset then [] else dirLanes s.lnk.bad d)).dedup

/-- The fields of a proposal above CRC as bytes: one after the other from the least significant bit, each bitmap by groups and lanes
(log 69). -/
def propBytes (p : Proposal) (lanes : Nat) : List Nat :=
  let map (b : List Nat) : Nat := (b.dedup.map fun x => 2 ^ (x / 2048 * lanes + x % 2048)).sum
  leBytes ((59 + 16 * lanes + 7) / 8)
    (p.linkId.toNat + b2n p.reset * 2 ^ 32 + p.attempt.toNat * 2 ^ 33 + p.widthTx.toNat * 2 ^ 35 + p.widthRx.toNat * 2 ^ 39 +
      p.groupsTx.toNat * 2 ^ 43 + p.groupsRx.toNat * 2 ^ 51 + map p.badTx * 2 ^ 59 + map p.badRx * 2 ^ (59 + 8 * lanes))

/-- Does a proposal pass its CRC (R317)? -/
def propGood (p : Proposal) (lanes : Nat) : Bool := p.crc.toNat == crc32c (propBytes p lanes)

/-- The two ends' proposals agree (R317 step 3): equal maps and widths of each direction. -/
def propAgrees (a b : Proposal) : Bool :=
  sameLanes a.badRx b.badTx && sameLanes a.badTx b.badRx && a.groupsRx == b.groupsTx && a.groupsTx == b.groupsRx &&
    a.widthRx == b.widthTx && a.widthTx == b.widthRx

/-- Lanes of a group of a link. -/
def groupLanes (l : Nat) : Nat := dataLanes l + spareLanes l

/-- This end's proposal in an attempt (Table 11.3). Groups that the merged one leaves out stay out. -/
def State.proposal (s : State) (t l n : Nat) (found : List Nat) (reset : Bool) : Proposal :=
  let i := linkInst t l
  let m := mget ([], []) s.lnk.merged i
  let out := mget 0 s.lnk.mergedG i
  let rx := s.propose (dirKey t l true) found m.1 reset
  let tx := s.propose (dirKey t l false) [] m.2 reset
  let gone (rxd : Bool) (bad : List Nat) : Nat :=
    maskOf ((if reset then badGroups l bad else s.goneGroups l (dirKey t l rxd) bad) ++
      setBits (if rxd then out / 256 else out % 256)).dedup
  let usable (g : Nat) : Nat := 255 - g % 256
  let p : Proposal := {
    linkId := BitVec.ofNat 32 (s.ownMod + t * 2 ^ 6 + l * 2 ^ 12), reset := reset, attempt := BitVec.ofNat 2 n
    widthTx := BitVec.ofNat 4 (setBits (usable (gone false tx))).length, widthRx := BitVec.ofNat 4 (setBits (usable (gone true rx))).length
    groupsTx := BitVec.ofNat 8 (usable (gone false tx)), groupsRx := BitVec.ofNat 8 (usable (gone true rx))
    badTx := tx, badRx := rx, crc := 0 }
  { p with crc := BitVec.ofNat 32 (crc32c (propBytes p (groupLanes l))) }

/-- Both ends merge their proposals for the next attempt (R318): the union of the bad lanes, which is what each of its cases gives, since
an end that has lost its state proposes nothing but what it has newly found; the groups that both call usable (log 69). -/
def State.mergeProps (s : State) (i : Nat) (a b : Proposal) : State :=
  let lost (x y : BitVec 8) : Nat := 255 - (x &&& y).toNat
  s.setLnk { s.lnk with
    merged := mset ([], []) s.lnk.merged i ((a.badRx ++ b.badTx).dedup, (a.badTx ++ b.badRx).dedup)
    mergedG := mset 0 s.lnk.mergedG i (lost a.groupsRx b.groupsTx * 256 + lost a.groupsTx b.groupsRx) }

/-- A link whose training has failed is retired with all its groups (R319); those of a tile edge enter the history (R315). -/
def State.untrained (s : State) (t l : Nat) : State :=
  let i := linkInst t l
  let s := s.setLnk { s.lnk with tries := mset 0 s.lnk.tries i 0, merged := mset ([], []) s.lnk.merged i ([], [])
                                 mergedG := mset 0 s.lnk.mergedG i 0 }
  let s := s.each (linkEnds t l) fun s j =>
    (((((s.wr Reg.LK_STATUS_STATE j 3).wr Reg.LK_STATUS_GRP_RETIRED_RX j 255).wr Reg.LK_STATUS_GRP_RETIRED_TX j 255).wr
      Reg.LK_STATUS_WIDTH_RX j 0).wr Reg.LK_STATUS_WIDTH_TX j 0).each (List.range 8) fun s g => s.wr Reg.LK_GROUP_RETIRED j 1 g
  if 4 ≤ l then s
  else
    let keys (d : Nat) : List Nat := (List.range 8).map (d * 8 + ·)
    let s := s.setLnk { s.lnk with grpHist := (s.lnk.grpHist ++ keys (dirKey t l true) ++ keys (dirKey t l false)).dedup }
    let (s, vs) := s.edgeInvalid t l
    let s := s.each (linkEnds t l) fun s j =>
      (s.wr Reg.SCH_LINK_RETIRED (j / 16) 255 (j % 16)).wr Reg.SCH_LINK_DYN_GROUPS (j / 16) 0 (j % 16)
    if vs = [] then s else s.recEach vs { type := evLinkInvalid, tile := t, d0 := linkDetail l 7 }

/-- A die-to-base link that does not train, or trains too narrow, retires its die (R319): the target of a power-up, a die of
the bring-up, or a mapped die. -/
def State.dieUntrained (s : State) (t p : Nat) : State :=
  if s.rd Reg.BU_STATUS_STATE 0 < 8 then
    { s with boot := { s.boot with linkBad := (s.boot.linkBad ++ [dieKey t p]).dedup } }
  else
    let waits := s.pwr.ups.any fun u => u.tile == t && u.site == p
    if !waits then s.reportLoss t p 3
    else
      let asked := s.flt.tests.any fun x => x.tile == t && x.site == p && x.why == 3
      let s := ((s.dropUp t p).dropTest t p).condemn t p
      let s := if asked then (s.wr Reg.FT_TEST_DONE t 1).wr Reg.FT_TEST_RESULT t 1 else s
      let s := match s.flt.migrs.find? fun m => m.tile == t && m.fresh == p with
        | some m => (s.endMigr m 3).resumeMigr m
        | none => s
      s.saveStored

/-- May a link train (R316): it is down, training or resuming; a tile edge trains in LINK_TRAIN and LINK_RESUME, a die-to-base link there
and where its die has been powered up. No link in service trains again. -/
def State.mayTrain (s : State) (t l : Nat) : Bool :=
  [0, 1, 4].contains (s.rd Reg.LK_STATUS_STATE (linkInst t l)) && s.vlnk t &&
    (if l < 4 then (s.rd Reg.BU_STATUS_STATE 0 == 5 || s.rd Reg.BU_STATUS_STATE 0 == 13) && (neighbour t l).any s.vlnk
     else (s.rd Reg.BU_STATUS_STATE 0 == 5 && s.boot.present.contains (dieKey t (l - 4)) &&
         !s.boot.condemned.contains (dieKey t (l - 4))) ||
       (s.rd Reg.BU_STATUS_STATE 0 == 13 && s.siteSt t (l - 4) == 1) ||
         s.pwr.ups.any fun u => u.tile == t && u.site == l - 4 && u.rampAt.isSome)

/-- A link is up with an agreed proposal (R317 step 4, R319, R320). -/
def State.linkUp (s : State) (t l : Nat) (p : Proposal) : State :=
  let gone (g : BitVec 8) : List Nat := setBits (255 - g.toNat)
  let s := s.trained t l p.badRx p.badTx (gone p.groupsRx) (gone p.groupsTx)
  if l < 4 then s.saveStored
  else if p.widthRx.toNat < 7 ∨ p.widthTx.toNat < 7 then s.dieUntrained t (l - 4)
  else
    let migr := s.pwr.ups.any fun u => u.tile == t && u.site == l - 4 && u.why == 0
    let s := s.dropUp t (l - 4)
    (if migr then s.migrTrained t (l - 4) else s).saveStored

/-- TRAINING_ATTEMPT (R317 to R319): the proposals agree when both pass their CRC and hold equal maps and widths; the test flits
decide. A disagreement is merged for the next attempt (R318); the third failure retires the link. The base die never is the resetting
end of its links. -/
def State.doTraining (s : State) (t l : Nat) (p : TrainIn) : State :=
  if !s.mayTrain t l then s
  else
    let i := linkInst t l
    let n := mget 0 s.lnk.tries i + 1
    let s := if n = 1 then s.each (linkEnds t l) fun s j => (s.bump Reg.LK_STATUS_TRAINS j).wr Reg.LK_STATUS_DISAGREED j 0 else s
    let s := s.each (linkEnds t l) fun s j => (s.wr Reg.LK_STATUS_ATTEMPT j n).wr Reg.LK_STATUS_STATE j 1
    let own := s.proposal t l n p.ownBad (p.ownReset && decide (l < 4))
    let s := s.setLnk { s.lnk with props := mset none s.lnk.props i (some own) }
    let peer := p.peer.filter fun q => propGood q (groupLanes l)
    let agree := peer.any (propAgrees own)
    if agree && p.flitsOk then s.linkUp t l own
    else if 3 ≤ n then
      let s := s.untrained t l
      if l < 4 then s.saveStored else s.dieUntrained t (l - 4)
    else
      let s := s.setLnk { s.lnk with tries := mset 0 s.lnk.tries i n }
      match peer with
      | none => s
      | some q =>
        if agree then s
        else (s.each (linkEnds t l) fun s j => s.wr Reg.LK_STATUS_DISAGREED j 1).mergeProps i own q

def execTrainingAttempt (t : Tile) (link : Fin 11) (p : TrainIn) (s : State) : Host.Outcome State Fault Refusal :=
  .next (s.doTraining t.val link.val p)

/-! ### Light (R322 to R328) -/

/-- Does a cartridge deliver light (SHARING or SOLE)? -/
def State.lit (s : State) (c : Nat) : Bool := s.rd Reg.LS_CART_STATE 0 c == 2 || s.rd Reg.LS_CART_STATE 0 c == 3

/-- The other cartridge of a pair. -/
def partner (c : Nat) : Nat := if c % 2 = 0 then c + 1 else c - 1

/-- Hours for which a cartridge's laser has been on since it last went on (R339). -/
def State.laserHours (s : State) (c : Nat) : Nat :=
  let v := mget 0 s.lnk.laserOn c
  if v = 0 then 0 else (s.age + 1 - v) / us (3600 * 10 ^ 6)

/-- A cartridge's state and output (Table 11.5). Its laser is on while it warms, shares or carries the load alone; what an hour has
begun when it goes off is not counted (log 35). -/
def State.setCart (s : State) (c st out : Nat) : State :=
  let on := st == 1 || st == 2 || st == 3
  let s := if on then s else s.bumpW Reg.LS_CART_HOURS 0 (s.laserHours c) c
  let was := mget 0 s.lnk.laserOn c
  let s := { s with lnk := { s.lnk with laserOn := mset 0 s.lnk.laserOn c (if on then (if was = 0 then s.age + 1 else was) else 0) } }
  ((s.wr Reg.LS_CART_STATE 0 st c).wr Reg.LS_CART_OUTPUT 0 out c).wr Reg.LS_CART_LOCKED 0 (b2n (st == 2 || st == 3)) c

/-- EXPRESS_RETRAIN (R323): a link that trains, at LINK_TRAIN or since its light has returned, ends with these live channels of its two
directions. -/
def State.doExpressRetrain (s : State) (t : Nat) (col : Bool) (liveTx liveRx : Nat) : State :=
  let b := if col then 2 else 0
  match neighbour t (if col then 5 else 4) with
  | none => s
  | some n =>
    if s.rd Reg.XP_STATUS_STATE (xpInst t b) ≠ 1 ∨ !s.vlnk t ∨ !s.vlnk n then s
    else
      let s := ((s.wr Reg.XP_CHAN_LIVE (xpInst t b) liveTx).wr Reg.XP_CHAN_LIVE (xpInst n (b + 1)) liveTx)
      let s := ((s.wr Reg.XP_CHAN_LIVE (xpInst t (b + 1)) liveRx).wr Reg.XP_CHAN_LIVE (xpInst n b) liveRx)
      s.retireExpress t col (if 16 ≤ popcount liveTx 32 ∧ 16 ≤ popcount liveRx 32 then 2 else 3)

def execExpressRetrain (t : Tile) (col : Bool) (liveTx liveRx : BitVec 32) (s : State) : Host.Outcome State Fault Refusal :=
  .next (s.doExpressRetrain t.val col liveTx.toNat liveRx.toNat)

/-- Every express link of a pair's kind loses its light (R327). -/
def State.darken (s : State) (pair : Nat) : State :=
  s.each (List.range 36) fun s t =>
    let rx := xpInst t (2 * pair + 1)
    ((s.wr Reg.XP_STATUS_STATE (xpInst t (2 * pair)) 4).wr Reg.XP_STATUS_STATE rx 4).wr Reg.XP_STATUS_RX_POWER rx 0

/-- Light returns to a kind: its links that had lost it train (R323, R327). -/
def State.relight (s : State) (pair : Nat) : State :=
  s.each (List.range 36) fun s t => s.each [xpInst t (2 * pair), xpInst t (2 * pair + 1)] fun s i =>
    if s.rd Reg.XP_STATUS_STATE i = 4 then s.wr Reg.XP_STATUS_STATE i 1 else s

/-- A cartridge stops delivering light and goes to state `st` (R325, R327): its partner takes over, or the kind goes dark.
Answers whether the kind is dark. -/
def State.cartOff (s : State) (c st : Nat) : State × Bool :=
  let was := s.lit c
  let s := s.setCart c st 0
  let q := partner c
  if !was then (s, false)
  else if s.rd Reg.LS_CART_STATE 0 q = 2 then
    let s := (s.setCart q 3 100).bump Reg.LS_CART_TAKEOVERS 0 1 q
    (s.setLnk { s.lnk with takeover := mset 0 s.lnk.takeover (c / 2) (s.now + 1) }, false)
  else (s.darken (c / 2), true)

/-- CARTRIDGE_FAULT (R325, R327). -/
def State.doCartFault (s : State) (c : Nat) : State :=
  if !([1, 2, 3].contains (s.rd Reg.LS_CART_STATE 0 c)) then s
  else (s.cartOff c 5).1.faultRec { type := evLaser, d0 := c }

def execCartridgeFault (cart : Fin 4) (s : State) : Host.Outcome State Fault Refusal := .next (s.doCartFault cart.val)

/-- INTERLOCK_OPEN (R326): the cartridge is pulled; its laser is cut. -/
def State.doInterlock (s : State) (c : Nat) : State :=
  if !s.lnk.bays.contains c then s
  else
    let s := s.setLnk { s.lnk with bays := s.lnk.bays.filter (· != c) }
    let (s, dark) := (s.wr Reg.LS_CART_INTERLOCK 0 0 c).cartOff c 0
    if dark then s.faultRec { type := evLaser, d0 := c } else s

def execInterlockOpen (cart : Fin 4) (s : State) : Host.Outcome State Fault Refusal := .next (s.doInterlock cart.val)

/-- CARTRIDGE_RELEASE (R328). -/
def State.doCartRelease (s : State) (c : Nat) : State :=
  let m := s.rd Reg.LS_CTL_RELEASE 0
  let s := if bitOf m c then s.wr Reg.LS_CTL_RELEASE 0 (m - 2 ^ c) else s
  if s.rd Reg.LS_CART_STATE 0 (partner c) = 2 then (s.cartOff c 4).1
  else s.setLnk { s.lnk with amber := mset 0 s.lnk.amber c (s.now + 1) }

def execCartridgeRelease (cart : Fin 4) (s : State) : Host.Outcome State Fault Refusal := .next (s.doCartRelease cart.val)

/-- A cartridge has warmed and locked: the pair shares, or it carries the load alone; a dark kind has light again. -/
def State.cartOn (s : State) (c : Nat) : State :=
  let s := s.wr Reg.LS_CART_INTERLOCK 0 1 c
  if s.lit (partner c) then (s.setCart c 2 60).setCart (partner c) 2 60 else (s.setCart c 3 100).relight (c / 2)

/-- A cartridge is put into its bay: it warms, once the module drives it. HOURS, TAKEOVERS and the rising output come with the
cartridge: free values (log 35). -/
def State.putCart (s : State) (c serial : Nat) : State :=
  let s := s.setLnk { s.lnk with bays := s.lnk.bays ++ [c] }
  let (h, s) := s.draw
  let (k, s) := s.draw
  let (o, s) := s.draw
  let s := ((s.wr Reg.LS_CART_SERIAL 0 serial c).wr Reg.LS_CART_HOURS 0 h.toNat c).wr Reg.LS_CART_TAKEOVERS 0 k.toNat c
  let s := s.wr Reg.LS_CART_INTERLOCK 0 1 c
  if s.rd Reg.BU_STATUS_STATE 0 < 2 then s.setCart c 4 0 else s.setCart c 1 (o.toNat % 101)

/-- CARTRIDGE_INSERT (R328): a cartridge that is not there is inserted and warms; with `locked` its wavelengths have locked. -/
def State.doCartInsert (s : State) (c serial : Nat) (locked : Bool) : State :=
  let s := if s.lnk.bays.contains c then s else s.putCart c serial
  if locked && s.rd Reg.LS_CART_STATE 0 c == 1 then s.cartOn c else s

def execCartridgeInsert (cart : Fin 4) (x : CartIn) (s : State) : Host.Outcome State Fault Refusal :=
  .next (s.doCartInsert cart.val x.serial.toNat x.locked)

/-! ### Reach ports (R329 to R333) -/

/-- The peer port that R331 requires. -/
def reachPeer (p : Nat) : Nat :=
  if p < 6 then p + 6 else if p < 12 then p - 6 else if p < 18 then p + 6 else if p < 24 then p - 6
  else if p < 28 then p + 4 else p - 4

/-- The width that a set of good lanes allows: 8, or 4 where lanes 0 to 3 or 4 to 7 are all good, else 0 (R332). -/
def reachWidth (good : BitVec 8) : Nat := if good = 255 then 8 else if good &&& 15 = 15 ∨ good &&& 240 = 240 then 4 else 0

/-- Is the peer of a port the module and port that R331 requires, in a torus of the same size? -/
def State.wellCabled (s : State) (p : Nat) (x : ReachIn) : Bool :=
  x.peerModule.toNat == s.modStep s.ownMod (reachDir p) && x.peerPort.toNat == reachPeer p && x.peerZ.toNat == s.host.depthZ &&
    (decide (p < 24) || s.host.depthZ != 1)

/-- A reach port's training ends, in this state. -/
def State.reachEnds (s : State) (p st : Nat) : State :=
  (s.wr Reg.RP_STATUS_STATE p st).setLnk { s.lnk with mergedG := mset 0 s.lnk.mergedG (reachKey p) 0 }

/-- REACH_TRAINING (R332): one attempt. PEER_MODULE and PEER_PORT with STATE = MISCABLED report a mismatch to the fabric manager. The
ends agree where they propose the same lanes; else both take the lanes that both call good (R318, log 69). -/
def State.doReachTraining (s : State) (p : Nat) (x : ReachIn) : State :=
  if !s.host.inSystem ∨ s.rd Reg.RP_CTL_ENABLE p = 0 ∨ s.rd Reg.RP_STATUS_STATE p ≠ 1 ∨ !s.vlnk (reachHost p) then s
  else
    let n := s.rd Reg.RP_STATUS_ATTEMPT p + 1
    let s := (if n = 1 then s.bump Reg.RP_STATUS_TRAINS p else s).wr Reg.RP_STATUS_ATTEMPT p n
    let fails (s : State) : State := if 3 ≤ n then s.reachEnds p 0 else s
    if !x.peer then fails s
    else
      let s := (s.wr Reg.RP_STATUS_PEER_MODULE p x.peerModule.toNat).wr Reg.RP_STATUS_PEER_PORT p x.peerPort.toNat
      let own := x.ownGood &&& ~~~BitVec.ofNat 8 (mget 0 s.lnk.mergedG (reachKey p))
      if !s.wellCabled p x then s.reachEnds p 5
      else if own ≠ x.peerGood then
        fails (s.setLnk { s.lnk with mergedG := mset 0 s.lnk.mergedG (reachKey p) (255 - (own &&& x.peerGood).toNat) })
      else if reachWidth own = 0 then s.reachEnds p 0
      else if x.flitsOk then s.reachEnds p (if reachWidth own = 8 then 2 else 3)
      else fails s

def execReachTraining (port : Fin 32) (p : ReachIn) (s : State) : Host.Outcome State Fault Refusal :=
  .next (s.doReachTraining port.val p)

/-- What a reach port has received of packets that will not be completed is discarded (R272). -/
def State.dropAsm (s : State) (p : Nat) : State := { s with fab := { s.fab with asm := mkeep (fun k => k / 4 != p) s.fab.asm } }

/-- A reach port that was up goes down for good (R333). -/
def State.retireReach (s : State) (p : Nat) : State :=
  if s.reachUp p then
    ((s.dropAsm p).wr Reg.RP_STATUS_STATE p 4).bump Reg.RP_ERR_DOWN_EVENTS p |>.faultRec { type := evReachDown, tile := reachHost p, d0 := p }
  else s

/-- REACH_RETIREMENT (R329, R333): the flits that uncorrectable codewords overlap have failed their CRC, and the receiver waits for
their replay; 16 such codewords in a second, or more than 2.4 × 10⁻⁴ corrected symbols, retire the port. -/
def State.doReachRetirement (s : State) (p : Nat) (why : ReachLoss) : State :=
  if !s.reachUp p then s
  else match why with
    | .fec symbols corrected uncorr flits =>
      let s := (s.bump Reg.RP_FEC_UNCORR p uncorr).bumpW Reg.RP_FEC_CORRECTED p corrected
      let s := if flits = 0 then s else (s.bump Reg.RP_ERR_CRC_ERR p flits).setRx (reachKey p) { s.rx (reachKey p) with discarding := true }
      if 16 ≤ uncorr ∨ 24 * symbols < 100000 * corrected then s.retireReach p else s
    | .peerLost => s.retireReach p

def execReachRetirement (port : Fin 32) (why : ReachLoss) (s : State) : Host.Outcome State Fault Refusal :=
  .next (s.doReachRetirement port.val why)

/-- REACH_ENABLE (R333): ENABLE = 1 is written; a port that is not up trains anew. -/
def State.doReachEnable (s : State) (p : Nat) : State :=
  let s := s.wr Reg.RP_CTL_ENABLE p 1
  if !s.host.inSystem || s.reachUp p || s.rd Reg.BU_STATUS_STATE 0 < 5 then s
  else (s.wr Reg.RP_STATUS_STATE p 1).wr Reg.RP_STATUS_ATTEMPT p 0

def execReachEnable (port : Fin 32) (s : State) : Host.Outcome State Fault Refusal := .next (s.doReachEnable port.val)

/-! ### Error injection (R334, R335, R340) -/

/-- May INJ_CTL be written (R335)? -/
def State.injWritable (s : State) : Bool :=
  let st := s.rd Reg.LC_STATUS_STATE 0
  st == 1 || st == 3 || (st == 2 && s.rd Reg.LC_STATUS_LINK_INJECT 0 == 1)

/-- A write of INJ_CTL (Table 11.12): refused while locked; a reserved KIND or a PERIOD of 0 is ignored; ARM starts the
injection, replacing a running one, and COUNT = 0 stops it. -/
def State.injCtl (s : State) (t v : Nat) : State :=
  let kind := bitsOf v 3 0
  if !s.injWritable then s.wr Reg.LINJ_STATUS_REFUSED t 1
  else if kind = 0 ∨ 8 < kind ∨ bitsOf v 58 43 = 0 then s
  else
    let s := (((((((s.wr Reg.LINJ_CTL_KIND t kind).wr Reg.LINJ_CTL_TARGET t (bitsOf v 7 4)).wr Reg.LINJ_CTL_PORT t (bitsOf v 12 8)).wr
      Reg.LINJ_CTL_GROUP t (bitsOf v 15 13)).wr Reg.LINJ_CTL_LANE t (bitsOf v 26 16)).wr Reg.LINJ_CTL_COUNT t (bitsOf v 42 27)).wr
      Reg.LINJ_CTL_PERIOD t (bitsOf v 58 43))
    if !bitOf v 59 && bitsOf v 42 27 != 0 then s
    else
      let s := s.setLnk { s.lnk with injLeft := mset 0 s.lnk.injLeft t (bitsOf v 42 27), injLast := mset 0 s.lnk.injLast t 0 }
      s.wr Reg.LINJ_STATUS_ACTIVE t (b2n (bitsOf v 42 27 != 0))

def execInjectionArm (t : Tile) (v : Word) (s : State) : Host.Outcome State Fault Refusal :=
  .next (s.injCtl t.val (v.toNat ||| 2 ^ 59))

/-- The receiving tile and port of an injection's TARGET: a transmit port's receiver is at the partner tile. -/
def injAt (t target port : Nat) : Nat × Nat :=
  if target < 4 then (t, target)
  else if target < 11 then (t, dieInp (target - 4))
  else if target = 15 then (reachHost port, 40 + port)
  else
    let p := if target < 13 then 4 else 5
    if target % 2 = 1 then ((neighbour t p).getD t, p) else (t, p)

/-- Kinds that a target's links take (Table 11.7). -/
def injFits (kind target : Nat) : Bool := (kind != 3 || decide (target < 11)) && (kind != 8 || target == 15)

/-- Lane key of an injection of kind 4. -/
def injLaneKey (t target port g lane : Nat) : Nat :=
  if target < 11 then (dirKey t target true * 8 + g) * 2048 + lane
  else if target = 15 then reachLane port lane
  else
    let e := injAt t target 0
    xpLane (xpInst e.1 (if e.2 = 4 then 1 else 3)) lane

/-- INJECTION_EVENT (R334): one event of a running injection, a PERIOD after the last. -/
def State.doInjection1 (s : State) (t : Nat) : State :=
  let left := mget 0 s.lnk.injLeft t
  let last := mget 0 s.lnk.injLast t
  if s.rd Reg.LINJ_STATUS_ACTIVE t = 0 ∨ left = 0 ∨ (last ≠ 0 ∧ s.now < last - 1 + us (s.rd Reg.LINJ_CTL_PERIOD t)) then s
  else
    let kind := s.rd Reg.LINJ_CTL_KIND t
    let target := s.rd Reg.LINJ_CTL_TARGET t
    let s := s.setLnk { s.lnk with injLeft := mset 0 s.lnk.injLeft t (left - 1), injLast := mset 0 s.lnk.injLast t (s.now + 1) }
    let s := (s.bumpW Reg.LINJ_STATUS_INJECTED t).wr Reg.LINJ_STATUS_ACTIVE t (b2n (left != 1))
    if !injFits kind target then s
    else if kind = 4 then
      let k := injLaneKey t target (s.rd Reg.LINJ_CTL_PORT t) (s.rd Reg.LINJ_CTL_GROUP t) (s.rd Reg.LINJ_CTL_LANE t)
      s.setLnk { s.lnk with injLane := mset 0 s.lnk.injLane k 3 }
    else
      let e := injAt t target (s.rd Reg.LINJ_CTL_PORT t)
      s.setLnk { s.lnk with injNext := s.lnk.injNext ++ [(e.1, e.2, kind)] }

def execInjectionEvent (t : Tile) (s : State) : Host.Outcome State Fault Refusal := .next (s.doInjection1 t.val)

end Sys2Proof.Machine
end

