-- ==== Sys2Proof/Machine/Release.lean ====
section
/-! DEFINITION. The release of vats (R27, R364, R224, R282), the disable of a VF (R420, R421), and the reports of
uncorrectable scratch errors (R154, R404). -/

namespace Sys2Proof.Machine

/-! ### The parts of a release -/

/-- Rings bound for vats are unbound, their running descriptors dropped (R201, Table 19.2). -/
def State.unbindRings (s : State) (ids : List Nat) : State :=
  s.each (List.range 144) fun s mk =>
    s.each ((List.range 4).filter fun r => s.rd Reg.MV_BIND_ENABLE mk r == 1 && ids.contains (s.rd Reg.MV_BIND_VAT mk r)) fun s r =>
      ((s.dropRing mk r).wr Reg.MV_BIND_ENABLE mk 0 r).wr Reg.MV_CONSUMED_CONSUMED mk 0 r

/-- Packets that carry a vat's id are discarded and counted, those in the routers and those that wait or are staged in front of them
(R420 step 6). -/
def State.dropVatPkts (s : State) (ids : List Nat) : State :=
  let gone := s.fab.net.filter fun p => ids.contains p.vat
  let s := s.each gone fun s p => if p.at_ < 36 then s.bump Reg.DYN_DROP1_KILLED p.at_ else s
  { s with fab := { s.fab with net := s.fab.net.filter fun p => !ids.contains p.vat
                               parked := s.fab.parked.filter fun q => !ids.contains q.p.vat
                               reorder := s.fab.reorder.filter fun e => !ids.contains e.p.vat } }

/-- What the resident services keep for vats goes. -/
def State.dropServices (s : State) (ids : List Nat) : State :=
  let out (id : Nat) : Bool := !ids.contains id
  { s with svc := { s.svc with steps := s.svc.steps.filter fun r => out r.vat
                               reqs := s.svc.reqs.filter fun r => out r.vat
                               seqs := s.svc.seqs.filter fun r => out r.vat
                               rounds := mkeep out s.svc.rounds } }

/-- Every core of the vats receives a compute reset, but for those in `done`, which a running reset has reset already (R457); churn
entries, claims, flags and rings are freed (R420 step 5). Their schedules' entries stand until what is under way has arrived
(R228). -/
def State.freeVats (s : State) (ids done : List Nat) : State :=
  let cores := (((ids.flatMap s.vatClus).dedup).flatMap coresOfClu).filter fun c => !done.contains c
  let s := (s.each cores State.resetCore).each cores State.clearFence
  let s := ((s.stopMovers ids).unbindRings ids).releaseChurn ids
  ((s.releaseLedger ids).clearFlags ids).dropServices ids

/-- Vats leave the module: their schedules' entries and triples (R224), their records and the VF bindings to them. -/
def State.forgetVats (s : State) (ids : List Nat) : State :=
  let s := (s.dropVatPkts ids).releaseSched ids
  { s with vats := s.vats.filter fun v => !ids.contains v.id
           host := { s.host with vfVat := s.host.vfVat.filter fun e => !ids.contains e.2 } }

/-- A release of vats with their sub-vats (R27): their commands end ABORTED (R483), their work is freed, they are gone. -/
def State.releaseVats (s : State) (vs : List Nat) : State :=
  let ids := (vs.flatMap s.subtree).dedup
  ((s.abortCmds ids).freeVats ids []).forgetVats ids

/-! ### VF disable (R420, R421) -/

/-- A function's queues return to their reset values; its commands and the completions it still waits for are dropped
without an entry (R420 step 4, R472). -/
def State.resetFn (s : State) (fn : Nat) : State :=
  let mine (k : Nat) : Bool := keyBlk k == blkNum .qRegs && keyInst k / 32 == fn
  let ids := (s.host.cmds.filter fun c => c.fn == fn).map HCmd.id
  let s := s.each ids State.dropService
  { s with regs := mkeep (fun k => !mine k) s.regs
           host := { s.host with cmds := s.host.cmds.filter fun c => c.fn != fn
                                 held := s.host.held.filter fun c => c.fn != fn
                                 phase := mkeep (fun i => i / 32 != fn) s.host.phase
                                 cqHead := mkeep (fun i => i / 32 != fn) s.host.cqHead
                                 msixTable := mkeep (fun i => i / 65536 != fn) s.host.msixTable } }

/-- Does a site-map change run in a tile of a vat? -/
def State.vatSiteBusy (s : State) (id : Nat) : Bool :=
  (((s.vat? id).map Vat.clus).getD []).any fun lk => s.siteBusy (ckTile lk)

/-- Is anything of vats under way: packets in the routers, scheduled transfers before their last hop (R228, R420 step 6)? -/
def State.underWay (s : State) (ids : List Nat) : Bool :=
  (s.fab.net.any fun p => ids.contains p.vat) || (s.sch.arrivals.any fun a => ids.contains a.x.vat) ||
    (s.sch.stage ++ s.sch.stageIn).any fun e => e.2.any fun x => ids.contains x.vat

/-- Ends a disable whose drain is over. -/
def State.endDisable (s : State) (id : Nat) : State := s.forgetVats (s.subtree id)

/-- Steps 1 to 6 of R420 on the vat of a VF, at a frame boundary; a site-map change in its tiles comes first (R421). -/
def State.disableVf (s : State) (vf : Nat) : State :=
  let id := mget 0 s.host.vfVat vf
  let done := { s with host := { s.host with disables := s.host.disables.filter (· != vf) } }
  if s.vat? id = none ∨ ((s.vat? id).bind Vat.killing).isSome then done
  else if s.vatSiteBusy id then s
  else
    let ids := s.subtree id
    let s := done.each ids fun s i => match s.vat? i with
      | some v => s.setVat { v with run := .stopped, killing := some s.now, frozen := none }
      | none => s
    let s := s.freeVats ids ((s.boot.rst.map fun r => r.2.1).getD [])
    if s.underWay ids then s else s.endDisable id

/-- The disables that wait, where a frame begins (R420 step 1). -/
def State.runDisables (s : State) : State := if s.clk.started && s.slotIx != 0 then s else s.each s.host.disables State.disableVf

/-- VF_DISABLE: the enable is cleared, or an FLR comes. The function returns to its reset values at once; its vat is stopped at the next
frame boundary, at once while no frames run. -/
def State.doVfDisable (s : State) (vf : Nat) : State :=
  let id := mget 0 s.host.vfVat vf
  if vf = 0 then s
  else
    let s := s.resetFn (vf + 1)
    if s.vat? id = none ∨ ((s.vat? id).bind Vat.killing).isSome ∨ s.host.disables.contains vf then s
    else
      let s := { s with host := { s.host with disables := s.host.disables ++ [vf] } }
      if s.clk.started then s else s.runDisables

def execVfDisable (vf : BitVec 6) (s : State) : Host.Outcome State Fault Refusal := .next (s.doVfDisable vf.toNat)

/-- VAT_ID_DRAIN_TIMEOUT (R420 step 6): the drain reports empty, or 5 ms have passed. -/
def State.doVatDrain (s : State) (id : Nat) : State :=
  match (s.vat? id).bind Vat.killing with
  | none => s
  | some t => if s.underWay (s.subtree id) && decide (s.now < t + us 5000) then s else s.endDisable (s.topOf id)

def execVatIdDrainTimeout (vat : BitVec 8) (s : State) : Host.Outcome State Fault Refusal := .next (s.doVatDrain vat.toNat)

/-! ### Uncorrectable scratch errors (R154, R404) -/

/-- SCRATCH_UE_REPORT (R404): distinct words of the die within an hour; the third, or a word that keeps its error after a
full write, asks for a migrate-and-test with PREEMPT = 0. DETAIL0 is 1 for a BUSY answer, DETAIL1 the count. Only an event that a
reader has met and that waits for its report is one (R154). -/
def State.doUeReport (s : State) (core word src : Nat) (kept : Bool) : State :=
  let t := core / 256
  let p := core / 32 % 8
  if !s.dieOn t p || !s.cmp.ueNew.contains (core * 2 ^ 21 + word, src) then s
  else
    let s := { s with cmp := { s.cmp with ueNew := s.cmp.ueNew.erase (core * 2 ^ 21 + word, src) } }
    let die := dieKey t p
    let live := s.flt.ues.filter fun u => decide (s.now < u.2.2 + us (3600 * 10 ^ 6))
    let w := core * 2 ^ 21 + word
    let fresh := !live.any fun u => u.2.1 == w
    let l := if fresh then live ++ [(die, w, s.now)] else live
    let n := (l.filter fun u => u.1 == die).length
    let s := { s with flt := { s.flt with ues := l } }
    let due := kept || (fresh && n == 3)
    let (s, r) := if due && s.lsite t p != 7 then s.startMigr t (s.lsite t p) false false true else (s, none)
    s.faultRec { type := evScratchUe, tile := t, psite := p, lsite := s.lsite t p, cluster := core / 8 % 4, slot := slotOf core,
                 d0 := b2n (r == some 1), d1 := n }

def execScratchUeReport (c : Core) (word : BitVec 21) (src : BitVec 3) (kept : Bool) (s : State) :
    Host.Outcome State Fault Refusal := .next (s.doUeReport (coreKey c) word.toNat src.toNat kept)

end Sys2Proof.Machine
end

