-- ==== Sys2Proof/Machine/Power.lean ====
section
/-! DEFINITION. The input, the e-fuse and the power cells (12.1 to 12.3), heartbeats (R400), insertion and removal (12.8,
R504), the light bar (R514); what is lost when the cells are off, and what a cold reset clears (R523, R525). -/

namespace Sys2Proof.Machine

/-! ### The light bar (Table 18.9) -/

/-- LIGHT: the first condition of Table 18.9 that holds. -/
def State.light (s : State) : Nat :=
  let ph := s.rd Reg.RM_STATUS_PHASE 0
  if ph = 4 then 3
  else if s.rd Reg.IN_STATUS_EFUSE 0 = 3 ∨ s.tray.cutAt.isSome ∨ s.rd Reg.TR_CMP_LOCKOUT 0 = 1 ∨ s.rd Reg.BU_STATUS_FAILED 0 = 1 ∨
      ph = 6 then 4
  else if 1 ≤ ph ∧ ph ≤ 3 then 2
  else if s.rd Reg.BU_STATUS_STATE 0 = 12 then 1
  else 0

/-! ### Cells off and cold reset -/

/-- Fields of THERMAL_LIFE that no reset changes (R525). -/
def isLifeKey (k : Nat) : Bool :=
  keyBlk k == blkNum .thermalLife && k % 2 ^ 26 != fkey Reg.TL_TEMP_TEMP 0 0 % 2 ^ 26 && k % 2 ^ 26 != fkey Reg.TL_TEMP_PEAK 0 0 % 2 ^ 26

/-- LIFE_COUNTER_SAVE (R494): the counters and the residue stacks go to flash. -/
def State.saveLife (s : State) : State :=
  { s with tray := { s.tray with savedLife := mkeep isLifeKey s.regs, savedResidue := s.tray.residue, savedAt := s.age } }

/-- Fields that stand while the cells are off: of the standby side, of the service controller, and those of R525 outside
THERMAL_LIFE. -/
def keepsOff (k : Nat) : Bool :=
  let b := keyBlk k
  let o := keyOff k
  b == blkNum .moduleInput || b == blkNum .tray || b == blkNum .bringup || b == blkNum .mgmt ||
    (b == blkNum .faultLog && o == Reg.FL_STATUS_PERM_USED.off) ||
    (b == blkNum .laser && decide (o < 0x40) && (decide (o % 16 = 8) || decide (32 ≤ k % 64)))

/-- The bays that hold a cartridge, in their order. -/
def State.baysIn (s : State) : List Nat := (List.range 4).filter s.lnk.bays.contains

/-- Cells are off: what the panel held is gone, and its registers are at their reset values; the flash, the standby side
and the memories of hosts and devices stand. `cell` is what CELL reads. -/
def State.panelOff (s : State) (cell : Nat) : State :=
  let s := { s with
    now := 0
    regs := mmerge (mkeep isLifeKey s.tray.savedLife) (mkeep keepsOff s.regs)
    mem := s.mem.filter fun e => e.1 / 2 ^ 52 == 8 || e.1 / 2 ^ 52 == 3
    cmp := {}, tier := {}, sch := {}, fab := {}, ren := {}, vats := [], clk := {}, svc := {}, cong := {}
    lnk := { bad := s.lnk.bad, grpHist := s.lnk.grpHist, skewHist := s.lnk.skewHist, bays := s.lnk.bays,
             laserOn := s.lnk.laserOn }
    pwr := { mated := s.pwr.mated, pin := s.pwr.pin, inputGone := s.pwr.inputGone, lossAt := s.pwr.lossAt, ovAt := s.pwr.ovAt,
             precharge := s.pwr.precharge, dischargeAt := s.pwr.dischargeAt, drainAt := s.pwr.drainAt }
    flt := { perm := s.flt.perm, hist := s.flt.hist, owner := s.flt.owner }
    boot := { stored := s.boot.stored, svc := s.boot.svc, cul := s.boot.cul, svcInUse := s.boot.svcInUse,
              enteredAt := s.boot.enteredAt, beganAt := s.boot.beganAt }
    host := { msix := s.host.msix }
    tray := { s.tray with residue := s.tray.savedResidue, dieTemp := [] } }
  let s := s.each (List.range 36) fun s t => s.wr Reg.PW_STATUS_CELL t cell
  s.each s.baysIn fun s c => (s.wr Reg.LS_CART_INTERLOCK 0 1 c).setCart c 4 0

/-- A lapsed token (R499): link error injection stops unless the life-cycle state permits it (R335). -/
def State.lapseToken (s : State) : State :=
  let s := { s with mgmt := { s.mgmt with token := none, tokenEnd := 0 } }
  let s := ((s.wr Reg.LC_STATUS_TOKEN_ACTIVE 0 0).wr Reg.LC_STATUS_LINK_INJECT 0 0).wr Reg.LC_STATUS_TOKEN_LEFT 0 0
  if s.injWritable then s
  else
    let s := { s with lnk := { s.lnk with injLeft := [], injNext := [], injLane := [] } }
    s.each (List.range 36) fun s t => s.wr Reg.LINJ_STATUS_ACTIVE t 0

/-- The service controller stops (R484): a bring-up or a run is over; its token and nonce are lost. -/
def State.ctlOff (s : State) : State :=
  let s := { s.lapseToken with mgmt := { s.lapseToken.mgmt with nonce := none } }
  (s.wr Reg.BU_STATUS_STATE 0 0).wr Reg.BU_STATUS_FAILED 0 0

/-- What a cold reset clears beside what the cells' going off has cleared (R523, R525). -/
def coldKey (k : Nat) : Bool :=
  let b := keyBlk k
  let f := k % 2 ^ 26
  let isF (x : Fld) : Bool := f == fkey x 0 0 % 2 ^ 26
  (b == blkNum .moduleInput && (keyOff k == 0x8 || isF Reg.IN_STATUS_LAST_TRIP || isF Reg.RM_CTL_FORCE || isF Reg.RM_CTL_DRAIN_TIMEOUT)) ||
    (b == blkNum .tray && (keyOff k == 0x8 || keyOff k == 0x10)) ||
    (b == blkNum .mgmt && decide (0x18 ≤ keyOff k) && decide (keyOff k ≤ 0x28)) ||
    (b == blkNum .bringup && !isF Reg.BU_STATUS_FALLBACK)

/-- Fields return to their reset values at a cold reset. -/
def State.coldRegs (s : State) : State := { s with regs := mkeep (fun k => !coldKey k) s.regs }

/-- A power event spoils the warm fast path (Table 15.6, condition 1). -/
def State.powerDirty (s : State) : State :=
  { s with boot := { s.boot with stored := { s.boot.stored with cleanPower := false } } }

/-- A removal in progress goes on with the bulk's discharge (R371). -/
def State.phaseDown (s : State) : State :=
  let ph := s.rd Reg.RM_STATUS_PHASE 0
  if ph = 1 ∨ ph = 2 then s.wr Reg.RM_STATUS_PHASE 0 3 else s

/-- The e-fuse opens and stays as `efuse` says; the bulk is discharged. -/
def State.openFuse (s : State) (efuse cell : Nat) : State :=
  let s := if s.rd Reg.IN_STATUS_EFUSE 0 = 0 then s else s.bump Reg.IN_EVENTS_TRIPS 0
  let s := (((s.panelOff cell).ctlOff.wr Reg.IN_STATUS_EFUSE 0 efuse).wr Reg.IN_STATUS_COOLANT_WAIT 0 0).wr Reg.IN_STATUS_IIN 0 0
  ({ s with pwr := { s.pwr with precharge := none, lossAt := none, dischargeAt := some s.age } }).phaseDown

/-- Is the e-fuse in precharge or on? -/
def State.fuseLive (s : State) : Bool := s.rd Reg.IN_STATUS_EFUSE 0 == 1 || s.rd Reg.IN_STATUS_EFUSE 0 == 2

/-! ### Input loss (R346) -/

/-- Every core of the module that has or may take work. -/
def State.workCores (s : State) : List Nat :=
  ((s.cmp.sc.map fun e => coreOf e.1 4) ++ s.cmp.cores.map Prod.fst ++ s.cmp.queues.map fun e => coreOf (e.1 / 4) (e.1 % 4)).dedup

/-- The first part of Table 12.2: every vat is held, injectors stop, no new packet starts, the records are written and the
life counters saved. -/
def State.declareLoss (s : State) : State :=
  let s := { s with pwr := { s.pwr with lossAt := some s.age } }
  let s := s.each s.workCores fun s c => s.setHold c true
  let cks := (s.workCores.map cluOfCore).dedup
  let s := (s.setInjectors cks 1 false).retime
  let s := if s.rd Reg.BU_STATUS_STATE 0 < 2 then s else s.faultRec { type := evInputLoss }
  s.saveLife.powerDirty

/-- INPUT_LOSS (R346): the input has been below 44 V for more than 20 µs. -/
def State.doInputLoss (s : State) : State :=
  let s := { s with pwr := { s.pwr with inputGone := true, ovAt := none } }
  if !s.fuseLive || s.pwr.lossAt.isSome then s
  else ((s.bump Reg.IN_EVENTS_LOSSES 0).wr Reg.IN_STATUS_LAST_TRIP 0 4).declareLoss

def execInputLoss (s : State) : Host.Outcome State Fault Refusal := .next s.doInputLoss

/-- INPUT_LOSS_CELL_OFF (Table 12.2): 600 µs after the input fell, 580 µs after the loss was declared. -/
def State.doLossCellOff (s : State) : State :=
  match s.pwr.lossAt with
  | none => s
  | some t => if s.age < t + us 580 then s else s.openFuse 0 0

def execInputLossCellOff (s : State) : Host.Outcome State Fault Refusal := .next s.doLossCellOff

/-- INPUT_DIP (R346): the bulk carries a dip of at most 20 µs. -/
def execInputDip (s : State) : Host.Outcome State Fault Refusal :=
  .next (if s.fuseLive then s.bump Reg.IN_EVENTS_DIPS 0 else s)

/-- INPUT_RETURN (R346, R371). -/
def execInputReturn (s : State) : Host.Outcome State Fault Refusal :=
  .next (if s.pwr.mated then { s with pwr := { s.pwr with inputGone := false } } else s)

/-! ### The e-fuse (R343, R345, R369, R504) -/

/-- BUSBAR_MATE (R344, R369, Table 12.5): an insertion; what only an insertion clears is cleared (R343, R512, R518). -/
def State.doMate (s : State) : State :=
  if s.pwr.pin then s
  else
    let s := { s with pwr := { s.pwr with mated := true, inputGone := false, ovAt := none, dischargeAt := none, drainAt := none }
                      tray := { s.tray with cutAt := none, restartAt := [] } }
    s.each [Reg.IN_STATUS_EFUSE, Reg.RM_STATUS_PHASE, Reg.RM_STATUS_LATCH_OPEN, Reg.RM_CTL_REQUEST, Reg.RM_CTL_DRAIN_DONE,
      Reg.TR_CMP_LOCKOUT, Reg.TR_CMP_RESTARTS_1H] fun s f => s.wr f 0 0

def execBusbarMate (s : State) : Host.Outcome State Fault Refusal := .next s.doMate

/-- ENABLE_PIN_MATE (R504). -/
def execEnablePinMate (s : State) : Host.Outcome State Fault Refusal :=
  .next (if s.pwr.mated then { s with pwr := { s.pwr with pin := true } } else s)

/-- ENABLE_PIN_BREAK (R504): the e-fuse opens, whatever its state; with the latch closed the break is handled as an input
loss. -/
def State.doPinBreak (s : State) : State :=
  if !s.pwr.pin then s
  else
    let live := s.fuseLive
    let s := { s with pwr := { s.pwr with pin := false, mated := false, precharge := none } }
    let s := if live then ((s.wr Reg.IN_STATUS_EFUSE 0 0).wr Reg.IN_STATUS_COOLANT_WAIT 0 0).bump Reg.IN_EVENTS_TRIPS 0 else s
    if live && s.rd Reg.RM_STATUS_LATCH_OPEN 0 == 0 && s.pwr.lossAt.isNone then
      ((s.bump Reg.IN_EVENTS_LOSSES 0).wr Reg.IN_STATUS_LAST_TRIP 0 4).declareLoss
    else s

def execEnablePinBreak (s : State) : Host.Outcome State Fault Refusal := .next s.doPinBreak

/-- Flow (0.1 L/min) and inlet (0.1 °C) within R369. -/
def coolantOk (flow inlet : Nat) : Bool := decide (240 ≤ flow) && decide (200 ≤ inlet) && decide (inlet ≤ 450)

/-- May PRECHARGE begin (R504, R346, R512, R370)? -/
def State.mayPrecharge (s : State) : Bool :=
  s.pwr.pin && !s.pwr.inputGone && s.pwr.ovAt.isNone && s.pwr.lossAt.isNone && s.rd Reg.IN_STATUS_EFUSE 0 == 0 &&
    s.tray.cutAt.isNone && s.rd Reg.TR_CMP_LOCKOUT 0 == 0 && (s.rd Reg.RM_STATUS_PHASE 0 == 0 || s.rd Reg.RM_STATUS_PHASE 0 == 5)

/-- PRECHARGE begins. -/
def State.beginPrecharge (s : State) : State :=
  let s := (s.wr Reg.IN_STATUS_EFUSE 0 1).wr Reg.BU_STATUS_STATE 0 1
  { s with pwr := { s.pwr with precharge := some s.age, dischargeAt := none, ovAt := none }
           boot := { s.boot with beganAt := s.age, enteredAt := s.age } }

/-- PRECHARGE (R345, R369): input and bulk voltage (mV), and what the standby side reads of the coolant. The e-fuse turns on
once the bulk is within 2 V of the input; COOLANT_WAIT while the coolant is out of range. -/
def State.doPrecharge (s : State) (vin vbulk flow inlet : Nat) : State :=
  let s := if s.mayPrecharge then s.beginPrecharge else s
  if s.rd Reg.IN_STATUS_EFUSE 0 ≠ 1 then s
  else
    let s := (s.wr Reg.IN_STATUS_VIN 0 vin).wr Reg.IN_STATUS_VBULK 0 vbulk
    if vbulk + 2000 < vin then s
    else
      let s := { s with pwr := { s.pwr with precharge := none } }
      (s.wr Reg.IN_STATUS_EFUSE 0 2).wr Reg.IN_STATUS_COOLANT_WAIT 0 (b2n (!coolantOk flow inlet))

def execPrecharge (vin : Nat) (vbulk : Nat) (flow : Nat) (inlet : Nat) (s : State) : Host.Outcome State Fault Refusal :=
  .next (s.doPrecharge vin vbulk flow inlet)

/-- PRECHARGE_TIMEOUT (R343, R345). -/
def State.doPrechargeTimeout (s : State) : State :=
  match s.pwr.precharge with
  | none => s
  | some t => if s.age < t + us 150000 then s else (s.openFuse 3 0).wr Reg.IN_STATUS_LAST_TRIP 0 3

def execPrechargeTimeout (s : State) : Host.Outcome State Fault Refusal := .next s.doPrechargeTimeout

/-- COOLANT_WAIT_END (R369): time held is not counted in the bring-up (R430). -/
def State.doCoolantEnd (s : State) (flow inlet : Nat) : State :=
  if s.rd Reg.IN_STATUS_COOLANT_WAIT 0 = 1 ∧ coolantOk flow inlet then
    let s := s.wr Reg.IN_STATUS_COOLANT_WAIT 0 0
    let held := s.age - s.boot.enteredAt
    { s with boot := { s.boot with beganAt := s.boot.beganAt + held, enteredAt := s.age } }
  else s

def execCoolantWaitEnd (flow : Nat) (inlet : Nat) (s : State) : Host.Outcome State Fault Refusal := .next (s.doCoolantEnd flow inlet)

/-- OVERCURRENT_TRIP (R343): latched until the next insertion. -/
def execOvercurrentTrip (s : State) : Host.Outcome State Fault Refusal :=
  .next (if s.fuseLive then ((s.openFuse 3 0).wr Reg.IN_STATUS_LAST_TRIP 0 1).powerDirty else s)

/-- OVERVOLTAGE_TRIP (R343). -/
def State.doOvervoltage (s : State) : State :=
  if s.fuseLive then
    let s := ((s.openFuse 0 0).wr Reg.IN_STATUS_LAST_TRIP 0 2).powerDirty
    { s with pwr := { s.pwr with ovAt := some s.age } }
  else s

def execOvervoltageTrip (s : State) : Host.Outcome State Fault Refusal := .next s.doOvervoltage

/-- OVERVOLTAGE_RECOVERY (R343): the e-fuse recloses through precharge. -/
def State.doOvRecovery (s : State) : State :=
  match s.pwr.ovAt with
  | none => s
  | some t =>
    let u := { s with pwr := { s.pwr with ovAt := none } }
    if t + us 100000 ≤ s.age ∧ u.mayPrecharge then u.beginPrecharge else s

def execOvervoltageRecovery (s : State) : Host.Outcome State Fault Refusal := .next s.doOvRecovery

/-! ### Cells and VLNK (R349 to R352, Table 12.4) -/

/-- The tile whose cell is the second VLNK feed of a tile (R349). -/
def altFeed (t : Nat) : Nat := if t = 0 then 1 else if t % 6 = 0 then t - 6 else t - 1

/-- The vats that hold clusters of a tile. -/
def State.tileHolders (s : State) (t : Nat) : List Nat := ((List.range 6).flatMap fun l => s.holders t l).dedup

/-- Migrations, tests, power-ups and failed substitutions of a tile whose dies are dark end. -/
def State.dropSiteWork (s : State) (t : Nat) : State :=
  let s := match s.flt.migrs.find? fun m => m.tile == t with
    | some m => s.endMigr m 3
    | none => s
  let s := s.each (s.flt.substs.filter fun x => x.tile == t && x.byCmd) fun s _ => s.endSite t 3
  { s with flt := { s.flt with substs := s.flt.substs.filter fun x => x.tile != t
                               tests := s.flt.tests.filter fun x => x.tile != t
                               lossQueue := s.flt.lossQueue.filter fun e => e.1 / 8 != t }
           pwr := { s.pwr with ups := s.pwr.ups.filter fun u => u.tile != t
                               limiting := s.pwr.limiting.filter (· != t), hot := s.pwr.hot.filter (· != t) } }

/-- The seven dies of a tile are dark, with what its main rail feeds (Table 12.4): vats held, cores abandoned, memories
lost, the T3 port down. Answers the vats. -/
def State.diesDark (s : State) (t : Nat) : State × List Nat :=
  let vs := s.tileHolders t
  let s := s.dropSiteWork t
  let s := s.each vs fun s v => s.faultHold v true
  let s := s.each ((List.range 7).flatMap (coresOfDie t)) State.abandon
  let s := s.each (List.range 7) fun s p => s.closeDieLink t p
  let s := s.each (List.range 2) fun s k => s.wr Reg.T2_STATE_LOST (t * 2 + k) 1
  let s := s.each ((List.range 24).filter fun n => stackTile n == t) fun s n => s.wr Reg.TM_STATE_LOST n 1
  let s := s.each ((List.range 8).filter fun p => t3Tile p == t) State.doT3Down
  let s := s.each ((s.tier.mv.map Prod.fst).filter fun m => m / 4 == t) fun s m => match s.mvRun? m with
    | some r => s.dropRing m r.ring
    | none => s
  (((s.wr Reg.PW_POWER_P1MS t 0).wr Reg.PW_STATUS_LOAD_PCT t 0).wr Reg.PW_STATUS_LIMITING t 0, vs)

/-- A tile's VLNK is down beside its dies (Table 12.4): links INVALID both ways, its express and reach ports down, packets
in its router gone. Answers the vats held. -/
def State.vlnkDark (s : State) (t : Nat) : State × List Nat :=
  let s := s.wr Reg.PW_STATUS_VLNK_GOOD t 0
  let ports := (([0, 1, 2, 3, 8, 9, 10, 11, 12, 13] : List Nat).map fun p => (t, p)) ++ (List.range 4).filterMap fun p => (neighbour t p).map fun n => (n, oppPort p)
  let (s, vs) := ports.foldl (fun r x => let (s, v) := r.1.invalidate x.1 x.2; (s, r.2 ++ v)) (s, [])
  let s := s.each ((List.range 4).flatMap fun l => linkEnds t l) fun s i => if s.rd Reg.LK_STATUS_STATE i = 3 then s else s.wr Reg.LK_STATUS_STATE i 0
  let s := (s.retireExpress t false 0).retireExpress t true 0
  let s := s.each ((List.range 32).filter fun p => reachHost p == t) State.retireReach
  let gone := s.fab.net.filter fun p => p.at_ == t
  ({ s with fab := { s.fab with net := s.fab.net.filter fun p => !gone.any fun g => g.pid == p.pid }
            sch := { s.sch with arrivals := s.sch.arrivals.filter fun a => a.tile != t
                                repairs := s.sch.repairs.filter fun r => r.a.tile != t
                                stage := mkeep (fun k => k / 256 != t) s.sch.stage
                                stageIn := mkeep (fun k => k / 256 != t) s.sch.stageIn }
            ren := { s.ren with staged := s.ren.staged.filter fun g => g.t != t, wins := s.ren.wins.filter fun w => w.t != t } }, vs)

/-- The tiles that a tile's cell feeds lose that feed; those left with no feed. -/
def State.dropFeeds (s : State) (t : Nat) : State × List Nat :=
  let fed := (List.range 36).filter fun u => altFeed u == t && s.rd Reg.PW_STATUS_FEED_ALT u == 1
  let s := s.each fed fun s u => (s.wr Reg.PW_STATUS_FEED_ALT u 0).wr Reg.PW_STATUS_VLNK_RED u 1
  (s, fed.filter fun u => s.vlnk u && s.rd Reg.PW_STATUS_FEED_OWN u == 0)

/-- A tile goes down: its cell off with code `cell`, TRIP `trip`, and a record of a type for each vat held. -/
def State.downOne (s : State) (t cell trip type : Nat) : State × List Nat :=
  let s := s.each [(Reg.PW_STATUS_CELL, cell), (Reg.PW_STATUS_TRIP, trip), (Reg.PW_STATUS_FEED_OWN, 0), (Reg.PW_STATUS_FEED_ALT, 0),
    (Reg.PW_STATUS_VLNK_RED, 0)] fun s x => s.wr x.1 t x.2
  let (s, a) := s.diesDark t
  let (s, b) := s.vlnkDark t
  (s.recEach (a ++ b).dedup { type := type, tile := t }).powerDirty.dropFeeds t

/-- Tiles go down one after another while a tile is left without a VLNK feed (R349, R352). -/
def State.downAll : Nat → List Nat → State → State
  | 0, _, s => s
  | _, [], s => s
  | n + 1, t :: r, s =>
    let (s, more) := s.downOne t 4 4 evVlnkLost
    State.downAll n (r ++ more) s

/-- A tile goes down, and with it tiles that only its cell fed. -/
def State.tileDown (s : State) (t cell trip type : Nat) : State :=
  let (s, more) := s.downOne t cell trip type
  State.downAll 36 more s

/-- CELL_SHORT (R351, R353, Table 12.4): overcurrent or undervoltage opens the cell's output; VLNK stays on the other
feed. -/
def State.doCellShort (s : State) (t : Nat) (under : Bool) : State :=
  if !s.cellOn t then s
  else
    let s := ((s.wr Reg.PW_STATUS_CELL t 3).wr Reg.PW_STATUS_TRIP t (if under then 2 else 1)).wr Reg.PW_STATUS_FEED_OWN t 0
    let (s, vs) := s.diesDark t
    let s := (s.recEach vs { type := evRailShort, tile := t }).powerDirty
    let (s, more) := s.dropFeeds t
    if s.rd Reg.PW_STATUS_FEED_ALT t = 1 then State.downAll 36 more (s.wr Reg.PW_STATUS_VLNK_RED t 1)
    else State.downAll 36 (t :: more) s

def execCellShort (t : Tile) (under : Bool) (s : State) : Host.Outcome State Fault Refusal := .next (s.doCellShort t.val under)

/-- VLNK_LOSS (R352): overcurrent opens both feed fuses, or VLNK falls below 0.45 V. -/
def execVlnkLoss (t : Tile) (under : Bool) (s : State) : Host.Outcome State Fault Refusal :=
  .next (if s.vlnk t.val then s.tileDown t.val 4 (if under then 4 else 3) evVlnkLost else s)

/-- VLNK_FEED_LOSS (R349): one feed fuse opens; a tile left without a feed loses VLNK. -/
def State.doFeedLoss (s : State) (t : Nat) (own : Bool) : State :=
  if !s.vlnk t then s
  else
    let s := (s.wr (if own then Reg.PW_STATUS_FEED_OWN else Reg.PW_STATUS_FEED_ALT) t 0).wr Reg.PW_STATUS_VLNK_RED t 1
    if s.rd Reg.PW_STATUS_FEED_OWN t = 0 ∧ s.rd Reg.PW_STATUS_FEED_ALT t = 0 then s.tileDown t 4 4 evVlnkLost else s

def execVlnkFeedLoss (t : Tile) (own : Bool) (s : State) : Host.Outcome State Fault Refusal := .next (s.doFeedLoss t.val own)

/-- Enters a number into a rising list. -/
def insertUp (x : Nat) : List Nat → List Nat
  | [] => [x]
  | y :: r => if x ≤ y then x :: y :: r else y :: insertUp x r

/-- Twice the median of a list. -/
def median2 (l : List Nat) : Nat :=
  let r := l.foldr insertUp []
  r.getD ((l.length - 1) / 2) 0 + r.getD (l.length / 2) 0

/-- SENSOR_EXCLUSION (R350): the readings of a domain's 64 sensors, mV. Those more than 80 mV below the median are excluded;
beyond 8 the tile is reported, once. -/
def State.doSensor (s : State) (t dom : Nat) (mv : List Nat) : State :=
  if !s.cellOn t || mv.length != 64 then s
  else
    let out (x : Nat) : Bool := decide (2 * x + 160 < median2 mv)
    let low := (mv.filter fun x => !out x).foldl min 4095
    let s := ((s.wr Reg.PW_DOM_MIN_MV t low dom).wr Reg.PW_DOM_MIN_SENSOR t (mv.findIdx (· == low)) dom).wr Reg.PW_DOM_EXCLUDED t
      (mv.filter out).length dom
    if 8 < s.rd Reg.PW_DOM_EXCLUDED t dom ∧ s.rd Reg.PW_STATUS_SENSOR_BAD t = 0 then
      (s.wr Reg.PW_STATUS_SENSOR_BAD t 1).faultRec { type := evSensorBad, tile := t, d0 := dom }
    else s

def execSensorExclusion (t : Tile) (dom : Fin 5) (mv : List Nat) (s : State) : Host.Outcome State Fault Refusal :=
  .next (s.doSensor t.val dom.val mv)

/-! ### Heartbeats (R400) -/

/-- HEARTBEAT. -/
def execHeartbeat (t : Tile) (s : State) : Host.Outcome State Fault Refusal :=
  .next (if s.vlnk t.val then { s with flt := { s.flt with beats := mset 0 s.flt.beats t.val (s.now + 1) } } else s)

/-- HEARTBEAT_LOSS: 100 µs without a heartbeat; the watcher, which must itself work, shuts the silent tile's cell down. -/
def State.doBeatLoss (s : State) (t : Nat) : State :=
  if !s.vlnk t || !s.cellOn t || !s.vlnk (altFeed t) || decide (s.now < mget 0 s.flt.beats t - 1 + us 100) then s
  else s.tileDown t 4 0 evTileCtlLost

def execHeartbeatLoss (t : Tile) (s : State) : Host.Outcome State Fault Refusal := .next (s.doBeatLoss t.val)

/-! ### Removal (R370, R371) -/

/-- Pin 14 of the management connector is low: from a remove request until PHASE reads 4 or 5, while the busbar is live (Table 18.4,
R505). -/
def State.removeN (s : State) : Bool :=
  s.pwr.mated && !s.pwr.inputGone && [1, 2, 3, 6].contains (s.rd Reg.RM_STATUS_PHASE 0)

/-- From DRAIN_DONE (Table 12.6): services stop, the life counters are saved, the cells go off, the e-fuse opens, the bulk
is discharged. -/
def State.shutDown (s : State) : State := ((s.wr Reg.RM_STATUS_PHASE 0 2).saveLife).openFuse 0 0

/-- A remove request: from the button, from REQUEST or from management (R370, R450, R512). -/
def State.removeRequest (s : State) : State :=
  let ph := s.rd Reg.RM_STATUS_PHASE 0
  if (1 ≤ ph ∧ ph ≤ 4) ∨ !s.pwr.mated then s
  else
    let s := (s.wr Reg.RM_CTL_REQUEST 0 1).wr Reg.RM_CTL_DRAIN_DONE 0 0
    if !s.fuseLive then
      let s := { s with tray := { s.tray with cutAt := none }
                        pwr := { s.pwr with ovAt := none, dischargeAt := some (s.pwr.dischargeAt.getD s.age) } }
      s.wr Reg.RM_STATUS_PHASE 0 3
    else if s.rd Reg.BU_STATUS_STATE 0 ≠ 12 then s.shutDown
    else
      let s := ({ s with pwr := { s.pwr with drainAt := some s.age } }).wr Reg.RM_STATUS_PHASE 0 1
      let s := s.event (4 + s.ownMod * 2 ^ 16)
      if s.vats = [] then s.shutDown else s

/-- REMOVE_REQUEST. -/
def execRemoveRequest (s : State) : Host.Outcome State Fault Refusal := .next s.removeRequest

/-- DRAIN_DONE (R370, Table 12.6). -/
def execDrainDone (s : State) : Host.Outcome State Fault Refusal :=
  .next (let s := s.wr Reg.RM_CTL_DRAIN_DONE 0 1
    if s.rd Reg.RM_STATUS_PHASE 0 = 1 then s.shutDown else s)

/-- DRAIN_TIMEOUT (R370): refused, or, with FORCE, every vat abandoned and the shutdown. -/
def State.doDrainTimeout (s : State) : State :=
  match s.pwr.drainAt with
  | none => s
  | some t =>
    if s.rd Reg.RM_STATUS_PHASE 0 ≠ 1 ∨ s.age < t + us (s.rd Reg.RM_CTL_DRAIN_TIMEOUT 0 * 10 ^ 6) then s
    else
      let s := { s with pwr := { s.pwr with drainAt := none } }
      if s.rd Reg.RM_CTL_FORCE 0 = 1 then (s.releaseVats (s.vats.map Vat.id)).shutDown
      else (s.wr Reg.RM_STATUS_PHASE 0 5).wr Reg.RM_CTL_REQUEST 0 0

def execDrainTimeout (s : State) : Host.Outcome State Fault Refusal := .next s.doDrainTimeout

/-- LATCH_RELEASE (R344, R371): the bulk holds 1 J or less, and the busbar is live. -/
def State.doLatch (s : State) (vbulk : Nat) : State :=
  if s.rd Reg.RM_STATUS_PHASE 0 ≠ 3 ∨ 12900 < vbulk ∨ s.pwr.inputGone then s
  else
    let s := ((s.wr Reg.IN_STATUS_VBULK 0 vbulk).wr Reg.RM_STATUS_PHASE 0 4).wr Reg.RM_STATUS_LATCH_OPEN 0 1
    { (s.wr Reg.RM_CTL_REQUEST 0 0) with pwr := { s.pwr with dischargeAt := none } }

def execLatchRelease (vbulk : Nat) (s : State) : Host.Outcome State Fault Refusal := .next (s.doLatch vbulk)

/-- DISCHARGE_FAILURE (R371): above 12.9 V 2 s after the discharge began, the latch stays closed. -/
def State.doDischargeFailure (s : State) (vbulk : Nat) : State :=
  match s.pwr.dischargeAt with
  | none => s
  | some t =>
    if vbulk ≤ 12900 ∨ s.age < t + us 2000000 then s else (s.wr Reg.IN_STATUS_VBULK 0 vbulk).wr Reg.RM_STATUS_PHASE 0 6

def execDischargeFailure (vbulk : Nat) (s : State) : Host.Outcome State Fault Refusal := .next (s.doDischargeFailure vbulk)

end Sys2Proof.Machine
end

