-- ==== Sys2Proof/Machine/Reset.lean ====
section
/-! DEFINITION. Compute resets of scopes 1 to 4 (15.8). -/

namespace Sys2Proof.Machine

/-- STATE of the bring-up (Table 15.9). -/
def State.buSt (s : State) : Nat := s.rd Reg.BU_STATUS_STATE 0

/-- Is the module READY and its input good? -/
def State.ready (s : State) : Bool := s.buSt == 12 && s.pwr.lossAt.isNone

/-- Is a die mapped and powered? -/
def State.dieActive (s : State) (t p : Nat) : Bool := s.cellOn t && s.siteSt t p == 1

/-- The cores of the active dies of a tile, and of the module. -/
def State.tileCores (s : State) (t : Nat) : List Nat := ((List.range 7).filter (s.dieActive t)).flatMap (coresOfDie t)
def State.moduleCores (s : State) : List Nat := (List.range 36).flatMap s.tileCores

/-- RST_STATUS of a reset that ends at once, or of one that starts (Table 15.9). -/
def State.endRst (s : State) (result : Nat) : State := (s.wr Reg.RST_STATUS_DONE 0 1).wr Reg.RST_STATUS_RESULT 0 result
def State.beginRst (s : State) (scope : Nat) : State := (s.wr Reg.RST_STATUS_BUSY 0 1).wr Reg.RST_STATUS_SCOPE 0 scope

/-- Vats with an affected core go into fault-hold with RESUMABLE = 0, unless held, paused or released already (R456); their flags and
arrivals, and those of their sub-vats, are cleared (R281). -/
def State.holdReset (s : State) (cores : List Nat) : State :=
  let ids := (s.vats.filter fun v => (s.vatClus v.id).any fun ck => cores.any fun c => cluOfCore c == ck).map Vat.id
  let s := s.each ids fun s id => match s.vat? id with
    | some v => if v.run = .held ∨ v.run = .paused ∨ v.killing.isSome then s else s.faultHold id true
    | none => s
  s.clearFlags ((ids.flatMap s.subtree).dedup)

/-- R456 steps 1 and 2; the reload (R448) and what follows it come core by core with CULTURE_RELOAD. -/
def State.runReset (s : State) (scope : Nat) (cores : List Nat) : State :=
  let s := ((s.holdReset cores).each cores State.resetCore).clearUps (cores.map (· / 256)).dedup
  let s := if scope = 4 then s.freshForecast else s
  ({ s with boot := { s.boot with rst := some (scope, cores, cores), rstWait := none } }).beginRst scope

/-- Starts a compute reset, or keeps it until the site-map change in a tile of its own has ended (R457). -/
def State.startReset (s : State) (scope : Nat) (cores : List Nat) : State :=
  if cores.any fun c => s.siteBusy (c / 256) then
    ({ s with boot := { s.boot with rst := none, rstWait := some (scope, cores) } }).beginRst scope
  else s.runReset scope cores

/-- A reset that waited for a site-map change (R457). -/
def State.retryReset (s : State) : State :=
  match s.boot.rstWait with
  | some (scope, cores) => if cores.any fun c => s.siteBusy (c / 256) then s else s.runReset scope cores
  | none => s

/-- The cores of the reset that runs or waits. -/
def State.rstTarget (s : State) : Option (List Nat) :=
  match s.boot.rst, s.boot.rstWait with
  | some r, _ => some r.2.1
  | none, some w => some w.2
  | none, none => none

/-- A request for a compute reset (R450, R455 to R457): RESULT where it ends at once; a covered one ends with the running
reset, one that contains its target takes it over. -/
def State.askReset (s : State) (scope : Nat) (cores : List Nat) : State × Option Nat :=
  if s.buSt < 2 ∨ s.pwr.lossAt.isSome then (s, none)
  else if s.buSt ≠ 12 then (s.endRst 1, some 1)
  else if cores = [] then (s.endRst 2, some 2)
  else match s.rstTarget with
    | none => (s.startReset scope cores, none)
    | some t =>
      if cores.all t.contains then (s, none)
      else if t.all cores.contains then (s.startReset scope cores, none)
      else (s.endRst 1, some 1)

/-- CORE_RESET. -/
def State.coreReset (s : State) (core : Nat) : State :=
  (s.askReset 1 (if s.dieActive (core / 256) (core / 32 % 8) then [core] else [])).1

def execCoreReset (c : Core) (s : State) : Host.Outcome State Fault Refusal := .next (s.coreReset (coreKey c))

/-- DIE_COMPUTE_RESET. -/
def State.dieReset (s : State) (t p : Nat) : State := (s.askReset 2 (if s.dieActive t p then coresOfDie t p else [])).1

def execDieComputeReset (t : Tile) (ps : PSite) (s : State) : Host.Outcome State Fault Refusal := .next (s.dieReset t.val ps.val)

/-- TILE_COMPUTE_RESET. -/
def State.tileReset (s : State) (t : Nat) : State := (s.askReset 3 (s.tileCores t)).1

def execTileComputeReset (t : Tile) (s : State) : Host.Outcome State Fault Refusal := .next (s.tileReset t.val)

/-- PANEL_COMPUTE_RESET. -/
def execPanelComputeReset (s : State) : Host.Outcome State Fault Refusal := .next (s.askReset 4 s.moduleCores).1

end Sys2Proof.Machine
end

