-- ==== Sys2Proof/Machine/Clocks.lean ====
section
/-! DEFINITION. Clocks, skew, margins, stretch and time (13), and the two slot commands (8.8). -/

namespace Sys2Proof.Machine

/-! ### Forwarded clocks (R376 to R380) -/

/-- The neighbour that a SOURCE code names: 1 west, 2 north, 3 east, 4 south. -/
def srcTile (t code : Nat) : Option Nat :=
  if code = 1 then neighbour t 3 else if code = 2 then neighbour t 0 else if code = 3 then neighbour t 1
  else if code = 4 then neighbour t 2 else none

/-- The order of R377. -/
def srcOrder (t : Nat) : List Nat :=
  let first := if t = 0 then 3 else if t % 6 = 0 then 2 else 1
  first :: ([2, 3, 4, 1] : List Nat).filter (· != first)

/-- Forwarding hops from the tile whose PLL drives a tile; none where the chain ends in no clock, or comes back to `bar`. -/
def State.clockHops (s : State) (bar : Nat) : Nat → Nat → Option Nat
  | 0, _ => none
  | n + 1, t =>
    if t = bar ∨ !s.vlnk t then none
    else
      let c := s.rd Reg.CK_STATUS_SOURCE t
      if c = 0 then some 0 else (srcTile t c).bind fun u => (s.clockHops bar n u).map (· + 1)

/-- The source a tile takes (R377): the first neighbour with VLNK and a clock that is not the tile's own, fewer than 10 hops
from its PLL. -/
def State.pickSource (s : State) (t : Nat) : Option Nat :=
  (srcOrder t).find? fun c => ((srcTile t c).bind (s.clockHops t 12)).any fun h => decide (h < 10)

/-- CHAIN of every tile. -/
def State.showChains (s : State) : State :=
  s.each (List.range 36) fun s t => s.wr Reg.CK_STATUS_CHAIN t ((s.clockHops 36 12 t).getD 0)

/-- A tile takes its forwarded clock. -/
def State.takeSource (s : State) (t : Nat) : State := s.wr Reg.CK_STATUS_SOURCE t ((s.pickSource t).getD 5)

/-- PLL_LOSS_OF_LOCK (R378, R379): the tile asks for a held slot in which it takes a forwarded clock; the third loss within
1 s retires the PLL. A tile whose source has gone takes another in the same way. -/
def State.doUnlock (s : State) (t : Nat) : State :=
  if !s.clk.started || !s.vlnk t then s
  else
    let c := s.rd Reg.CK_STATUS_SOURCE t
    let gone := c != 0 && ((srcTile t c).bind (s.clockHops t 12)).isNone
    let locked := s.rd Reg.CK_STATUS_PLL_LOCK t == 1
    if !locked && !gone then s
    else
      let l := (mget [] s.clk.unlocks t).filter fun u => decide (s.now < u + us (10 ^ 6))
      let s := if locked then
          let s := { s with clk := { s.clk with unlocks := mset [] s.clk.unlocks t (l ++ [s.now])
                                                pllBack := s.clk.pllBack.filter (· != t) } }
          let s := (s.wr Reg.CK_STATUS_PLL_LOCK t 0).bump Reg.CK_EVENTS_UNLOCKS t
          if 2 ≤ l.length then s.wr Reg.CK_STATUS_PLL_RETIRED t 1 else s
        else s
      if (c = 0 || gone) && (s.pickSource t).isSome && !s.clk.pllOut.contains t then
        (({ s with clk := { s.clk with pllOut := s.clk.pllOut ++ [t] } }).askHold t).faultRec { type := evClockFallback, tile := t }
      else s

def execPllLossOfLock (t : Tile) (s : State) : Host.Outcome State Fault Refusal := .next (s.doUnlock t.val)

/-- PLL_RETURN (R379): the PLL has held lock for 100 µs; a retired one stays unused. -/
def State.doPllReturn (s : State) (t : Nat) : State :=
  let since := (mget [] s.clk.unlocks t).getLastD 0
  if !s.clk.started || !s.vlnk t || s.rd Reg.CK_STATUS_SOURCE t == 0 || s.rd Reg.CK_STATUS_PLL_RETIRED t == 1 ||
      decide (s.now < since + us 100) || s.clk.pllBack.contains t then s
  else (({ s with clk := { s.clk with pllBack := s.clk.pllBack ++ [t] } }).wr Reg.CK_STATUS_PLL_LOCK t 1).askHold t

def execPllReturn (t : Tile) (s : State) : Host.Outcome State Fault Refusal := .next (s.doPllReturn t.val)

/-- NO_CLOCK_SOURCE (R380): no PLL and no source: as a short on VLNK. -/
def State.doNoClock (s : State) (t : Nat) : State :=
  if s.clk.started && s.vlnk t && s.rd Reg.CK_STATUS_PLL_LOCK t == 0 && (s.pickSource t).isNone then s.tileDown t 4 0 evVlnkLost else s

def execNoClockSource (t : Tile) (s : State) : Host.Outcome State Fault Refusal := .next (s.doNoClock t.val)

/-- REFERENCE_SWITCH (R375). -/
def execReferenceSwitch (s : State) : Host.Outcome State Fault Refusal :=
  .next (if s.rd Reg.BU_STATUS_STATE 0 < 4 then s
    else (s.wr Reg.TM_STATUS_REF_SEL 0 (1 - s.rd Reg.TM_STATUS_REF_SEL 0)).bump Reg.TM_EVENTS_REF_SWITCHES 0)

/-- REFERENCE_BOTH_FAIL (R375): the sequence of Table 12.2. -/
def execReferenceBothFail (s : State) : Host.Outcome State Fault Refusal :=
  .next (if s.rd Reg.BU_STATUS_STATE 0 < 4 ∨ s.pwr.lossAt.isSome then s else s.declareLoss)

/-! ### Slots -/

/-- SLOT_BOUNDARY: the scheduled plane (R210 to R219, R235), then what waits for a boundary: settings (R390), migrations
(R413), resets (R457) and, where a frame begins, disables (R420, R421). -/
def State.doSlot (s : State) : State :=
  if s.clk.started then
    (((s.doSlotBoundary.retireChans.runDivs).each s.flt.migrs State.stepMigr).retryReset).runDisables
  else s

def execSlotBoundary (s : State) : Host.Outcome State Fault Refusal := .next s.doSlot

/-- Tiles that wait for a held slot change their clock source in it (R378, R379). -/
def State.switchClocks (s : State) : State :=
  let s := s.each s.clk.pllOut State.takeSource
  let s := s.each s.clk.pllBack fun s t => s.wr Reg.CK_STATUS_SOURCE t 0
  ({ s with clk := { s.clk with pllOut := [], pllBack := [] } }).showChains

/-- HELD_SLOT (R236, R237, R378): a held slot passes. -/
def State.doHeldSlot (s : State) : State :=
  if !s.clk.started || !s.sch.inHeld then s
  else
    let s := if s.clk.pllOut = [] ∧ s.clk.pllBack = [] then s else s.switchClocks
    s.endHeld.runDivs

def execHeldSlot (s : State) : Host.Outcome State Fault Refusal := .next s.doHeldSlot

/-! ### Margins (R383 to R386) -/

/-- Table 13.3: the size of a stretch event, in P; 0 for a margin above the threshold. -/
def stretchSize (th m : Nat) : Nat :=
  if m = 0 then 4
  else if th ≤ m + 1 ∧ m ≤ th then 1
  else if th ≤ m + 3 ∧ m + 2 ≤ th then 2
  else if m + 4 ≤ th then 3
  else 0

/-- A path that has reported 0 for 1 ms is broken when the other paths of its die report 8 or more (R383). -/
def PathReport.isBroken (l : List PathReport) (r : PathReport) : Bool :=
  r.broken && r.slack == 0 && l.all fun o => o.site != r.site || o.path == r.path || decide (8 ≤ o.slack.toNat)

/-- A path's report (R383), one of those of `l`: a broken path is excluded; CK_SITE keeps the smallest since the last read. -/
def State.pathReport (s : State) (t : Nat) (l : List PathReport) (r : PathReport) : State :=
  let i := r.site.val
  let bad := s.rd Reg.CK_SITE_REPLICA_BAD t i
  let s := if PathReport.isBroken l r && !bitOf bad r.path.val then s.wr Reg.CK_SITE_REPLICA_BAD t (bad + 2 ^ r.path.val) i else s
  if bitOf (s.rd Reg.CK_SITE_REPLICA_BAD t i) r.path.val || decide (s.rd Reg.CK_SITE_MIN_MARGIN t i ≤ r.slack.toNat) then s
  else (s.wr Reg.CK_SITE_MIN_MARGIN t r.slack.toNat i).wr Reg.CK_SITE_MIN_PATH t r.path.val i

/-- Does a path count in its tile's margin (R383)? Those of the base die and of the powered dies do, broken ones and those
of a die on its ramp do not. -/
def State.pathCounts (s : State) (t : Nat) (r : PathReport) : Bool :=
  let i := r.site.val
  !bitOf (s.rd Reg.CK_SITE_REPLICA_BAD t i) r.path.val && (if i = 7 then decide (r.path.val < 8)
    else s.dieOn t i && !(s.pwr.ups.any fun u => u.tile == t && u.site == i && u.rampAt.isSome))

/-- STRETCH_EVENT (R383, R384): the replica paths report; the smallest report is the tile's margin. -/
def State.doStretch (s : State) (t : Nat) (l : List PathReport) : State :=
  let s := if s.clk.started && s.vlnk t then s.each (l.filter fun r => decide (r.site.val < 7) || decide (r.path.val < 8)) fun s r =>
    s.pathReport t l r else s
  let l := l.filter (s.pathCounts t)
  if !s.clk.started || !s.vlnk t || l.isEmpty then s
  else
    let m := l.foldl (fun a r => min a r.slack.toNat) 63
    let s := s.wr Reg.CK_STATUS_MARGIN t m
    let lo := mget 0 s.cong.margin t
    let s := { s with cong := { s.cong with margin := mset 0 s.cong.margin t (if lo = 0 then m + 1 else min lo (m + 1)) } }
    let n := stretchSize (s.rd Reg.CK_CTL_STRETCH_TH t) m
    if n = 0 then s else s.stretch t n

def execStretchEvent (t : Tile) (reports : List PathReport) (s : State) : Host.Outcome State Fault Refusal :=
  .next (s.doStretch t.val reports)

/-- MARGIN_WARNING (R385): CK_F cycles at or below WARN_TH, and stretch events, of the last 100 µs (180,000 cycles). -/
def State.doMarginWarning (s : State) (t low stretches : Nat) : State :=
  if !s.clk.started || !s.vlnk t then s
  else
    let warn := decide (1800 < low) || decide (256 < stretches)
    let was := s.rd Reg.CK_STATUS_MARGIN_WARN t == 1
    let c := s.clk
    if warn && !was then
      (({ s with clk := { c with warnSince := mset 0 c.warnSince t (s.now + 1), calmSince := mset 0 c.calmSince t 0 } }).wr
        Reg.CK_STATUS_MARGIN_WARN t 1).bump Reg.CK_EVENTS_WARNINGS t
    else if !warn && was then
      ({ s with clk := { c with warnSince := mset 0 c.warnSince t 0, calmSince := mset 0 c.calmSince t (s.now + 1) } }).wr
        Reg.CK_STATUS_MARGIN_WARN t 0
    else s

def execMarginWarning (t : Tile) (lowCycles : Nat) (stretches : Nat) (s : State) : Host.Outcome State Fault Refusal :=
  .next (s.doMarginWarning t.val lowCycles stretches)

/-- VLOG_TRIM (R386, R418), in a whey slot: up by 5 mV per millisecond of warning, to 30 mV; down by 5 mV per 10 ms after 100 ms without. -/
def State.doVlogTrim (s : State) (t : Nat) : State :=
  let w := mget 0 s.clk.warnSince t
  let c := mget 0 s.clk.calmSince t
  let v := s.rd Reg.CK_STATUS_VTRIM t
  if !isWhey s.slotIx then s
  else if w ≠ 0 ∧ w - 1 + us 1000 ≤ s.now ∧ v < 30 then
    (({ s with clk := { s.clk with warnSince := mset 0 s.clk.warnSince t (w + us 1000) } }).wr Reg.CK_STATUS_VTRIM t (v + 5)).showVoltage t
  else if c ≠ 0 ∧ c - 1 + us 100000 ≤ s.now ∧ 0 < v then
    (({ s with clk := { s.clk with calmSince := mset 0 s.clk.calmSince t (c + us 10000) } }).wr Reg.CK_STATUS_VTRIM t (v - 5)).showVoltage t
  else s

def execVlogTrim (t : Tile) (s : State) : Host.Outcome State Fault Refusal := .next (s.doVlogTrim t.val)

/-- DIV_REQ (R389, R390). -/
def execDivReq (t : Tile) (setting : BitVec 2) (s : State) : Host.Outcome State Fault Refusal :=
  .next (if s.clk.started && s.vlnk t.val then s.requestDiv t.val setting.toNat else s)

/-! ### Skew (R381, R382) -/

/-- An integer kept within ±b. -/
def clampInt (b i : Int) : Int := max (-b) (min b i)

/-- The edges of a tile that carry clocks. -/
def State.edgeLive (s : State) (t e : Nat) : Bool := s.clk.started && s.vlnk t && (neighbour t e).any s.vlnk

/-- SKEW_TRIM (R381): the skew is measured at any time; in a whey slot the receiving delay line moves against it, by at most
4 ps, within ±120 ps. -/
def State.doSkewTrim (s : State) (t e : Nat) (m : Int) : State :=
  let m := clampInt 127 m
  if !s.edgeLive t e then s
  else if !isWhey s.slotIx then s.wr Reg.CK_SKEW_SKEW t (ofSigned 8 m) e
  else
    let l := clampInt 120 (toSigned 8 (s.rd Reg.CK_SKEW_TRIM t e) - clampInt 4 m)
    let s := (s.wr Reg.CK_SKEW_SKEW t (ofSigned 8 m) e).wr Reg.CK_SKEW_TRIM t (ofSigned 8 l) e
    if -35 ≤ m ∧ m ≤ 35 then
      ({ s with clk := { s.clk with skewSince := mset 0 s.clk.skewSince (t * 4 + e) 0 } }).wr Reg.CK_SKEW_SKEW_ALARM t 0 e
    else s

def execSkewTrim (t : Tile) (e : Fin 4) (measured : Int) (s : State) : Host.Outcome State Fault Refusal :=
  .next (s.doSkewTrim t.val e.val measured)

/-- SKEW_ALARM (R382): a skew outside ±35 ps that the line cannot correct; after 1 ms the edge's link is INVALID for
schedules. -/
def State.doSkewAlarm (s : State) (t e : Nat) (det : Bool) : State :=
  let m := toSigned 8 (s.rd Reg.CK_SKEW_SKEW t e)
  let l := toSigned 8 (s.rd Reg.CK_SKEW_TRIM t e)
  if !s.edgeLive t e || decide (-35 ≤ m ∧ m ≤ 35) || !(det || decide (l = 120 ∨ l = -120)) then s
  else
    let k := t * 4 + e
    let since := mget 0 s.clk.skewSince k
    if since = 0 then
      let s := { s with clk := { s.clk with skewSince := mset 0 s.clk.skewSince k (s.now + 1) }
                        lnk := { s.lnk with skewHist := (s.lnk.skewHist ++ [k]).dedup } }
      (s.wr Reg.CK_SKEW_SKEW_ALARM t 1 e).bump Reg.CK_SKEW_ALARMS t 1 e
    else if s.now < since - 1 + us 1000 then s
    else
      let ends := (t, e) :: ((neighbour t e).map fun n => (n, oppPort e)).toList
      if ends.all fun x => s.rd Reg.SCH_LINK_INVALID x.1 x.2 == 1 then s
      else
        let (s, vs) := ends.foldl (fun r x => let (s, v) := r.1.invalidate x.1 x.2; (s, r.2 ++ v)) (s, [])
        s.recEach vs.dedup { type := evLinkInvalid, tile := t, d0 := e }

def execSkewAlarm (t : Tile) (e : Fin 4) (detFailed : Bool) (s : State) : Host.Outcome State Fault Refusal :=
  .next (s.doSkewAlarm t.val e.val detFailed)

/-! ### Time (R391 to R393) -/

/-- The direction of a module's parent: towards the master in X, Y, Z order (R392, R393); the axes it differs in. -/
def parentDirs (own master : Nat) : List Nat :=
  let ax (a b d : Nat) : List Nat := if b < a then [d + 1] else if a < b then [d] else []
  ax (own % 4) (master % 4) 0 ++ ax (own / 4 % 4) (master / 4 % 4) 2 ++ ax (own / 16) (master / 16) 4

/-- The lowest-numbered up port in the first of those directions that has one. -/
def State.parentPort (s : State) : Option Nat :=
  ((parentDirs s.ownMod (s.rd Reg.TM_STATUS_MASTER_MODULE 0)).filterMap fun d =>
    (List.range 32).find? fun p => reachDir p == d && s.reachUp p).head?

/-- Does this module take its time from a parent? -/
def State.hasParent (s : State) : Bool := s.host.inSystem && s.clk.started && s.rd Reg.TM_STATUS_MASTER 0 == 0

/-- The parent port in use; a change is counted. -/
def State.usePort (s : State) (p : Nat) : State :=
  if s.rd Reg.TM_STATUS_PARENT_PORT 0 = p then s else (s.wr Reg.TM_STATUS_PARENT_PORT 0 p).bump Reg.TM_EVENTS_PARENT_CHANGES 0

/-- TIME_EXCHANGE (R392, R393): the offset to the parent (its time minus the module's, ps) and the rate (ppb) that steers it.
The first exchange before READY sets the timestamp in one step; after that it never steps. -/
def State.doTimeExchange (s : State) (offset rate : Int) : State :=
  match (if s.hasParent then s.parentPort else none) with
  | none => s
  | some p =>
    let s := (s.usePort p).wr Reg.TM_STATUS_HOLDOVER 0 0
    let s := if s.clk.synced ∨ s.rd Reg.BU_STATUS_STATE 0 = 12 then
        (s.wr Reg.TM_SERVO_OFFSET 0 (ofSigned 32 offset)).wr Reg.TM_STATUS_LOCKED 0 (b2n (decide (-2000 ≤ offset ∧ offset ≤ 2000)))
      else
        let s := (s.wr Reg.TM_SERVO_OFFSET 0 0).wr Reg.TM_STATUS_LOCKED 0 1
        { s with now := ((s.now : Int) + offset * 9 / 10000).toNat % 2 ^ 64, clk := { s.clk with synced := true } }
    s.wr Reg.TM_SERVO_RATE 0 (ofSigned 32 (clampInt 100000 rate))

def execTimeExchange (offset : Int) (rate : Int) (s : State) : Host.Outcome State Fault Refusal :=
  .next (s.doTimeExchange offset rate)

/-- TIME_MASTER_CHANGE (R393): the lowest-numbered module that is up is the master; no step. -/
def State.doMasterChange (s : State) (up : List Nat) : State :=
  if !s.host.inSystem then s
  else
    let m := up.foldl min s.ownMod
    let same := s.rd Reg.TM_STATUS_MASTER_MODULE 0 = m
    let s := if same then s else (s.wr Reg.TM_STATUS_MASTER_MODULE 0 m).bump Reg.TM_EVENTS_PARENT_CHANGES 0
    let s := s.wr Reg.TM_STATUS_MASTER 0 (b2n (m == s.ownMod))
    if m = s.ownMod then (s.wr Reg.TM_STATUS_LOCKED 0 1).wr Reg.TM_STATUS_HOLDOVER 0 0
    else match s.parentPort with
      | some p => if same then s.usePort p else s.wr Reg.TM_STATUS_PARENT_PORT 0 p
      | none => s

def execTimeMasterChange (up : List Nat) (s : State) : Host.Outcome State Fault Refusal := .next (s.doMasterChange up)

/-- TIME_HOLDOVER (R393): no parent port is up; the last rate is kept. -/
def State.doHoldover (s : State) : State :=
  if !s.hasParent || s.parentPort.isSome || s.rd Reg.TM_STATUS_HOLDOVER 0 == 1 then s
  else ((s.wr Reg.TM_STATUS_HOLDOVER 0 1).wr Reg.TM_STATUS_LOCKED 0 0).bump Reg.TM_EVENTS_HOLDOVERS 0

def execTimeHoldover (s : State) : Host.Outcome State Fault Refusal := .next s.doHoldover

end Sys2Proof.Machine
end

