-- ==== Sys2Proof/Machine/Boot.lean ====
section
/-! DEFINITION. The states of a cold bring-up (15.1 to 15.4), the warm fast path (15.7) and its fall back; the command of a
state carries that state's work out and leaves STATE at it. -/

namespace Sys2Proof.Machine

/-! ### States -/

/-- The bring-up stands at one of these states, has not failed, and its input is good. -/
def State.atBu (s : State) (l : List Nat) : Bool :=
  l.contains s.buSt && s.rd Reg.BU_STATUS_FAILED 0 == 0 && s.pwr.lossAt.isNone

def State.enterBu (s : State) (k : Nat) : State :=
  { (s.wr Reg.BU_STATUS_STATE 0 k) with boot := { s.boot with enteredAt := s.age } }

/-- FAILED (R449). -/
def State.failBu (s : State) : State := s.wr Reg.BU_STATUS_FAILED 0 1

/-- What a cold reset of the module does up to TILE_POWER (R450, R454, R455): cells off, the sequence starts again there. The
service controller goes on, and with it the laser cartridges. -/
def State.coldStart (s : State) (scope fallback : Nat) : State :=
  let s := ((s.saveLife.panelOff 0).coldRegs).each s.baysIn State.cartOn
  let s := ((s.wr Reg.BU_STATUS_FALLBACK 0 fallback).wr Reg.BU_STATUS_STATE 0 3).beginRst scope
  { s with boot := { s.boot with enteredAt := s.age, beganAt := s.age } }

/-- COLD_RESET (R450, R455). -/
def State.doColdReset (s : State) : State := if s.buSt < 2 ∨ s.pwr.lossAt.isSome then s else s.coldStart 6 0

def execColdReset (s : State) : Host.Outcome State Fault Refusal := .next s.doColdReset

/-! ### Culture images (R440, R441) -/

/-- Words of chunk 0 that Table 15.3 reserves. -/
def manifestZeros (d : List Byte) : Bool :=
  decide (ldList d 0 8 < 2 ^ 17) && decide (ldList d 8 8 < 2 ^ 32) && ldList d 0x10 48 == 0 && ldList d 0x140 3776 == 0 &&
    (List.range 4).all fun i =>
      let w0 := ldList d (0x40 + 16 * i) 8
      let w1 := ldList d (0x48 + 16 * i) 8
      bitsOf w0 15 3 == 0 && decide (w0 < 2 ^ 41) && decide (w1 < 2 ^ 48)

/-- Bytes a target's section may end at (R440). -/
def targetRoom (target : Nat) : Nat := if target = 0 then 0x1F0000 else if target = 3 then 2 ^ 24 else 2 ^ 18

/-- Chunks of an image, chunk i, and the bytes of a section. -/
def imageChunks (d : List Byte) : Nat := bitsOf (ldList d 0 8) 16 4
def imageChunk (d : List Byte) (i : Nat) : List Byte := (d.drop (4096 * i)).take 4096
def Section.bytes (x : Section) (d : List Byte) : List Byte := (d.drop (4096 * x.first)).take (4096 * x.count)
def Section.has (x : Section) (i : Nat) : Bool := decide (x.first ≤ i) && decide (i < x.first + x.count)

/-- Does a section keep the rules of R440? -/
def sectionOk (n target : Nat) (x : Section) : Bool :=
  decide (1 ≤ x.first) && decide (1 ≤ x.count) && decide (x.first + x.count ≤ n) && x.dest % 4096 == 0 &&
    decide (x.dest + 4096 * x.count ≤ targetRoom target) && (target != 0 || x.entry % 8 == 0)

/-- R440, and the section digests of R441. -/
def manifestOk (d : List Byte) : Bool :=
  let n := imageChunks d
  let secs := (List.range 4).filterMap (manifestSection d)
  decide (2 ≤ n) && decide (n ≤ 4096) && d.length == 4096 * n && ldList d 0 8 % 16 == 1 && manifestZeros d && secs.length == 4 &&
    ((List.range 4).all fun t => (manifestSection d t).any (sectionOk n t)) &&
    ((List.range (n - 1)).all fun i => (secs.filter fun x => x.has (i + 1)).length == 1) &&
    secs.all fun x => sha384 (x.bytes d) == x.digest

/-- Is an image of this SVN and key accepted (R489)? -/
def State.imageOk (s : State) (x : Slot) (least : Nat) : Bool :=
  x.written && x.sigOk && !bitOf (s.rd Reg.LC_SVN_KEY_REVOKED 0) x.keyIndex && decide (least ≤ x.svn)

def State.culOk (s : State) (i : Nat) : Bool := (s.boot.cul[i]?).any fun x => s.imageOk x s.mgmt.culMin && manifestOk x.data
def State.svcOk (s : State) (i : Nat) : Bool := (s.boot.svc[i]?).any fun x => s.imageOk x s.mgmt.svcMin

/-- Among the valid slots, the one with the higher SVN, at equal SVN the higher RELEASE (R490). -/
def pickSlot (l : List Slot) (ok : Nat → Bool) : Option Nat :=
  let a := l.getD 0 {}
  let b := l.getD 1 {}
  if ok 0 && ok 1 then some (if a.svn < b.svn ∨ (a.svn = b.svn ∧ a.release < b.release) then 1 else 0)
  else if ok 0 then some 0 else if ok 1 then some 1 else none

/-- Takes the culture slot that is to be used (R441, R448, R490). -/
def State.chooseCulture (s : State) : State × Bool :=
  match pickSlot s.boot.cul s.culOk with
  | none => (s, false)
  | some i =>
    let x := s.boot.cul.getD i {}
    let s := ((s.wr Reg.CUL_STATUS_SLOT 0 i).wr Reg.CUL_STATUS_CHUNKS 0 (imageChunks x.data)).wr Reg.CUL_RELEASE_RELEASE 0 x.release
    let dg := sha384 (imageChunk x.data 0)
    (s.each (List.range 6) fun s w => s.wr Reg.CUL_DIGEST_DIGEST 0 (ldList dg (8 * w) 8) w, true)

/-! ### SVC_BOOT to LINK_TRAIN -/

/-- RETURN, step 2 (R497): the owner's things go. -/
def State.eraseOwner (s : State) : State :=
  let s := s.lapseToken
  let s := { s with mgmt := { s.mgmt with ownerKey := none, creds := false, nonce := none, eraseDue := false }
                    flt := { s.flt with owner := [] } }
  (s.wr Reg.LC_STATUS_OWNED 0 0).wr Reg.FL_STATUS_OWNER_USED 0 0

/-- Signature verdicts of the slots. -/
def verdicts (l : List Slot) (a b : Sigs) : List Slot :=
  l.zipWith (fun (x : Slot) (v : Sigs) => { x with sigOk := x.written && v.ecdsa && v.mldsa }) [a, b]

/-- SVC_BOOT (R441, R484, R497). -/
def State.doSvcBoot (s : State) (b : BootIn) : State :=
  if !s.atBu [1] || s.rd Reg.IN_STATUS_EFUSE 0 != 2 || s.rd Reg.IN_STATUS_COOLANT_WAIT 0 == 1 then s
  else
    let s := ((s.coldRegs).wr Reg.BU_STATUS_FALLBACK 0 0).enterBu 2
    let s := if s.mgmt.eraseDue then s.eraseOwner else s
    let s := if s.tray.cutDue then ({ s with tray := { s.tray with cutDue := false } }).faultRec { type := evThermalCut, d0 := s.rd Reg.TR_CMP_LAST_CUT 0 } else s
    let s := { s with boot := { s.boot with svc := verdicts s.boot.svc b.svcA b.svcB, cul := verdicts s.boot.cul b.culA b.culB } }
    let s := { s with boot := { s.boot with svcInUse := (pickSlot s.boot.svc s.svcOk).getD s.boot.svcInUse } }
    let (s, ok) := (s.each s.baysIn State.cartOn).chooseCulture
    if ok then s else s.failBu

def execSvcBoot (b : BootIn) (s : State) : Host.Outcome State Fault Refusal := .next (s.doSvcBoot b)

/-- A tile's cell and VLNK come up (R349, R431). -/
def State.powerTile (s : State) (t : Nat) : State :=
  (s.each [(Reg.PW_STATUS_CELL, 2), (Reg.PW_STATUS_VLNK_GOOD, 1), (Reg.PW_STATUS_FEED_OWN, 1), (Reg.PW_STATUS_FEED_ALT, 1)]
    fun s x => s.wr x.1 t x.2).showVoltage t

/-- The torus position takes effect at a cold bring-up (R473). -/
def State.takeTorus (s : State) : State :=
  let v := s.rd Reg.TORUS_VALID 0 == 1
  let n := s.rd Reg.TORUS_X 0 + 4 * s.rd Reg.TORUS_Y 0 + 16 * s.rd Reg.TORUS_Z 0
  let s := { s with host := { s.host with inSystem := v, modNo := if v then n else 0
                                          depthZ := if v then s.rd Reg.TORUS_DEPTH 0 else 0 } }
  s.wr Reg.FN_SYS_EXPECTED 0 (if v then 16 * s.rd Reg.TORUS_DEPTH 0 else 1)

/-- TILE_POWER (R431): every tile, and every die that is present; a die whose ramp fails is RETIRED. The cells of a SCRAPPED
module stay off (Table 17.6). -/
def State.doTilePower (s : State) (dies : List DiePower) : State :=
  if !(s.atBu [2] || (s.atBu [3] && s.boot.baseUp == [])) || s.rd Reg.LC_STATUS_STATE 0 == 4 then s
  else
    let key (d : DiePower) : Nat := dieKey d.tile.val d.site.val
    let s := ((s.enterBu 3).takeTorus).each (List.range 36) State.powerTile
    let s := s.each dies fun s d => s.ramp d.tile.val 0 false
    { s with boot := { s.boot with baseUp := List.range 36, present := (dies.map key).dedup, suspect := [], fuseBad := [], linkBad := []
                                   condemned := ((dies.filter fun (d : DiePower) => !d.rampOk).map key).dedup } }

def execTilePower (dies : List DiePower) (s : State) : Host.Outcome State Fault Refusal := .next (s.doTilePower dies)

/-- CLOCK_FWD (R376, R377): tile (0, 0) on its PLL, every other tile on its first source. -/
def State.doClockFwd (s : State) : State :=
  if !s.atBu [3] || s.boot.baseUp == [] then s
  else
    let s := s.each ((List.range 36).tail) fun s t => s.wr Reg.CK_STATUS_SOURCE t 5
    let s := ((s.enterBu 4).wr Reg.CK_STATUS_SOURCE 0 0).wr Reg.CK_STATUS_PLL_LOCK 0 1
    (s.each ((List.range 36).tail) State.takeSource).showChains

def execClockFwd (s : State) : Host.Outcome State Fault Refusal := .next s.doClockFwd

/-- Tile-edge links between tiles with VLNK, and the links of a list of dies. -/
def State.edgeLinks (s : State) : List Nat :=
  (List.range 36).flatMap fun t => ((List.range 4).filter fun e => s.vlnk t && (neighbour t e).any s.vlnk).map (linkInst t)
def linksOf (dies : List Nat) : List Nat := dies.map fun k => dieLink (k / 8) (k % 8)

/-- Does a tile-edge or die-to-base link still train? -/
def State.linksTrain (s : State) : Bool :=
  (List.range 36).any fun t => (List.range 11).any fun l => s.rd Reg.LK_STATUS_STATE (linkInst t l) == 1

/-- LINK_TRAIN (R432): links begin to train; the attempts are TRAINING_ATTEMPT, EXPRESS_RETRAIN and REACH_TRAINING. -/
def State.doLinkTrain (s : State) : State :=
  if !s.atBu [4] then s
  else
    let live := s.boot.present.filter fun k => !s.boot.condemned.contains k
    let s := (s.enterBu 5).each (s.edgeLinks ++ linksOf live) fun s i => s.wr Reg.LK_STATUS_STATE i 1
    let s := s.each ((List.range 36).filter s.vlnk) fun s t => s.each (List.range 4) fun s p =>
      s.wr Reg.XP_STATUS_STATE (xpInst t p) (if s.lit (p / 2 * 2) || s.lit (p / 2 * 2 + 1) then 1 else 4)
    if s.host.inSystem then
      s.each ((List.range 32).filter fun p => s.rd Reg.RP_CTL_ENABLE p == 1 && s.vlnk (reachHost p)) fun s p => s.wr Reg.RP_STATUS_STATE p 1
    else s

def execLinkTrain (s : State) : Host.Outcome State Fault Refusal := .next s.doLinkTrain

/-! ### Tests and maps (R433 to R437) -/

/-- Do a die's fuses call it bad, and is no row of its fuse block valid (R422, R424)? A row that re-grading has written
applies (R495). -/
def State.fuseCallsBad (s : State) (r : SelfTestIn) (k : Nat) : Bool :=
  let g := mget 0 s.mgmt.grades k % 4
  g == 3 || (g != 2 && r.fuseBad.contains k)
def State.fuseUnread (s : State) (r : SelfTestIn) (k : Nat) : Bool := mget 0 s.mgmt.grades k % 4 == 0 && r.fuseCrcBad.contains k

/-- What the self-test of a die records (R415, R424, R433). -/
def State.selfTestDie (s : State) (r : SelfTestIn) (k : Nat) : State :=
  let t := k / 8
  let p := k % 8
  let bad := r.bistFail.contains k
  let s := { s with flt := { s.flt with lastTest := mset 0 s.flt.lastTest k (s.now * 2 + b2n (!bad) + 1) } }
  let s := s.faultRec { type := if bad then evTestFail else evTestPass, tile := t, psite := p, d0 := b2n bad }
  let s := if s.fuseUnread r k then s.faultRec { type := evFuseSuspect, tile := t, psite := p } else s
  if !bad && s.fuseCallsBad r k then s.bump Reg.FT_CNT_FUSE_PASS t
  else if bad && !s.fuseCallsBad r k then s.faultRec { type := evFuseDiscrepancy, tile := t, psite := p }
  else s

/-- SELF_TEST (R433), once the links have trained. Bad lanes and groups enter the lane history (R423). -/
def State.doSelfTest (s : State) (r : SelfTestIn) : State :=
  if !s.atBu [5] || s.linksTrain then s
  else
    let live := s.boot.present.filter fun k => !s.boot.condemned.contains k
    let bad := live.filter r.bistFail.contains
    let s := ((s.enterBu 6).addHistory r.badLanes r.badGroups).each live fun s k => s.selfTestDie r k
    let narrow := live.filter fun k => s.tooNarrow (k / 8) (4 + k % 8)
    let s := { s with boot := { s.boot with condemned := s.boot.condemned ++ bad, linkBad := (s.boot.linkBad ++ narrow).dedup
                                            fuseBad := s.boot.present.filter (s.fuseCallsBad r)
                                            suspect := s.boot.present.filter (s.fuseUnread r), digest := r.digest } }
    (s.bump Reg.BU_TEST_CONDEMNED 0 bad.length).each ((List.range 36).filter r.baseFail.contains) fun s t => s.tileDown t 4 0 evTestFail

def execSelfTest (r : SelfTestIn) (s : State) : Host.Outcome State Fault Refusal := .next (s.doSelfTest r)

/-- The die of a unit under neighbour test. -/
def unitDie : UnitRef → Nat
  | .scratch c => dieKey c.tile.val c.site.val
  | .router c => dieKey c.tile.val c.site.val
  | .link t p => dieKey t.val p.val

/-- The dies that may test a unit, in the order of Table 15.2. Testers of scratch and routers are cores of the unit's own
die; those of a link are dies of the tile that are present and not condemned. -/
def State.testers (s : State) (u : UnitRef) : List Nat :=
  match u with
  | .scratch c => List.replicate (if c.slot.val = 4 then 3 else 4) (dieKey c.tile.val c.site.val)
  | .router c => List.replicate 3 (dieKey c.tile.val c.site.val)
  | .link t p => (([1, 6, 2, 5, 3, 4] : List Nat).map fun d => dieKey t.val ((p.val + d) % 7)).filter fun k =>
      s.boot.present.contains k && !s.boot.condemned.contains k

/-- A condemned die: recorded as R424 gives where its fuses call it good. -/
def State.condemnDie (s : State) (k : Nat) : State :=
  let s := s.bump Reg.BU_TEST_CONDEMNED 0
  let s := if s.boot.fuseBad.contains k || s.boot.condemned.contains k then s
    else s.faultRec { type := evFuseDiscrepancy, tile := k / 8, psite := k % 8 }
  { s with boot := { s.boot with condemned := (s.boot.condemned ++ [k]).dedup } }

/-- One unit's round (R434, R435). -/
def State.judgeUnit (s : State) (r : NeighbourIn) (u : UnitRef) : State :=
  let ts := s.testers u
  let a := r.accuse1.contains u && decide (0 < ts.length)
  let b := r.accuse2.contains u && decide (1 < ts.length)
  if !s.boot.present.contains (unitDie u) || s.boot.condemned.contains (unitDie u) then s
  else if a && b then s.condemnDie (unitDie u)
  else if !a && !b then s
  else
    let s := s.bump Reg.BU_TEST_ACCUSED 0
    if r.accuserFails.contains u then (s.bump Reg.BU_TEST_ACCUSERS_FAILED 0).condemnDie (ts.getD (if a then 0 else 1) 0)
    else if (if 2 < ts.length then r.accuse3.contains u else r.ownFails.contains u) then s.condemnDie (unitDie u)
    else s

/-- NEIGHBOUR_TEST (R434, R435). -/
def State.doNeighbour (s : State) (r : NeighbourIn) : State :=
  if !s.atBu [6] then s
  else
    let s := (s.enterBu 7).each (r.accuse1 ++ r.accuse2).dedup fun s u => s.judgeUnit r u
    { s with boot := { s.boot with testedAt := s.age } }

def execNeighbourTest (r : NeighbourIn) (s : State) : Host.Outcome State Fault Refusal := .next (s.doNeighbour r)

/-- May a die be mapped (R422, R423, R436)? -/
def State.usable (s : State) (k : Nat) : Bool :=
  s.boot.present.contains k &&
    !(s.boot.condemned.contains k || s.boot.fuseBad.contains k || s.boot.linkBad.contains k || s.boot.suspect.contains k)

/-- A field of the stored site maps. -/
def State.storedMap (s : State) (f : Fld) (t : Nat) : Nat := mget f.rst s.boot.stored.maps (fkey f t 0)

/-- Steps 1 and 2 of R436: the physical sites of logical sites 0 to 5, and the usable dies that are left. -/
def State.planTile (s : State) (t : Nat) : List (Option Nat) × List Nat :=
  let ok := (List.range 7).filter fun p => s.usable (dieKey t p)
  let keep := (List.range 6).map fun l =>
    if s.boot.stored.valid && ok.contains (s.storedMap (lsiteFld l) t) then some (s.storedMap (lsiteFld l) t) else none
  let dry := if s.boot.stored.valid then s.storedMap Reg.SITE_MAP_DRY t else 7
  let free := ok.filter fun p => !keep.contains (some p)
  keep.foldl (fun (r : List (Option Nat) × List Nat) k => match k, r.2 with
    | some p, f => (r.1 ++ [some p], f)
    | none, p :: f => (r.1 ++ [some p], f)
    | none, [] => (r.1 ++ [none], [])) ([], free.filter (· != dry) ++ free.filter (· == dry))

/-- Table 1.6: the state that reconciliation gives a die. -/
def State.planState (s : State) (t p : Nat) (mapped : Bool) (dry : Nat) : Nat :=
  let k := dieKey t p
  if !s.boot.present.contains k then 0
  else if mapped then 1
  else if p = dry then 2
  else if s.boot.suspect.contains k && !s.boot.condemned.contains k then 5
  else 6

/-- R436 on one tile. -/
def State.reconcile (s : State) (t : Nat) : State :=
  let (m, left) := s.planTile t
  let dry := left.headD 7
  let s := s.each (List.range 6) fun s l => s.mapSite t l ((m.getD l none).getD 7)
  let s := (s.wr Reg.SITE_MAP_DRY t dry).wr Reg.SITE_MAP_MAP_GEN t 0
  let s := s.each (List.range 7) fun s p =>
    let on := m.contains (some p)
    let s := s.setSiteSt t p (s.planState t p on dry)
    if on then s else s.closeDieLink t p
  s.each (List.range 6) fun s l => match m.getD l none with
    | some p => s.showSchLink t (8 + l) (s.rd Reg.LK_STATUS_GRP_RETIRED_TX (dieLink t p))
    | none => s.faultRec { type := evNoSpare, tile := t, lsite := l }

/-- MAP_RECONCILE (R436, R437). -/
def State.doReconcile (s : State) : State :=
  if !s.atBu [7] then s
  else
    let s := ((s.enterBu 8).each ((List.range 36).filter s.vlnk) State.reconcile).saveStored
    let s := { s with boot := { s.boot with stored := { s.boot.stored with
      valid := true, digest := s.boot.digest, testedAt := s.boot.testedAt, training := false } }
                      mgmt := { s.mgmt with fuseDigest := s.boot.digest } }
    if s.cellOn 0 ∧ s.psite 0 0 ≠ 7 then s else s.failBu

def execMapReconcile (s : State) : Host.Outcome State Fault Refusal := .next s.doReconcile

/-! ### CLOCK_MESH and MEM_TRAIN -/

/-- CLOCK_MESH (R438, R393; Table 15.7): every tile on its own PLL, frame 0 and slot 0; on the fast path PLLs and CK_T stand. -/
def State.doClockMesh (s : State) : State :=
  if !s.atBu [8, 14] then s
  else
    let cold := s.buSt == 8
    let s := { (s.enterBu 9) with
      sch := { s.sch with slots := 0, inHeld := false, stage := [], stageIn := [], arrivals := [], holdAt := none, events := [], evWait := [] }
      clk := { s.clk with started := true } }
    if !cold then s
    else
      let s := (s.each ((List.range 36).filter s.vlnk) fun s t =>
        (s.wr Reg.CK_STATUS_SOURCE t 0).wr Reg.CK_STATUS_PLL_LOCK t 1).showChains
      let lead := b2n (s.ownMod == 0)
      let s := ((s.wr Reg.TM_STATUS_MASTER 0 lead).wr Reg.TM_STATUS_LOCKED 0 lead).wr Reg.TM_STATUS_MASTER_MODULE 0 0
      { s with now := 0, clk := { s.clk with rateAcc := 0, synced := false } }

def execClockMesh (s : State) : Host.Outcome State Fault Refusal := .next s.doClockMesh

/-- A T3 port trains by its MODE (R184 to R186); `sum` is the running sum of the mappings, in units of 256 MiB. -/
def State.trainPort (s : State) (sum p : Nat) (x : Option T3In) : State × Nat :=
  let up := x.any T3In.up && s.cellOn (t3Tile p)
  let size := s.rd Reg.T3_CTL_MAP_SIZE p
  let link (s : State) (on : Bool) : State :=
    ((s.wr Reg.T3_STATUS_LINK_UP p (b2n on)).wr Reg.T3_STATUS_SPEED p (if on then (x.map fun y => y.speed.toNat).getD 0 else 0)).wr
      Reg.T3_STATUS_WIDTH p (if on then (x.map fun y => y.width.toNat).getD 0 else 0)
  let s := { (s.wr Reg.T3_STATUS_REFUSED p 0) with
    tier := { s.tier with t3map := mset 0 s.tier.t3map p 0, t3nvme := s.tier.t3nvme.filter (· != p) } }
  match s.rd Reg.T3_CTL_MODE p with
  | 1 =>
    if size = 0 ∨ 0x8000 < size ∨ (up ∧ (x.map T3In.capacity).getD 0 < size) ∨ 64 * 10 ^ 12 < (sum + size) * 2 ^ 28 then
      ((link s false).wr Reg.T3_STATUS_REFUSED p 1, sum)
    else (link { s with tier := { s.tier with t3map := mset 0 s.tier.t3map p size } } up, sum + size)
  | 2 => (link { s with tier := { s.tier with t3nvme := s.tier.t3nvme ++ [p] } } up, sum)
  | _ => (link s false, sum)

def State.trainPorts (s : State) (l : List T3In) : State :=
  ((List.range 8).foldl (fun r p => r.1.trainPort r.2 p (l.find? fun x => x.port.val == p)) (s, 0)).1

/-- TRAINED and LOST of stacks and packages; those of a tile without its main rail are lost (R183). -/
def State.markTrained (s : State) (r : MemTrainIn) : State :=
  let s := s.each (List.range 24) fun s n =>
    let bad := r.stackFail.contains n || !s.cellOn (stackTile n)
    (s.wr Reg.TM_STATE_TRAINED n (b2n (!bad))).wr Reg.TM_STATE_LOST n (b2n bad)
  s.each (List.range 72) fun s n =>
    let bad := r.pkgFail.contains n || !s.cellOn (n / 2)
    (s.wr Reg.T2_STATE_TRAINED n (b2n (!bad))).wr Reg.T2_STATE_LOST n (b2n bad)

/-- MEM_TRAIN (R439): scratch zero-filled, memories trained, T1 and T2 written with zeros. -/
def State.doMemTrain (s : State) (r : MemTrainIn) : State :=
  if !s.atBu [9] || s.boot.warm != 0 then s
  else
    let s := (s.enterBu 10).each s.moduleCores State.zeroFill
    let s := { s with
      mem := s.mem.filter fun e => e.1 / 2 ^ 52 != 1 && e.1 / 2 ^ 52 != 2
      tier := { s.tier with poison := [] }
      boot := { s.boot with reload := [], stored := { s.boot.stored with training := true } } }
    (s.markTrained r).trainPorts r.ports

def execMemTrain (r : MemTrainIn) (s : State) : Host.Outcome State Fault Refusal := .next (s.doMemTrain r)

/-! ### The warm fast path (R451 to R454) -/

/-- TEST_AGE_H. -/
def State.testAge (s : State) : Nat :=
  if s.boot.stored.valid then min ((s.age - s.boot.stored.testedAt) / us (3600 * 10 ^ 6)) 0xFFFF else 0xFFFF

/-- The first condition of Table 15.6 that fails at the request; 0 where all hold. -/
def State.warmCheck (s : State) : Nat :=
  if !s.boot.stored.cleanPower then 1
  else if !s.boot.stored.cleanHistory then 2
  else if 720 ≤ s.testAge then 4
  else if !s.boot.stored.valid || !s.boot.stored.training then 5
  else 0

/-- The entry of the fast path (Table 15.7, R453). -/
def State.warmEntry (s : State) : State :=
  let ids := s.vats.map Vat.id
  let s := (s.releaseVats ids).each ids fun s v => s.faultRec { type := evVatKilled, vat := v }
  let s := (s.each (List.range 36) State.dropSiteWork).each (s.moduleCores) fun s c => (s.resetCore c).clearFence c
  let s := s.each (List.range 65) State.resetFn
  let s := s.each ((List.range 576).filter fun i => s.rd Reg.LK_STATUS_STATE i == 2) fun s i => s.wr Reg.LK_STATUS_STATE i 4
  let s := (((s.clearUps (List.range 36)).enterBu 13).wr Reg.BU_STATUS_FALLBACK 0 0).beginRst 5
  { s with boot := { s.boot with warm := 1, beganAt := s.age, rst := none, rstWait := none } }

/-- WARM_MODULE_RESET (R450, R451). -/
def State.doWarmReset (s : State) : State :=
  if s.buSt < 2 ∨ s.pwr.lossAt.isSome then s
  else if s.buSt ≠ 12 then s.endRst 1
  else match s.warmCheck with
    | 0 => s.warmEntry
    | k => s.coldStart 5 k

def execWarmModuleReset (s : State) : Host.Outcome State Fault Refusal := .next s.doWarmReset

/-- Does the module stand in the fast path? -/
def State.inWarm (s : State) : Bool := s.boot.warm != 0 && s.atBu [9, 11, 13, 14, 15]

/-- WARM_FALLBACK (R454). -/
def execWarmFallback (code : BitVec 3) (s : State) : Host.Outcome State Fault Refusal :=
  .next (if s.inWarm && decide (1 ≤ code.toNat) && decide (code.toNat ≤ 5) then s.coldStart 5 code.toNat else s)

/-- The agreed map and width of a link come back from the base die's copy in the stored state (R321, R437). -/
def State.restoreLink (s : State) (i : Nat) : State :=
  let back (s : State) (f : Fld) (n x : Nat) : State := s.wr f n (mget f.rst s.boot.stored.links (fkey f n x)) x
  let s := ([Reg.LK_STATUS_WIDTH_TX, Reg.LK_STATUS_WIDTH_RX, Reg.LK_STATUS_GRP_RETIRED_TX, Reg.LK_STATUS_GRP_RETIRED_RX] : List Fld).foldl
    (fun s f => back s f i 0) s
  match s.schPort (i / 16) (i % 16) with
  | some port => ([Reg.SCH_LINK_LG_MAP, Reg.SCH_LINK_RETIRED, Reg.SCH_LINK_DYN_GROUPS] : List Fld).foldl
      (fun s f => back s f (i / 16) port) s
  | none => s

/-- LINK_RESUME (R321): the links come up with their maps; those whose exchange of proposals disagrees, or whose test flits fail, train
in full. -/
def State.doLinkResume (s : State) (disagree : List Nat) : State :=
  if !s.atBu [13] || s.boot.warm != 1 then s
  else
    let s := s.each ((List.range 576).filter fun i => s.rd Reg.LK_STATUS_STATE i == 4) fun s i =>
      (s.restoreLink i).wr Reg.LK_STATUS_STATE i (if (linkEnds (i / 16) (i % 16)).any disagree.contains then 1 else 2)
    { s with boot := { s.boot with warm := 2, enteredAt := s.age } }

def execLinkResume (disagree : List Nat) (s : State) : Host.Outcome State Fault Refusal := .next (s.doLinkResume disagree)

/-- MAP_RESTORE (R23, Table 15.7): the fuse digest is compared, the stored maps come back. -/
def State.doMapRestore (s : State) (digest : Nat) : State :=
  if !s.atBu [13] || s.boot.warm != 2 || s.linksTrain then s
  else if digest ≠ s.boot.stored.digest then s.coldStart 5 3
  else
    let s := s.enterBu 14
    { s with regs := mmerge s.boot.stored.maps (mkeep (fun k => !isMapKey k) s.regs) }

def execMapRestore (digest : Nat) (s : State) : Host.Outcome State Fault Refusal := .next (s.doMapRestore digest)

/-- MEM_RESTORE (Table 15.7): T1 and T2 keep their contents; T3 ports train by MODE. -/
def State.doMemRestore (s : State) (r : MemTrainIn) : State :=
  if !s.atBu [9] || s.boot.warm == 0 then s
  else if (List.range 24).any r.stackFail.contains || (List.range 72).any r.pkgFail.contains then s.coldStart 5 5
  else (s.enterBu 15).trainPorts r.ports

def execMemRestore (r : MemTrainIn) (s : State) : Host.Outcome State Fault Refusal := .next (s.doMemRestore r)

/-! ### Bounds (R430, R449, R452) -/

/-- The bound of a state, ms (Tables 15.1, 15.7). -/
def stateBound (k warm : Nat) : Nat :=
  if k = 13 then (if warm = 1 then 50 else 20)
  else ([0, 150, 2000, 200, 10, 300, 3200, 2000, 50, 20, 4000, 200, 0, 20, 10, 1000] : List Nat).getD k 0

/-- BRINGUP_STATE_TIMEOUT: FAILED, or on the fast path a fall back. -/
def State.doBuTimeout (s : State) : State :=
  if !s.atBu [2, 3, 4, 5, 6, 7, 8, 9, 10, 11, 13, 14, 15] || decide (s.age ≤ s.boot.enteredAt + us (1000 * stateBound s.buSt s.boot.warm)) then s
  else if s.inWarm then s.coldStart 5 5
  else s.failBu

def execBringupStateTimeout (s : State) : Host.Outcome State Fault Refusal := .next s.doBuTimeout

end Sys2Proof.Machine
end

