-- ==== Sys2Proof/Machine/Culture.lean ====
section
/-! DEFINITION. The culture's broadcast, repair and confirmation (15.5), the reload of a core (R448), and READY (R449). -/

namespace Sys2Proof.Machine

/-! ### Units and what they need (R442, R446) -/

/-- Key of a base die among the culture's targets; a core's is its core key. -/
def baseKey (t : Nat) : Nat := 2 ^ 20 + t
def isBase (k : Nat) : Bool := decide (2 ^ 20 ≤ k)

/-- Every target of the culture: the cores of active dies and the base dies, of tiles with VLNK. -/
def State.culKeys (s : State) : List Nat :=
  (s.moduleCores.filter fun c => s.vlnk (c / 256)) ++ ((List.range 36).filter s.vlnk).map baseKey

/-- TARGET of a key, and its section. -/
def targetOf (k : Nat) : Nat := if isBase k then 3 else slotTarget (slotOf k)
def State.sectionOf (s : State) (k : Nat) : Option Section := manifestSection (imageChunk s.boot.image 0) (targetOf k)

/-- Does a key need a chunk (R442)? -/
def State.needs (s : State) (k i : Nat) : Bool := i == 0 || (s.sectionOf k).any fun x => x.has i

/-- Its bitmap, and the chunks it still lacks. -/
def State.hasChunk (s : State) (k i : Nat) : Bool := bitOf (mget 0 s.boot.bits k) i
def State.missing (s : State) (k : Nat) : List Nat :=
  (List.range (imageChunks s.boot.image)).filter fun i => s.needs k i && !s.hasChunk k i

/-- Chunks N of the image in use. -/
def State.culN (s : State) : Nat := imageChunks s.boot.image

/-- Is a unit of the culture confirmed, or has it been dealt with? -/
def State.culDone (s : State) (k : Nat) : Bool := s.boot.confirmed.contains k || (!isBase k && s.fenced k)

/-- A core's or base die's memory takes a chunk of its section. -/
def State.placeChunk (s : State) (k off : Nat) (bs : List Byte) : State :=
  if isBase k then s.stBytes (tctlKey (k - 2 ^ 20) off) bs else s.placeSection k off bs

/-- Confirmation (R446): every bit, chunk 0 and the section agree with MANIFEST_DIGEST and the section's digest. -/
def State.tryConfirm (s : State) (k : Nat) : State :=
  match s.sectionOf k with
  | none => s
  | some x =>
    if s.boot.confirmed.contains k || s.missing k != [] || sha384 (imageChunk s.boot.image 0) != s.manifestDigest ||
        sha384 (x.bytes s.boot.image) != x.digest then s
    else if isBase k then { s with boot := { s.boot with confirmed := s.boot.confirmed ++ [k] } }
    else s.confirm k x.entry

/-- A key takes chunk i: the data at its place, the bit set. -/
def State.takeChunk (s : State) (k i : Nat) : State :=
  let s := match s.sectionOf k with
    | some x => if x.has i then s.placeChunk k (x.dest + (i - x.first) * 4096) (imageChunk s.boot.image i) else s
    | none => s
  let s := { s with boot := { s.boot with bits := mset 0 s.boot.bits k (mget 0 s.boot.bits k ||| 2 ^ i) } }
  s.tryConfirm k

/-! ### The broadcast (R442 to R444) -/

/-- CULTURE: the image in both service areas, MANIFEST_DIGEST in every unit, and the pass, one chunk every 48 CK_F cycles. No
culture runs in BLANK (Table 17.6). -/
def State.doCulture (s : State) : State :=
  if !s.atBu [10, 15] || s.rd Reg.LC_STATUS_STATE 0 == 0 then s
  else
    let (s, ok) := s.chooseCulture
    if !ok then s.failBu
    else
      let img := (s.boot.cul.getD (s.rd Reg.CUL_STATUS_SLOT 0) {}).data
      let s := ((s.enterBu 11).writeTier svcT1 img).writeTier svcT2 img
      let s := s.each [Reg.CUL_STATUS_ROUNDS, Reg.CUL_STATUS_FETCHED, Reg.CUL_STATUS_FENCED] fun s f => s.wr f 0 0
      { s with boot := { s.boot with image := img, bits := [], confirmed := [], reload := [], sentAt := s.now,
                                     passEnd := s.now + 24 * imageChunks img } }

def execCulture (s : State) : Host.Outcome State Fault Refusal := .next s.doCulture

/-- The keys a unit serves. -/
def unitKeys : CulUnit → List Nat
  | .clu c => coresOfClu (cluKey c)
  | .base t => [baseKey t.val]

/-- CHUNK (R443): a chunk whose CRC passes, which a key needs and lacks; anything else is discarded without a reply. -/
def State.doChunk (s : State) (u : CulUnit) (i : Nat) (crcOk : Bool) : State :=
  if !s.atBu [11] || !crcOk || decide (s.culN ≤ i) then s
  else s.each ((unitKeys u).filter fun k => s.culKeys.contains k && !s.culDone k && s.needs k i && !s.hasChunk k i) fun s k => s.takeChunk k i

def execChunk (u : CulUnit) (idx : BitVec 12) (crcOk : Bool) (s : State) : Host.Outcome State Fault Refusal :=
  .next (s.doChunk u idx.toNat crcOk)

/-- MISSING_BITMAP_OR (R444): 10 µs after a pass or round; a repair round sends what is missing, at most three times. -/
def State.doMissing (s : State) : State :=
  let gone := (List.range s.culN).filter fun i => s.culKeys.any fun k => !s.culDone k && s.needs k i && !s.hasChunk k i
  if !s.atBu [11] || decide (s.now < s.boot.passEnd + us 10) || gone == [] || s.rd Reg.CUL_STATUS_ROUNDS 0 == 3 then s
  else { (s.bump Reg.CUL_STATUS_ROUNDS 0) with boot := { s.boot with passEnd := s.now + 24 * gone.length } }

def execMissingBitmapOr (s : State) : Host.Outcome State Fault Refusal := .next s.doMissing

/-! ### Fetches (R445) -/

/-- Where a key looks for a chunk, in order. -/
def State.holdersOf (s : State) (k : Nat) : List Nat :=
  let t := if isBase k then k - 2 ^ 20 else k / 256
  let near := (List.range 4).filterMap fun e => (neighbour t e).filter fun u => s.portUp t e && s.vlnk u
  if isBase k then near.map baseKey
  else
    let at_ (u p : Nat) : Nat := u * 256 + p * 32 + k % 32
    let own := if slotOf k = 4 then [] else [k - slotOf k + (if slotOf k % 2 = 0 then slotOf k + 1 else slotOf k - 1)]
    let die := ([1, 3, 2] : List Nat).map fun d => k / 32 * 32 + (k / 8 % 4 + d) % 4 * 8 + slotOf k
    let dies (u : Nat) : List Nat := ((List.range 7).filter (s.dieActive u)).map (at_ u)
    own ++ die ++ (dies t).filter (· != k) ++ near.flatMap dies

/-- One chunk is fetched from the first holder. -/
def State.fetchChunk (s : State) (k i : Nat) : State :=
  if (s.holdersOf k).any fun h => s.hasChunk h i && !(!isBase h && s.fenced h) then (s.bump Reg.CUL_STATUS_FETCHED 0).takeChunk k i
  else s

/-- CHUNK_FETCH (R445): after the third round; a unit's core `tgt`, or a base die. -/
def State.doFetch (s : State) (u : CulUnit) (tgt : Nat) : State :=
  match (match u with
    | .clu _ => (unitKeys u)[tgt]?
    | .base t => some (baseKey t.val)) with
  | none => s
  | some k =>
    if !s.atBu [11] || s.rd Reg.CUL_STATUS_ROUNDS 0 != 3 || decide (s.now < s.boot.passEnd + us 10) || !s.culKeys.contains k || s.culDone k then s
    else s.each (s.missing k) fun s i => s.fetchChunk k i

def execChunkFetch (u : CulUnit) (tgt : Fin 6) (s : State) : Host.Outcome State Fault Refusal := .next (s.doFetch u tgt.val)

/-- A core that does not confirm is fenced, with a record (R446, R448). -/
def State.unconfirmed (s : State) (core : Nat) : State :=
  let t := core / 256
  let p := core / 32 % 8
  (s.fence core).faultRec { type := evCoreFenced, tile := t, psite := p, lsite := s.lsite t p, cluster := core / 8 % 4,
                            slot := slotOf core, vat := s.vatIdOf (cluOfCore core), d0 := 1 }

/-- CULTURE_CONFIRM_DEADLINE (R446): 50 ms after the first chunk was sent. -/
def State.doConfirmDeadline (s : State) : State :=
  if !s.atBu [11] || decide (s.now < s.boot.sentAt + us 50000) then s
  else
    let l := s.culKeys.filter fun k => !s.culDone k
    let cores := l.filter fun k => !isBase k
    let s := s.each cores fun s c => (s.unconfirmed c).bump Reg.CUL_STATUS_FENCED 0
    let s := s.each ((cores.map fun c => dieKey (c / 256) (c / 32 % 8)).dedup) fun s d => s.reportLoss (d / 8) (d % 8) 4
    s.each (l.filter isBase) fun s k => s.tileDown (k - 2 ^ 20) 4 0 evTileCtlLost

def execCultureConfirmDeadline (s : State) : Host.Outcome State Fault Refusal := .next s.doConfirmDeadline

/-! ### Reload (R448, R456) -/

/-- A core leaves the running reset. -/
def State.leaveReset (s : State) (core : Nat) : State := s.dropReset [core]

/-- An S-core of a vat that has not been started waits for START (R470). -/
def State.awaitStart (s : State) (core : Nat) : State :=
  let ck := cluOfCore core
  match (if slotOf core = 4 then s.vatOfClu ck else none) with
  | some v => if v.run = .stopped then s.setSc ck { s.sc ck with wait := some .start } else s
  | none => s

/-- CULTURE_RELOAD: a zero-filled core's parts come back from T1; the fence of a reset core is lifted (R403, R456). -/
def State.doReload (s : State) (core : Nat) : State :=
  if !s.boot.reload.contains core || !s.dieActive (core / 256) (core / 32 % 8) || s.buSt < 11 then s
  else match s.loadCulture core with
    | (s, some e) =>
      let s := if s.boot.rst.any fun r => r.2.2.contains core then s.clearFence core else s
      ((s.confirm core e).awaitStart core).leaveReset core
    | (s, none) => ((s.unconfirmed core).reportLoss (core / 256) (core / 32 % 8) 4).leaveReset core

def execCultureReload (c : Core) (s : State) : Host.Outcome State Fault Refusal := .next (s.doReload (coreKey c))

/-! ### READY (R449, R473, R474) -/

/-- Vat 0 can be active: every core of its clusters, where their dies stand, is confirmed (R447). -/
def State.vat0Up (s : State) : Bool :=
  (s.reservedClus.filterMap s.physOf).all fun ck =>
    !s.dieActive (ckTile ck) (ckSite ck) || (coresOfClu ck).all fun c => s.boot.confirmed.contains c || s.fenced c

/-- The resident manager's reservations for vat 0, tile by tile; that of a tile which a top-level vat owns stands (R120). -/
def State.reserve (s : State) (l : List (Tile × Fin 5)) : State := s.each l fun s e =>
  if s.vats.any fun v => v.parent == 0 && v.clus.any fun c => ckTile c == e.1.val then s
  else { s with svc := { s.svc with reserved := mset 1 s.svc.reserved e.1.val e.2.val } }

/-- READY (R449), once CULTURE has ended (R446). A module that forms no system is its own lead (R473). -/
def State.doReady (s : State) : State :=
  if !s.atBu [11] || !s.culKeys.all s.culDone || !s.vat0Up || !s.dieActive 0 (s.psite 0 0) then s
  else
    let warm := s.boot.warm != 0
    let s := ((s.enterBu 12).wr Reg.BU_STATUS_WARM 0 (b2n warm)).wr Reg.BU_STATUS_ELAPSED 0 (min ((s.age - s.boot.beganAt) / us 1000) (2 ^ 23 - 1))
    let s := if s.rd Reg.RST_STATUS_BUSY 0 = 1 then (s.endRst 0).wr Reg.RST_STATUS_BUSY 0 0 else s
    let s := State.freshForecast { s with boot := { s.boot with warm := 0 }, host := { s.host with readyAt := s.age } }
    if s.host.inSystem then
      let s := s.each ((List.range 32).filter fun p => s.rd Reg.RP_CTL_ENABLE p == 1 && s.rd Reg.RP_STATUS_STATE p == 0 && s.vlnk (reachHost p)) fun s p =>
        s.wr Reg.RP_STATUS_STATE p 1
      { s with host := { s.host with announced := (s.host.announced ++ [s.ownMod]).dedup } }
    else
      let s := ((s.wr Reg.FN_SYS_LEAD 0 0).wr Reg.FN_SYS_MODULES 0 1).wr Reg.FN_SYS_FORMED 0 1
      { s with host := { s.host with up := true } }

def execReady (s : State) : Host.Outcome State Fault Refusal := .next s.doReady

end Sys2Proof.Machine
end

