-- ==== Sys2Proof/Machine/HostPort.lean ====
section
/-! DEFINITION. The host port: queues and doorbells (16.3), the administrative commands (Table 16.8, 0x01 to 0x07), and
modules of a system (16.4). -/

namespace Sys2Proof.Machine

/-! ### Queues (R465, R466) -/

/-- Queue pairs of a function (Table 16.1). -/
def fnQueues (fn : Nat) : Nat := if fn = 0 then 1 else if fn = 1 then 16 else 4

/-- Is this a queue of the port, and does the port answer? -/
def State.queueAt (s : State) (fn q : Nat) : Bool := s.host.up && decide (fn ≤ 64) && decide (q < fnQueues fn)

def State.qOn (s : State) (fn q : Nat) : Bool := s.rd Reg.Q_STATUS_ENABLED (qInst fn q) == 1

/-- A queue halts with an ERR code. -/
def State.haltQueue (s : State) (fn q err : Nat) : State :=
  (s.wr Reg.Q_STATUS_HALTED (qInst fn q) 1).wr Reg.Q_STATUS_ERR (qInst fn q) err

/-- Is a vat live and top-level? -/
def State.topLevel (s : State) (id : Nat) : Bool := (s.vat? id).any fun v => v.parent == 0

/-- Is a vat bound to a VF? -/
def State.vfBound (s : State) (id : Nat) : Bool := s.host.vfVat.any fun e => e.2 == id

/-- The first check of R465 that fails; 0 where none does. -/
def State.queueCheck (s : State) (fn q : Nat) : Nat :=
  let i := qInst fn q
  let size (n : Nat) : Bool := decide (1 ≤ n) && decide (n ≤ 12)
  let vat := s.queueVat fn q
  if s.rd Reg.Q_SQ_BASE_SQ_BASE i = 0 ∨ s.rd Reg.Q_CQ_BASE_CQ_BASE i = 0 then 1
  else if !size (s.rd Reg.Q_CFG_SQ_LOG2 i) || !size (s.rd Reg.Q_CFG_CQ_LOG2 i) then 2
  else if (fn = 1 ∧ (!s.topLevel vat || s.vfBound vat)) ∨ (1 < fn ∧ vat = 0) then 3
  else 0

/-- QUEUE_ENABLE (R465): checked, then in service with both rings at their start (log 37), or halted. -/
def State.doQueueEnable (s : State) (fn q : Nat) : State :=
  if !s.queueAt fn q || s.qOn fn q then s
  else
    let i := qInst fn q
    let s := s.wr Reg.Q_CFG_ENABLE i 1
    match s.queueCheck fn q with
    | 0 =>
      let s := s.each [Reg.Q_STATUS_SQ_HEAD, Reg.Q_STATUS_CQ_TAIL, Reg.Q_STATUS_HALTED, Reg.Q_STATUS_ERR] fun s f => s.wr f i 0
      { (s.wr Reg.Q_STATUS_ENABLED i 1) with
        host := { s.host with phase := mset 0 s.host.phase i 0, cqHead := mset 0 s.host.cqHead i 0 } }
    | e => s.haltQueue fn q e

def execQueueEnable (fn : BitVec 7) (q : BitVec 5) (s : State) : Host.Outcome State Fault Refusal :=
  .next (s.doQueueEnable fn.toNat q.toNat)

/-- Commands of a queue. -/
def State.queueCmds (s : State) (fn q : Nat) : List HCmd := s.host.cmds.filter fun c => c.fn == fn && c.q == q

/-- A disable ends when every completion is written (R465). -/
def State.settleQueue (s : State) (fn q : Nat) : State :=
  let i := qInst fn q
  if s.rd Reg.Q_CFG_ENABLE i = 0 ∧ !(s.host.held.any fun h => h.fn == fn && h.q == q) then
    (s.wr Reg.Q_STATUS_ENABLED i 0).wr Reg.Q_STATUS_HALTED i 0
  else s

/-- QUEUE_DISABLE (R465): started commands end ABORTED, others are dropped. -/
def State.doQueueDisable (s : State) (fn q : Nat) : State :=
  if !s.queueAt fn q then s
  else
    let s := s.wr Reg.Q_CFG_ENABLE (qInst fn q) 0
    let s := s.each ((s.queueCmds fn q).filter HCmd.started) fun s c => (s.endCmd c stAborted 0).dropService c.id
    let s := { s with host := { s.host with cmds := s.host.cmds.filter fun c => !(c.fn == fn && c.q == q) } }
    s.settleQueue fn q

def execQueueDisable (fn : BitVec 7) (q : BitVec 5) (s : State) : Host.Outcome State Fault Refusal :=
  .next (s.doQueueDisable fn.toNat q.toNat)

/-- Bits that an opcode's operand words may hold (Table 16.8); none for a reserved opcode. -/
def opdMasks (op : Nat) : Option (List Nat) :=
  let all := 2 ^ 64 - 1
  match op with
  | 0x01 => some [all, 2 ^ 32 - 1]
  | 0x02 => some [0xFF]
  | 0x03 => some [0xFF3F]
  | 0x04 => some [0xFFF, all]
  | 0x05 => some [7]
  | 0x06 => some [2 ^ 32 - 1, all]
  | 0x07 => some []
  | 0x20 => some [all, all, 2 ^ 63 + 2 ^ 32 - 1]
  | 0x21 => some [2 ^ 24 - 1]
  | 0x22 => some [2 ^ 32 - 1, all]
  | 0x23 => some [all, 0xFFFF]
  | 0x24 => some [all, 0xFFFF, 2 ^ 37 - 1, all]
  | 0x25 => some [all, 0xFFFF, 2 ^ 37 - 1, all]
  | 0x26 => some [all]
  | 0x27 => some [2 ^ 32 - 1]
  | 0x28 => some []
  | 0x29 => some []
  | _ => none

/-- A fetched entry (Table 16.5): a bad one completes at once (R469). -/
def State.takeEntry (s : State) (fn q : Nat) (ws : List Nat) : State :=
  let w0 := ws.getD 0 0
  let op := bitsOf w0 7 0
  let tag := bitsOf w0 47 16
  match opdMasks op with
  | none => s.postComp ⟨fn, q, tag, stBadOpcode, 0⟩
  | some ms =>
    let bad (i : Nat) : Bool := ws.getD (i + 1) 0 &&& (ms.getD i 0) != ws.getD (i + 1) 0
    if (fn = 0) ≠ (op < 0x20) then s.postComp ⟨fn, q, tag, stBadOpcode, 0⟩
    else if bitsOf w0 15 9 ≠ 0 ∨ bitsOf w0 63 48 ≠ 0 ∨ (List.range 7).any bad then s.postComp ⟨fn, q, tag, stBadField, 0⟩
    else { s with host := { s.host with
      cmds := s.host.cmds ++ [(⟨s.host.nextId, fn, q, op, bitOf w0 8, tag, (ws.drop 1).map w64, false⟩ : HCmd)]
      nextId := s.host.nextId + 1 } }

/-- SQ_TAIL_DOORBELL (R466): entries from SQ_HEAD up to the tail are fetched; an entry that cannot be read halts the queue
(Table 16.4). -/
def State.doSqTail (s : State) (fn q tail : Nat) : State :=
  let i := qInst fn q
  let size := 2 ^ s.rd Reg.Q_CFG_SQ_LOG2 i
  let head := s.rd Reg.Q_STATUS_SQ_HEAD i
  if !s.queueAt fn q || !s.qOn fn q || s.rd Reg.Q_STATUS_HALTED i == 1 || s.rd Reg.Q_CFG_ENABLE i == 0 then s
  else if size ≤ tail then s.haltQueue fn q 4
  else
    let base := s.rd Reg.Q_SQ_BASE_SQ_BASE i * 4096
    s.each (List.range ((tail + size - head) % size)) fun s n =>
      let ix := (head + n) % size
      let ws := (List.range 8).map fun w => s.ld (hostKey (base + 64 * ix + 8 * w)) 8
      if s.rd Reg.Q_STATUS_HALTED i = 1 then s
      else if s.hostBad (base + 64 * ix) 64 then s.haltQueue fn q 5
      else (s.wr Reg.Q_STATUS_SQ_HEAD i ((ix + 1) % size)).takeEntry fn q ws

def execSqTailDoorbell (fn : BitVec 7) (q : BitVec 5) (tail : Nat) (s : State) : Host.Outcome State Fault Refusal :=
  .next (s.doSqTail fn.toNat q.toNat tail)

/-- Completions that the ring has room for are written, in order. -/
def State.flushHeld : Nat → Nat → Nat → State → State
  | 0, _, _, s => s
  | n + 1, fn, q, s =>
    match s.host.held.find? fun h => h.fn == fn && h.q == q with
    | none => s
    | some h =>
      if s.cqFull fn q then s
      else State.flushHeld n fn q ({ s with host := { s.host with held := s.host.held.erase h } }.writeComp h)

/-- CQ_HEAD_DOORBELL (R466). -/
def State.doCqHead (s : State) (fn q head : Nat) : State :=
  let i := qInst fn q
  if !s.queueAt fn q || !s.qOn fn q then s
  else if 2 ^ s.rd Reg.Q_CFG_CQ_LOG2 i ≤ head then s.haltQueue fn q 4
  else
    let s := { s with host := { s.host with cqHead := mset 0 s.host.cqHead i head } }
    (s.flushHeld s.host.held.length fn q).settleQueue fn q

def execCqHeadDoorbell (fn : BitVec 7) (q : BitVec 5) (head : Nat) (s : State) : Host.Outcome State Fault Refusal :=
  .next (s.doCqHead fn.toNat q.toNat head)

/-- PF_FLR (R472): the function's queues end; PF0 drops its held events. -/
def State.doPfFlr (s : State) (fn : Nat) : State :=
  let s := s.resetFn fn
  if fn = 0 then ({ s with host := { s.host with events := [] } }).wr Reg.FN_EVT_PENDING 0 0 else s

def execPfFlr (pf1 : Bool) (s : State) : Host.Outcome State Fault Refusal := .next (s.doPfFlr (b2n pf1))

/-! ### How a command runs (R467) -/

/-- May a fetched command start: earlier ones of its queue have started, and have ended where FENCE is set? -/
def State.mayStart (s : State) (c : HCmd) : Bool :=
  !c.started && ((s.queueCmds c.fn c.q).filter fun d => decide (d.id < c.id)).all fun d => d.started && !c.fence

/-- Starts command `id` of an opcode; `f` answers its STATUS and RESULT where it ends at once. -/
def State.runCmd (s : State) (id op : Nat) (f : HCmd → State → State × Option (Nat × Nat)) : State :=
  match s.host.cmds.find? fun c => c.id == id with
  | none => s
  | some c =>
    if c.opcode ≠ op ∨ !s.mayStart c then s
    else
      let s := { s with host := { s.host with cmds := s.host.cmds.map fun (d : HCmd) => if d.id = id then { d with started := true } else d } }
      match f c s with
      | (s, some r) => s.endCmd c r.1 r.2
      | (s, none) => s

/-- Operand word OPDn. -/
def HCmd.opd (c : HCmd) (n : Nat) : Nat := (c.opds.getD (n - 1) 0).toNat

/-- A command ends with a status and RESULT 0. -/
def fails (s : State) (st : Nat) : State × Option (Nat × Nat) := (s, some (st, 0))

/-- A command for its queue's vat (R469). -/
def State.runVatCmd (s : State) (id op : Nat) (f : HCmd → Vat → State → State × Option (Nat × Nat)) : State :=
  s.runCmd id op fun c s => match s.vat? (s.queueVat c.fn c.q) with
    | some v => f c v s
    | none => fails s stNoVat

/-- n words of host memory. -/
def State.hostWords (s : State) (a n : Nat) : List Nat := (List.range n).map fun i => s.ld (hostKey (a + 8 * i)) 8

/-! ### VAT_CREATE (R24 to R26, R470) -/

/-- The clusters of a tile that a top-level vat must take: those not reserved for vat 0, of which a tile has n. -/
def maskLess (n : Nat) : Nat := 2 ^ 24 - 1 - ((List.range n).map fun i => 2 ^ (3 - i)).sum
def State.tileMask (s : State) (t : Nat) : Nat := maskLess (s.reservedNo t)

/-- Does a word of a placement record name a whole tile (R25)? How many clusters a tile of another module reserves is not known here:
0 to 4, and at least 1 of tile (0, 0), are taken (log 14). -/
def State.wholeTile (s : State) (w : Nat) : Bool :=
  let t := bitsOf w 11 6
  if bitsOf w 5 0 = s.ownMod then bitsOf w 35 12 == s.tileMask t
  else ((List.range 5).filter fun n => decide (t ≠ 0 ∨ n ≠ 0)).any fun n => bitsOf w 35 12 == maskLess n

/-- Logical clusters that a tile word of a placement record names. -/
def maskClus (t m : Nat) : List Nat := ((List.range 24).filter (bitOf m)).map fun b => t * 32 + b

/-- The clusters of a placement record: of this module by logical key, of the others by `farKeyOf`. -/
def State.placed (s : State) (ws : List Nat) : List Nat × List Nat :=
  let of (w : Nat) : List Nat := maskClus (bitsOf w 11 6) (bitsOf w 35 12)
  ((ws.filter fun w => bitsOf w 5 0 == s.ownMod).flatMap of,
    (ws.filter fun w => bitsOf w 5 0 != s.ownMod).flatMap fun w => (of w).map (farKeyOf (bitsOf w 5 0)))

/-- R25 on the words of a top-level vat, R26 on those of a sub-vat: BAD_FIELD. -/
def State.placeBad (s : State) (parent : Nat) (ws : List Nat) : Bool :=
  let (clus, far) := s.placed ws
  ws == [] || ws.any (fun w => decide (2 ^ 36 ≤ w) || decide (35 < bitsOf w 11 6)) || !(ws.map (· % 4096)).Nodup ||
    (if parent = 0 then ws.any fun w => !s.wholeTile w
     else match s.vat? parent with
       | none => true
       | some p => decide (4 ≤ (s.chain parent).length) || (clus == [] && far == []) || clus.any (fun c => !p.clus.contains c) ||
           far.any (fun c => !p.far.contains c) ||
           s.vats.any fun v => v.parent == parent && (v.clus.any clus.contains || v.far.any far.contains))

/-- Does a live vat hold a cluster of a tile that a word names (R25)? -/
def State.tileOwned (s : State) (w : Nat) : Bool :=
  let m := bitsOf w 5 0
  let t := bitsOf w 11 6
  s.vats.any fun v => if m = s.ownMod then v.clus.any fun c => ckTile c == t else v.far.any fun c => c / 2048 == m && ckTile (c % 2048) == t

/-- R360 on the claim of a placement. -/
def State.claimRefused (s : State) (parent n : Nat) : Bool :=
  let sib := ((s.vats.filter fun w => w.parent == parent).map fun w => s.rd Reg.LG_VAT_CLAIM 0 w.id).sum
  n == 0 || decide (2 ^ 32 ≤ n) || decide (s.pwr.budget < n * 1000) ||
    (parent != 0 && decide (s.rd Reg.LG_VAT_CLAIM 0 parent < sib + n))

/-- A vat is placed, stopped, its cores zero-filled; S-cores wait for START once reloaded. The injectors of a sub-vat use its
top-level vat's schedule bank (R223). -/
def State.placeVat (s : State) (id parent claim : Nat) (clus far mods : List Nat) : State :=
  let v : Vat := { id := id, parent := parent, clus := clus, far := far, mods := mods, stepOpen := true, admittedAt := s.now,
                   claim := claim }
  let s := ({ s with vats := s.vats ++ [v], svc := { s.svc with rounds := mset 0 s.svc.rounds id 0 } }).wr Reg.LG_VAT_CLAIM 0 claim id
  let s := if parent = 0 then s else s.setBank id (s.bankOf 0 (s.topOf id))
  s.each ((s.vatClus id).flatMap coresOfClu) fun s c => (s.abandon c).zeroFill c

/-- VAT_CREATE; IO_ERROR where the record cannot be read (Table 16.7). -/
def State.vatCreate (s : State) (a bytes : Nat) : State × Option (Nat × Nat) :=
  let ws := s.hostWords a (bytes / 8)
  let w0 := ws.getD 0 0
  let w1 := ws.getD 1 0
  let body := ws.drop 2
  let parent := bitsOf w0 15 8
  let owned := body.any s.tileOwned
  let free := (List.range 255).map (· + 1) |>.filter fun i => (s.vat? i).isNone
  let id := if bitsOf w0 7 0 = 0 then free.headD 0 else bitsOf w0 7 0
  if s.hostBad a bytes then fails s stIoError
  else if bytes % 8 ≠ 0 ∨ bytes < 16 ∨ bytes ≠ 16 + 8 * bitsOf w0 31 16 ∨ 2 ^ 32 ≤ w0 ∨ 2 ^ 32 ≤ w1 ∨ s.placeBad parent body then fails s stBadField
  else if (parent = 0 ∧ owned) ∨ id = 0 ∨ !free.contains id ∨ (body.any fun w => !s.isModule (bitsOf w 5 0)) then fails s stNoResource
  else if s.claimRefused parent w1 then fails s stEnergy
  else
    (s.placeVat id parent w1 (s.placed body).1 (s.placed body).2 ((body.map fun w => bitsOf w 5 0).dedup), some (stOk, id))

/-- VAT_CREATE, before which the resident manager may change reservations (R120). -/
def execVatCreate (x : CreateIn) (s : State) : Host.Outcome State Fault Refusal :=
  .next (s.runCmd x.id 0x01 fun c s => (s.reserve x.reserve).vatCreate (c.opd 1) (c.opd 2))

/-! ### The other administrative commands -/

/-- VAT_RELEASE. -/
def execVatRelease (id : Nat) (s : State) : Host.Outcome State Fault Refusal :=
  .next (s.runCmd id 0x02 fun c s => if s.vat? (c.opd 1) = none then fails s stNoVat else (s.releaseVats [c.opd 1], some (stOk, 0)))

/-- VF_BIND: a live top-level vat of no other VF. -/
def State.vfBind (s : State) (vf vat : Nat) : State × Option (Nat × Nat) :=
  if vf = 0 then fails s stBadField
  else if vat ≠ 0 ∧ s.vat? vat = none then fails s stNoVat
  else if vat ≠ 0 ∧ (!s.topLevel vat || (s.vfBound vat && mget 0 s.host.vfVat vf != vat)) then fails s stBadField
  else ({ s with host := { s.host with vfVat := mset 0 s.host.vfVat vf vat } }, some (stOk, 0))

def execVfBind (id : Nat) (s : State) : Host.Outcome State Fault Refusal :=
  .next (s.runCmd id 0x03 fun c s => s.vfBind (bitsOf (c.opd 1) 5 0) (bitsOf (c.opd 1) 15 8))

/-- Does a grant word reach a service area (R189)? -/
def grantsSvc (v : Nat) : Bool :=
  let base := bitsOf v 34 4 * 2 ^ 21
  let last := base + (bitsOf v 56 35 + 1) * 2 ^ 21
  bitOf v 0 && ((bitsOf v 3 2 == 1 && decide (1535000000000 < last)) ||
    (bitsOf v 3 2 == 2 && decide (base / 2 ^ 37 = 0) && decide (127000000000 < last)))

/-- WINDOW_GRANT (R189, R190): windows belong to top-level vats and never reach a service area. -/
def State.windowGrant (s : State) (vat win v : Nat) : State × Option (Nat × Nat) :=
  if s.vat? vat = none then fails s stNoVat
  else if !s.topLevel vat || decide (2 ^ 57 ≤ v) || grantsSvc v then fails s stBadField
  else (s.doGrantWrite vat win v, some (stOk, 0))

def execWindowGrant (id : Nat) (s : State) : Host.Outcome State Fault Refusal :=
  .next (s.runCmd id 0x04 fun c s => s.windowGrant (bitsOf (c.opd 1) 7 0) (bitsOf (c.opd 1) 11 8) (c.opd 2))

/-- RESET (R455, R457): scope 4 ends when the panel reset has; a warm module reset takes the queue with it. -/
def State.hostReset (s : State) (scope : Nat) : State × Option (Nat × Nat) :=
  if scope = 4 then match s.askReset 4 s.moduleCores with
    | (s, none) => (s, none)
    | (s, some r) => fails s (if r = 1 then stBusy else stBadField)
  else if scope = 5 then if s.buSt ≠ 12 then fails s.doWarmReset stBusy else (s.doWarmReset, none)
  else fails s stBadField

def execReset (id : Nat) (s : State) : Host.Outcome State Fault Refusal :=
  .next (s.runCmd id 0x05 fun c s => s.hostReset (c.opd 1))

/-- An area of the field log, newest first. -/
def State.logArea (s : State) (area : Nat) : List (List Word) :=
  if area = 0 then s.flt.perm else if area = 1 then s.flt.hist else if area = 2 then s.flt.owner else []

/-- LOG_READ: RESULT is the records copied. -/
def State.logRead (s : State) (w a : Nat) : State × Option (Nat × Nat) :=
  let n := bitsOf w 31 19
  if bitsOf w 1 0 = 3 ∨ n = 0 ∨ 4096 < n then fails s stBadField
  else if !s.host.up then fails s stIoError
  else
    let l := ((s.logArea (bitsOf w 1 0)).drop (bitsOf w 18 2)).take n
    (s.hostWrite a (toBytes (l.flatten.flatMap fun x => leBytes 8 x.toNat)), some (stOk, l.length))

def execLogRead (id : Nat) (s : State) : Host.Outcome State Fault Refusal :=
  .next (s.runCmd id 0x06 fun c s => s.logRead (c.opd 1) (c.opd 2))

/-- EVENT_WAIT (R472): the oldest held event, or the next; at most 8 wait. -/
def State.eventWait (s : State) : State × Option (Nat × Nat) :=
  match s.host.events with
  | e :: r => (({ s with host := { s.host with events := r } }).wr Reg.FN_EVT_PENDING 0 r.length, some (stOk, e.toNat))
  | [] => if 8 < (s.host.cmds.filter fun c => c.started && c.opcode == 7).length then fails s stBusy else (s, none)

def execEventWait (id : Nat) (s : State) : Host.Outcome State Fault Refusal := .next (s.runCmd id 0x07 fun _ s => s.eventWait)

/-! ### The link and the modules (R460, R461, R473 to R476) -/

/-- Is this module the lead of a formed system? -/
def State.isLead (s : State) : Bool := s.rd Reg.FN_SYS_FORMED 0 == 1 && s.rd Reg.FN_SYS_LEAD 0 == s.ownMod

/-- HOST_LINK_DOWN. -/
def execHostLinkDown (s : State) : Host.Outcome State Fault Refusal :=
  .next (if s.host.up then { s with host := { s.host with up := false } } else s)

/-- HOST_LINK_UP. -/
def execHostLinkUp (s : State) : Host.Outcome State Fault Refusal :=
  .next (if s.isLead && s.buSt == 12 then { s with host := { s.host with up := true } } else s)

/-- HOST_READ_TIMEOUT (R461): a read of host memory that stands at the port when the link is down. -/
def State.doHostTimeout (s : State) (pid : Nat) : State :=
  match s.pkt? pid with
  | none => s
  | some p =>
    let host := bitOf p.daddr.toNat 63 && (match decodePa (p.daddr.toNat % 2 ^ 56) with
      | some (.host _) => true
      | _ => false)
    let reads := p.op == opReadReq || p.op == opLoad || p.op == opAmo
    if s.arrived p && p.at_ == 0 && reads && host && !s.host.up && p.retryAt.isNone && decide (p.sentAt + us 50 ≤ s.now) then s.nackDrop p cPoison
    else s

def execHostReadTimeout (pid : Nat) (s : State) : Host.Outcome State Fault Refusal := .next (s.doHostTimeout pid)

/-- MODULE_ANNOUNCE (R474): another module of the torus reaches READY. -/
def State.doAnnounce (s : State) (m : Nat) : State :=
  if !s.host.inSystem ∨ m = s.ownMod ∨ 16 * s.host.depthZ ≤ m ∨ s.rd Reg.FN_SYS_FORMED 0 = 1 then s
  else { s with host := { s.host with announced := (s.host.announced ++ [m]).dedup, upMods := (s.host.upMods ++ [m]).dedup } }

def execModuleAnnounce (m : BitVec 6) (s : State) : Host.Outcome State Fault Refusal := .next (s.doAnnounce m.toNat)

/-- FORMATION_END (R460, R474, R476): every expected module has announced itself, or 60 s have passed since READY; after the
loss of the lead, once the lead is back. `cabled` are the modules whose host port is cabled; `joined` is the lead of a system that
had formed before this module was READY, which never takes the lead (R460, R475). Where no cabled module has announced itself the
formation stays open (log 82). -/
def State.doFormation (s : State) (cabled : List Nat) (joined : Option Nat) : State :=
  let l := s.host.announced
  let full := l.length == 16 * s.host.depthZ
  let back := s.host.leadLostAt.isNone || l.contains (s.rd Reg.FN_SYS_LEAD 0)
  let chosen := match joined with
    | some m => if m = s.ownMod then none else some m
    | none => (cabled.filter l.contains).min?
  if !s.host.inSystem || s.buSt != 12 || s.rd Reg.FN_SYS_FORMED 0 == 1 || !back ||
      !(joined.isSome || full || decide (s.host.readyAt + us (60 * 10 ^ 6) ≤ s.age)) then s
  else match chosen with
    | none => s
    | some lead =>
      let s := ((s.wr Reg.FN_SYS_LEAD 0 lead).wr Reg.FN_SYS_MODULES 0 l.length).wr Reg.FN_SYS_FORMED 0 1
      let s := { s with host := { s.host with up := lead == s.ownMod, leadLostAt := none } }
      if cabled.contains s.ownMod ∧ lead ≠ s.ownMod then s.faultRec { type := evReachDown, d0 := 0xFFFF } else s

def execFormationEnd (x : FormIn) (s : State) : Host.Outcome State Fault Refusal :=
  .next (s.doFormation x.cabled (x.joined.map BitVec.toNat))

/-- MODULE_JOIN (R475). -/
def State.doJoin (s : State) (m : Nat) : State :=
  if !s.host.inSystem ∨ m = s.ownMod ∨ 16 * s.host.depthZ ≤ m ∨ s.rd Reg.FN_SYS_FORMED 0 = 0 ∨ s.host.upMods.contains m then s
  else
    let s := ({ s with host := { s.host with upMods := s.host.upMods ++ [m], announced := (s.host.announced ++ [m]).dedup } })
    (s.bumpW Reg.FN_SYS_MODULES 0).event (2 + m * 2 ^ 16)

def execModuleJoin (m : BitVec 6) (s : State) : Host.Outcome State Fault Refusal := .next (s.doJoin m.toNat)

/-- MODULE_LOST (R399, R475): vats with cores on the module are held. -/
def State.doModuleLost (s : State) (m : Nat) : State :=
  if !s.host.upMods.contains m then s
  else
    let s := { s with host := { s.host with upMods := s.host.upMods.filter (· != m), announced := s.host.announced.filter (· != m) } }
    let s := s.wr Reg.FN_SYS_MODULES 0 (s.rd Reg.FN_SYS_MODULES 0 - 1)
    let vs := (s.vats.filter fun v => v.parent == 0 && v.mods.contains m).map Vat.id
    let s := s.each vs fun s v => s.faultHold v false
    (s.recEach vs { type := evModuleLost, d0 := m }).event (3 + m * 2 ^ 16)

def execModuleLost (m : BitVec 6) (s : State) : Host.Outcome State Fault Refusal := .next (s.doModuleLost m.toNat)

/-- LEAD_LOST (R476): every vat but vat 0 is held; formation is open again. -/
def State.doLeadLost (s : State) : State :=
  let lead := s.rd Reg.FN_SYS_LEAD 0
  if !s.host.inSystem ∨ s.rd Reg.FN_SYS_FORMED 0 = 0 ∨ lead = s.ownMod then s
  else
    let s := s.each ((s.vats.filter fun v => v.parent == 0).map Vat.id) fun s v => s.faultHold v false
    { (s.wr Reg.FN_SYS_FORMED 0 0) with host := { s.host with
        leadLostAt := some s.age, announced := s.host.announced.filter (· != lead), upMods := s.host.upMods.filter (· != lead) } }

def execLeadLost (s : State) : Host.Outcome State Fault Refusal := .next s.doLeadLost

/-- LEAD_REFORM_TIMEOUT (R476): 60 s without a lead release the vats. -/
def State.doReformTimeout (s : State) : State :=
  match s.host.leadLostAt with
  | none => s
  | some t => if s.age < t + us (60 * 10 ^ 6) then s else s.releaseVats ((s.vats.filter fun v => v.parent == 0).map Vat.id)

def execLeadReformTimeout (s : State) : Host.Outcome State Fault Refusal := .next s.doReformTimeout

end Sys2Proof.Machine
end

