-- ==== Sys2Proof/Machine/Services.lean ====
section
/-! DEFINITION. The commands of vats (Table 16.8, 0x20 to 0x29) and the resident services that carry them out (16.5). -/

namespace Sys2Proof.Machine

/-! ### Flags of the services (R478) -/

/-- A service sets flags of a vat; it clears them with every contribution to them (log 36). -/
def State.svcSet (s : State) (id : Nat) (mask : Word) : State :=
  { s with ren := { s.ren with flags := mset 0 s.ren.flags (svcFlagKey id) (s.svcFlags id ||| mask) } }
def State.svcClear (s : State) (id : Nat) (mask : Word) : State :=
  { s with ren := { s.ren with flags := (s.ren.flags.map fun (e : Nat × Word) =>
      if e.1 / 65536 = id then (e.1, e.2 &&& ~~~mask) else e).filter fun e => e.2 != 0 } }

/-- Flag bits 60 to 63 as masks. -/
def flagBit (n : Nat) : Word := w64 (2 ^ n)

/-! ### Places (R471) -/

/-- A system address in the vat's windows, or a scratch location word: a PA's selector is never 0 here. -/
def State.vatLoc (s : State) (id w len : Nat) (write : Bool) : Nat × MLoc :=
  if w < 2 ^ 50 then s.mvLoc id false w len write
  else if 2 ^ 62 ≤ w then (cBounds, .t1 0)
  else s.mvLoc id false (w + 2 ^ 63) len write

/-- STATUS for a location that cannot be used. -/
def locStatus (cause : Nat) : Nat := if cause = cBounds then stBadField else stIoError

/-- COPY. -/
def State.hostCopy (s : State) (id a w d : Nat) : State × Option (Nat × Nat) :=
  let len := d % 2 ^ 32
  let out := bitOf d 63
  let (c, l) := s.vatLoc id w len (!out)
  if len % 8 ≠ 0 then fails s stBadField
  else if c ≠ 0 then fails s (locStatus c)
  else if (if out then !s.host.up else s.hostBad a len) then fails s stIoError
  else if out then
    let (s, bs, c) := s.mvRead l len
    if c ≠ 0 then fails s stIoError else (s.hostWrite a bs, some (stOk, len))
  else (s.mvWrite l (s.ldBytes (hostKey a) len), some (stOk, len))

def execCopy (id : Nat) (s : State) : Host.Outcome State Fault Refusal :=
  .next (s.runVatCmd id 0x20 fun c v s => s.hostCopy v.id (c.opd 1) (c.opd 2) (c.opd 3))

/-! ### START, PAUSE, RESUME (R447, R470, R476, R483) -/

/-- Every core of a vat is confirmed. -/
def State.vatConfirmed (s : State) (id : Nat) : Bool := (s.vatClus id).all fun ck => (coresOfClu ck).all s.boot.confirmed.contains

/-- START: the S-cores that wait for it enter the vat's program, at vat privilege. -/
def State.startVat (s : State) (id off : Nat) : State × Option (Nat × Nat) :=
  let fresh := (s.subtree id).filter fun i => (s.vat? i).any fun v => v.run == .stopped && v.killing.isNone
  if off % 8 ≠ 0 then fails s stBadField
  else if fresh = [] ∨ !s.vatConfirmed id then fails s stBusy
  else
    let s := s.each fresh fun s i => match s.vat? i with
      | some v => s.setVat { v with run := .running }
      | none => s
    let cks := (fresh.flatMap s.vatClus).dedup
    let s := s.each cks fun s ck =>
      let c := s.sc ck
      if c.wait = some .start then s.setSc ck { c with wait := none, pc := w64 off, priv := false } else s
    ((s.setInjectors cks 0 true).retime, some (stOk, 0))

def execStart (id : Nat) (s : State) : Host.Outcome State Fault Refusal :=
  .next (s.runVatCmd id 0x21 fun c v s => s.startVat v.id (c.opd 1))

/-- PAUSE: a running vat pauses; a paused one stays so. -/
def State.hostPause (s : State) (v : Vat) : State × Option (Nat × Nat) :=
  match v.run with
  | .running => (s.pauseVat v.id .servicePause false, some (stOk, 0))
  | .paused => (s, some (stOk, 0))
  | _ => fails s stBusy

def execPause (id : Nat) (s : State) : Host.Outcome State Fault Refusal := .next (s.runVatCmd id 0x28 fun _ v s => s.hostPause v)

/-- RESUME: a paused or held vat whose cores are confirmed; a vat held with RESUMABLE = 0 stays held. A site-map change that has
paused a vat ends its pause itself. -/
def State.hostResume (s : State) (v : Vat) : State × Option (Nat × Nat) :=
  match v.run with
  | .running => (s, some (stOk, 0))
  | .stopped => fails s stBusy
  | .paused => if v.svcPaused || !s.vatConfirmed v.id then fails s stBusy else (s.runVat v.id, some (stOk, 0))
  | .held =>
    if !v.resumable then fails s stFaultHold
    else if !s.vatConfirmed v.id then fails s stBusy else (s.runVat v.id, some (stOk, 0))

def execResume (id : Nat) (s : State) : Host.Outcome State Fault Refusal := .next (s.runVatCmd id 0x29 fun _ v s => s.hostResume v)

/-! ### LOAD_DATA (R471, R478) -/

/-- An entry of a load or region list: where to, bytes, source target word, source address. -/
structure Region where
  loc : MLoc
  len : Nat
  target : Nat
  src : Nat
  deriving DecidableEq, Repr

/-- KIND, port of a target word. -/
def tgtKind (w : Nat) : Nat := bitsOf w 1 0
def tgtPort (w : Nat) : Nat := bitsOf w 4 2

/-- A target word is good: host memory, or an NVMe port in NVME mode. -/
def State.targetOk (s : State) (w : Nat) : Bool :=
  decide (w < 2 ^ 37) && (tgtKind w == 0 || (tgtKind w == 1 && s.tier.t3nvme.contains (tgtPort w)))

/-- Can a target be reached? -/
def State.targetUp (s : State) (w : Nat) : Bool := if tgtKind w = 0 then s.host.up else s.t3Up (tgtPort w)

/-- Does a read of n bytes of a target fail (Table 16.7, IO_ERROR)? -/
def State.targetBad (s : State) (w a n : Nat) : Bool :=
  if tgtKind w = 0 then s.hostBad a n else !s.t3Up (tgtPort w) || Config.nvmeError (tgtPort w) a s.now

/-- The list of n entries at a host address; its first bad entry's STATUS otherwise. -/
def State.regionList (s : State) (id a n : Nat) (write load : Bool) : Nat × List Region :=
  (List.range n).foldl (fun (r : Nat × List Region) i =>
    let ws := s.hostWords (a + 32 * i) 4
    let len := ws.getD 1 0
    let (c, l) := s.vatLoc id (ws.getD 0 0) len write
    let st := if len = 0 ∨ len % 4096 ≠ 0 then stBadField else if c ≠ 0 then locStatus c
      else if load && !s.targetOk (ws.getD 2 0) then stBadField else 0
    (if r.1 ≠ 0 then r.1 else st, r.2 ++ [⟨l, len, ws.getD 2 0, ws.getD 3 0⟩])) (0, [])

/-- n bytes of a target: of host memory, or what the device answers: free values. -/
def State.targetRead (s : State) (w a n : Nat) : State × List Byte :=
  if tgtKind w = 0 then (s, s.ldBytes (hostKey a) n) else State.drawBytes n s

/-- LOAD_DATA: the entries in order; flag 62 when the list completes. -/
def State.loadData (s : State) (id a n : Nat) : State × Option (Nat × Nat) :=
  if s.hostBad a (32 * n) then fails s stIoError
  else
    let (st, l) := s.regionList id a n true true
    if st ≠ 0 then fails s st
    else if l.any fun r => s.targetBad r.target r.src r.len then fails s stIoError
    else
      let s := s.each l fun s r => let (s, bs) := s.targetRead r.target r.src r.len; s.mvWrite r.loc bs
      (s.svcSet id (flagBit 62), some (stOk, (l.map Region.len).sum))

def execLoadData (id : Nat) (s : State) : Host.Outcome State Fault Refusal :=
  .next (s.runVatCmd id 0x23 fun c v s => s.loadData v.id (c.opd 1) (c.opd 2))

/-! ### CHECKPOINT and RESTORE (R471, R480) -/

/-- The sinks of a vat and where they keep their records: core and offset. -/
def State.vatRecs (s : State) (id : Nat) : List (Nat × Nat) :=
  ((List.range 36).flatMap fun t => (List.range 16).map fun k => (t, k)).filterMap fun e =>
    if s.rd Reg.CH_SINK_VALID e.1 e.2 = 1 ∧ s.rd Reg.CH_SINK_VAT e.1 e.2 = id then
      (s.sinkCore e.1 e.2).map fun c => (c, (s.pail c (s.rd Reg.CH_SINK_REC_PAIL e.1 e.2)).base + s.rd Reg.CH_SINK_REC_OFF e.1 e.2)
    else none

/-- The 64-byte header: VERSION, vat, STEP, entry count, total bytes, CRC-32C of what follows, a word each (log 38). -/
def ckptHeader (id step n : Nat) (body : List Byte) : List Nat := [1, id, step, n, body.length, crc32c (ofBytes body), 0, 0]

/-- Reads regions in order; none where one answers POISON or ECC. -/
def State.readRegions (s : State) (l : List (MLoc × Nat)) : State × Option (List Byte) :=
  l.foldl (fun (r : State × Option (List Byte)) x => match r.2 with
    | none => r
    | some bs =>
      let (s, b, c) := r.1.mvRead x.1 x.2
      (s, if c = 0 then some (bs ++ b) else none)) (s, some [])

/-- A checkpoint between steps: RESULT is the image's bytes. -/
def State.takeCkpt (s : State) (id a n target dst : Nat) : State × (Nat × Nat) :=
  if !s.targetOk target then (s, (stBadField, 0))
  else if s.hostBad a (32 * n) || !s.targetUp target then (s, (stIoError, 0))
  else
    let (st, l) := s.regionList id a n false false
    if st ≠ 0 then (s, (st, 0))
    else
      let (s, r) := s.readRegions ((l.map fun x => (x.loc, x.len)) ++ (s.vatRecs id).map fun e => (MLoc.scr e.1 e.2, 64))
      match r with
      | none => (s, (stIoError, 0))
      | some body =>
        let img := toBytes ((ckptHeader id (s.rd Reg.LG_VAT_STEP 0 id) n body).flatMap (leBytes 8)) ++ body
        (if tgtKind target = 0 then s.hostWrite dst img else s, (stOk, img.length))

/-- CHECKPOINT: at once between steps, else when the open step closes. -/
def State.checkpoint (s : State) (c : HCmd) (v : Vat) : State × Option (Nat × Nat) :=
  if v.run = .running ∧ v.stepOpen then ({ s with svc := { s.svc with ckptWait := s.svc.ckptWait ++ [c.id] } }, none)
  else let (s, r) := s.takeCkpt v.id (c.opd 1) (c.opd 2) (c.opd 3) (c.opd 4); (s, some r)

def execCheckpoint (id : Nat) (s : State) : Host.Outcome State Fault Refusal := .next (s.runVatCmd id 0x24 fun c v s => s.checkpoint c v)

/-- RESTORE: a stopped or paused vat with no RUN_STEPS running (R483); IO_ERROR where VERSION, the vat, the entry count, the bytes or the CRC do not match. -/
def State.restore (s : State) (v : Vat) (a n target src : Nat) : State × Option (Nat × Nat) :=
  if (v.run ≠ .stopped ∧ v.run ≠ .paused) ∨ s.svc.steps.any (fun r => r.vat == v.id) then fails s stBusy
  else if !s.targetOk target then fails s stBadField
  else if s.hostBad a (32 * n) then fails s stIoError
  else
    let (st, l) := s.regionList v.id a n true false
    let l := (l.map fun x => (x.loc, x.len)) ++ (s.vatRecs v.id).map fun e => (MLoc.scr e.1 e.2, 64)
    let total := (l.map Prod.snd).sum
    if st ≠ 0 then fails s st
    else if s.targetBad target src (64 + total) then fails s stIoError
    else
      let (s, img) := s.targetRead target src (64 + total)
      let body := img.drop 64
      let h (i : Nat) : Nat := ldList img (8 * i) 8
      if h 0 ≠ 1 ∨ h 1 ≠ v.id ∨ h 3 ≠ n ∨ h 4 ≠ total ∨ h 5 ≠ crc32c (ofBytes body) then fails s stIoError
      else
        let r := l.foldl (fun (r : State × List Byte) x => (r.1.mvWrite x.1 (r.2.take x.2), r.2.drop x.2)) (s, body)
        (r.1, some (stOk, 64 + total))

def execRestore (id : Nat) (s : State) : Host.Outcome State Fault Refusal :=
  .next (s.runVatCmd id 0x25 fun c v s => s.restore v (c.opd 1) (c.opd 2) (c.opd 3) (c.opd 4))

/-! ### Serving (R481, R482) -/

/-- The first T1 window of a vat, if the batch table may be written to it: its T1 offset and bytes. -/
def State.batchAt (s : State) (id : Nat) : Option (Nat × Nat) :=
  ((List.range 16).find? fun w => s.rd Reg.GRANT_VALID 0 (id * 16 + w) == 1 && s.rd Reg.GRANT_TIER 0 (id * 16 + w) == 1).bind fun w =>
    let i := id * 16 + w
    if s.rd Reg.GRANT_WRITE 0 i = 1 then some (s.rd Reg.GRANT_BASE_2M 0 i * 2 ^ 21, (s.rd Reg.GRANT_PAGES_M1 0 i + 1) * 2 ^ 21) else none

def State.seq? (s : State) (id seq : Nat) : Option SeqState := s.svc.seqs.find? fun x => x.vat == id && x.seqId == seq

/-- SERVE: the request is checked and waits for a round. -/
def State.serve (s : State) (c : HCmd) (v : Vat) : State × Option (Nat × Nat) :=
  let d := s.hostWords (c.opd 1) 8
  let w (i : Nat) : Nat := d.getD i 0
  let n := bitsOf (w 0) 55 32
  let seq := w 0 % 2 ^ 32
  let pos := ((s.seq? v.id seq).map SeqState.pos).getD 0
  if v.run = .held then fails s stFaultHold
  else if s.hostBad (c.opd 1) 64 || s.hostBad (w 1) (4 * n) then fails s stIoError
  else if 2 ^ 56 ≤ w 0 ∨ 2 ^ 24 ≤ w 2 ∨ 2 ^ 32 ≤ w 4 ∨ w 5 ≠ 0 ∨ w 6 ≠ 0 ∨ w 7 ≠ 0 ∨ n = 0 then fails s stBadField
  else if 16777216 < pos + n + w 2 then fails s stLimit
  else if s.batchAt v.id = none then fails s stNoResource
  else if w 2 = 0 then (s, some (stOk, 0))
  else
    let r : Req := ⟨v.id, c.id, seq, s.ldBytes (hostKey (w 1)) (4 * n), w 2, w64 (w 3), w 4, 0, none, true⟩
    ({ s with svc := { s.svc with reqs := s.svc.reqs ++ [r] } }, none)

def execServe (id : Nat) (s : State) : Host.Outcome State Fault Refusal := .next (s.runVatCmd id 0x26 fun c v s => s.serve c v)

/-- SEQ_RELEASE: RESULT is the pages freed. -/
def State.seqRelease (s : State) (id seq : Nat) : State × Option (Nat × Nat) :=
  if s.svc.reqs.any fun r => r.vat == id && r.seqId == seq then fails s stBusy
  else match s.seq? id seq with
    | none => fails s stBadField
    | some x => ({ s with svc := { s.svc with seqs := s.svc.seqs.filter fun y => !(y.vat == id && y.seqId == seq) } }, some (stOk, x.pages))

def execSeqRelease (id : Nat) (s : State) : Host.Outcome State Fault Refusal :=
  .next (s.runVatCmd id 0x27 fun c v s => s.seqRelease v.id (c.opd 1))

def State.setReq (s : State) (r : Req) : State :=
  { s with svc := { s.svc with reqs := s.svc.reqs.map fun (x : Req) => if x.cmd = r.cmd then r else x } }

/-- A request ends with its command. -/
def State.endReq (s : State) (r : Req) (st : Nat) : State :=
  let s := { s with svc := { s.svc with reqs := s.svc.reqs.filter fun x => x.cmd != r.cmd } }
  match s.host.cmds.find? fun c => c.id == r.cmd with
  | some c => s.endCmd c st r.done
  | none => s

/-- A sequence's length, its last token and its pages after a round. -/
def State.setSeq (s : State) (x : SeqState) : State :=
  { s with svc := { s.svc with seqs := s.svc.seqs.filter (fun y => !(y.vat == x.vat && y.seqId == x.seqId)) ++ [x] } }

/-- Tokens an entry gives to the round. -/
def Req.count (r : Req) : Nat := if r.first then r.prompt.length / 4 else 1

/-- Step 3 of a round for one request: its output token goes to the host. -/
def State.takeOutput (s : State) (base : Nat) (r : Req) : State :=
  match r.entry with
  | none => s
  | some i =>
    let a := t1Key (base + 0x40 + 0x40 * i + 40)
    let (s, bad) := s.readTier a 8
    let w := s.ld a 8
    let pos := ((s.seq? r.vat r.seqId).map SeqState.pos).getD 0
    if bad || !s.host.up then s.endReq r stIoError
    else if !bitOf w 32 then s
    else
      let tok := w % 2 ^ 32
      let (pages, s) := s.draw
      let s := s.setSeq ⟨r.vat, r.seqId, pos + r.count, pages.toNat % 2 ^ 32, tok⟩
      let s := s.hostWrite (r.out.toNat + 4 * r.done) (toBytes (leBytes 4 tok))
      let r := { r with first := false, done := r.done + 1 }
      let s := s.setReq r
      if tok = r.stop ∨ r.maxNew ≤ r.done then s.endReq r stOk else s

/-- Waiting requests take free entries, oldest first; one of a sequence already in the table waits. -/
def State.admitReqs (s : State) (id : Nat) : State :=
  s.each (s.svc.reqs.filter fun r => r.vat == id && r.entry.isNone) fun s r =>
    let live := s.svc.reqs.filter fun x => x.vat == id && x.entry.isSome
    match (List.range 256).find? fun i => !live.any fun x => x.entry == some i with
    | some i => if live.any fun x => x.seqId == r.seqId then s else s.setReq { r with entry := some i }
    | none => s

/-- An entry of the batch table (Table 16.10). Where the input tokens lie in the window, the layer directory and the page
tables' shape are the services' own: free values (log 40). -/
def State.putEntry (s : State) (base size : Nat) (r : Req) (i : Nat) : State :=
  let n := r.count
  let x := s.seq? r.vat r.seqId
  let pos := (x.map SeqState.pos).getD 0
  let toks := if r.first then r.prompt else toBytes (leBytes 4 ((x.map SeqState.lastToken).getD 0))
  let (p, s) := s.draw
  let (dir, s) := s.draw
  let (shape, s) := s.draw
  let at_ := base + 16448 + 4 * (p.toNat % max 1 ((size - 16448 - 4 * n) / 4))
  let s := if 16448 + 4 * n ≤ size then s.writeTier (t1Key at_) toks else s
  let ws := [r.seqId + 2 ^ 32 + b2n r.first * 2 ^ 33, pos + n * 2 ^ 24, s.ownMod * 2 ^ 56 + 2 ^ 52 + at_, dir.toNat, shape.toNat % 2 ^ 40, 0, 0, 0]
  s.writeTier (t1Key (base + 0x40 + 0x40 * i)) (toBytes (ws.flatMap (leBytes 8)))

/-- Step 1 of a round: the header, every entry, flag 61. No round starts without an ACTIVE entry. -/
def State.startRound (s : State) (id base size round : Nat) : State :=
  let live := s.svc.reqs.filter fun r => r.vat == id && r.entry.isSome
  let n := (live.map fun r => r.entry.getD 0 + 1).foldl max 0
  if live = [] then { s with svc := { s.svc with rounds := mset 0 s.svc.rounds id (2 * round) } }
  else
    let s := s.writeTier (t1Key base) (toBytes (([n + round % 2 ^ 32 * 2 ^ 32, 0, 0, 0, 0, 0, 0, 0] : List Nat).flatMap (leBytes 8)))
    let s := s.each (List.range n) fun s i => match live.find? fun r => r.entry == some i with
      | some r => s.putEntry base size r i
      | none => s.writeTier (t1Key (base + 0x40 + 0x40 * i)) (List.replicate 64 0)
    { s.svcSet id (flagBit 61) with svc := { s.svc with rounds := mset 0 s.svc.rounds id (2 * round + 1) } }

/-- BATCH_ROUND: the outputs of a finished round (flag 60), then the next round. -/
def State.batchRound (s : State) (id : Nat) : State :=
  match s.vat? id, s.batchAt id with
  | some v, some (base, size) =>
    let r := mget 0 s.svc.rounds id
    let done := bitOf (s.orFlags id).toNat 60
    if v.run ≠ .running ∨ (r % 2 = 1 ∧ !done) then s
    else
      let s := if r % 2 = 1 then
          (s.each (s.svc.reqs.filter fun q => q.vat == id && q.entry.isSome) fun s q => s.takeOutput base q).svcClear id (flagBit 60)
        else s
      (s.admitReqs id).startRound id base size (r / 2 + r % 2)
  | _, _ => s

def execBatchRound (vat : BitVec 8) (s : State) : Host.Outcome State Fault Refusal := .next (s.batchRound vat.toNat)

end Sys2Proof.Machine
end

