-- ==== Sys2Proof/Machine/Tray.lean ====
section
/-! DEFINITION. Thermal life (17.5) and the tray: coolant sensors, the thermal forecast, the comparators and the front panel
(18.4 to 18.6). -/

namespace Sys2Proof.Machine

/-! ### Cycles (R493) -/

/-- n / d to the nearest integer, ties to even. -/
def roundEven (n d : Nat) : Nat :=
  let q := n / d
  let r := n % d
  if 2 * r < d then q else if d < 2 * r then q + 1 else q + q % 2

/-- The distance of two temperatures. -/
def apart (a b : Nat) : Nat := max a b - min a b

/-- Counts a cycle of range d: `half` says a half cycle. Below 20 K nothing is counted. -/
def State.countCycle (s : State) (t d : Nat) (half : Bool) : State :=
  if d < 20 then s
  else
    let bin := if d < 30 then Reg.TL_BIN01_BIN_20_30 else if d < 40 then Reg.TL_BIN01_BIN_30_40
      else if d < 60 then Reg.TL_BIN23_BIN_40_60 else Reg.TL_BIN23_BIN_60
    let s := (s.bump bin t (if half then 1 else 2)).bump Reg.TL_LIFE_LIFE_USED t (roundEven (5 * d * d) (if half then 16 else 8))
    if 800000000 ≤ s.rd Reg.TL_LIFE_LIFE_USED t then s.wr Reg.TL_LIFE_LIFE_WARN t 1 else s

/-- The four-point method on a stack of turning points, newest first: the ranges of the full cycles it closes, and the
stack that is left. -/
def rainflow : Nat → List Nat → List Nat × List Nat
  | 0, l => ([], l)
  | n + 1, d :: c :: b :: a :: r =>
    if apart b c ≤ apart a b ∧ apart b c ≤ apart c d then
      let (x, l) := rainflow n (d :: a :: r)
      (apart b c :: x, l)
    else ([], d :: c :: b :: a :: r)
  | _, l => ([], l)

/-- A turning point enters the stack; beyond 64 points the two oldest are a half cycle and the oldest leaves. -/
def State.turningPoint (s : State) (t x : Nat) (stack : List Nat) : State × List Nat :=
  let (full, l) := rainflow 64 (x :: stack)
  let s := s.each full fun s d => s.countCycle t d false
  if 64 < l.length then (s.countCycle t (apart (l.getD 64 0) (l.getD 63 0)) true, l.take 64) else (s, l)

/-- One temperature of a tile's series: with a hysteresis of 2 K, the head of the residue is the extreme that is not yet
confirmed. -/
def State.lifePoint (s : State) (t x : Nat) : State :=
  let put (s : State) (l : List Nat) : State :=
    ({ s with tray := { s.tray with residue := mset [] s.tray.residue t l } }).wr Reg.TL_TEMP_RESIDUE t (l.length - 1)
  match mget [] s.tray.residue t with
  | [] => put s [x]
  | [c] => if 2 ≤ apart x c then put s [x, c] else s
  | c :: p :: r =>
    if (p ≤ c ∧ c ≤ x) ∨ (c ≤ p ∧ x ≤ c) then put s (x :: p :: r)
    else if apart x c < 2 then s
    else
      let (s, l) := s.turningPoint t c (p :: r)
      put s (x :: l)

/-- THERMAL_SAMPLE on one tile: the highest reading among the sensors of its powered dies and of its base die. -/
def State.sampleTile (s : State) (t : Nat) (rs : List Nat) : State :=
  if !s.vlnk t then s
  else
    let live := (List.range rs.length).filter fun i => decide (28 ≤ i) || s.dieOn t (i / 4)
    let temps := (live.filter fun i => decide (i < 28)).foldl (fun m i => mset 0 m (t * 32 + i) (rs.getD i 0)) s.tray.dieTemp
    let s := { s with tray := { s.tray with dieTemp := temps } }
    if live = [] then s
    else
      let x := live.foldl (fun m i => max m (rs.getD i 0)) 0
      ((s.wr Reg.TL_TEMP_TEMP t (min x 255)).wr Reg.TL_TEMP_PEAK t (max (min x 255) (s.rd Reg.TL_TEMP_PEAK t))).lifePoint t x

/-- THERMAL_SAMPLE (R493). -/
def State.doThermalSample (s : State) (l : List TempSample) : State := s.each l fun s (x : TempSample) => s.sampleTile x.tile.val x.readings

def execThermalSample (temps : List TempSample) (s : State) : Host.Outcome State Fault Refusal := .next (s.doThermalSample temps)

/-- Seconds of `age`. -/
def secs (n : Nat) : Nat := us (10 ^ 6 * n)

/-- REMAIN_DAYS (R494) from LIFE_USED at the starts of the last days, newest first. -/
def remainDays (used : Nat) (days : List Nat) : Nat :=
  let n := days.length - 1
  let inc := days.headD 0 - days.getLastD 0
  if inc = 0 then 0xFFFF else min 0xFFFF ((10 ^ 9 - used) * n / inc)

/-- LIFE_COUNTER_SAVE (R494): every 10 minutes; at a new day LIFE_USED is kept for REMAIN_DAYS. -/
def State.doLifeSave (s : State) : State :=
  if s.buSt < 2 ∨ s.age < s.tray.savedAt + secs 600 then s
  else
    let day := s.age / secs 86400
    let days := (List.range 36).foldl (fun m t => mset [] m t ((s.rd Reg.TL_LIFE_LIFE_USED t :: mget [] s.tray.lifeDays t).take 31)) s.tray.lifeDays
    let s := if day = s.tray.lifeDay then s else { s with tray := { s.tray with lifeDay := day, lifeDays := days } }
    (s.each (List.range 36) fun s t => s.wr Reg.TL_LIFE_REMAIN_DAYS t
      (remainDays (s.rd Reg.TL_LIFE_LIFE_USED t) (mget [] s.tray.lifeDays t))).saveLife

def execLifeCounterSave (s : State) : Host.Outcome State Fault Refusal := .next s.doLifeSave

/-! ### Coolant and temperatures (18.4) -/

/-- THERMAL_FORECAST (R507, R509): inlet and outlet in 0.1 °C, flow in 0.1 L/min. -/
def State.doThermalForecast (s : State) (inlet outlet flow : Nat) : State :=
  if s.buSt < 2 then s
  else
    let s := ((s.wr Reg.TR_COOL_INLET 0 (min inlet 0xFFF)).wr Reg.TR_COOL_OUTLET 0 (min outlet 0xFFF)).wr Reg.TR_COOL_FLOW 0 (min flow 0x3FF)
    let out := if flow = 0 then 0xFFF else min 0xFFF (inlet + 1000 * s.rd Reg.TR_FCST_P_FCST 0 / (593 * flow))
    let lim := min 0xFFFF (593 * flow * (10 * s.rd Reg.TR_CTL_OUT_LIMIT 0 - inlet) / 1000)
    ((s.wr Reg.TR_FCST_OUT_FCST 0 out).wr Reg.TR_FCST_THERM_LIMIT_W 0 lim).wr Reg.TR_FCST_LIMITING 0
      (b2n (decide (lim < s.rd Reg.LG_CAP_CAP_W 0)))

def execThermalForecast (inlet : Nat) (outlet : Nat) (flow : Nat) (s : State) : Host.Outcome State Fault Refusal :=
  .next (s.doThermalForecast inlet outlet flow)

/-- DIE_TEMP_THROTTLE (R510): the highest die sensor of a tile, °C. -/
def State.doDieTemp (s : State) (t maxTemp : Nat) : State :=
  if !s.cellOn t then s
  else
    let on := s.pwr.hot.contains t
    let s := if !on && decide (100 ≤ maxTemp) then
        ({ s with pwr := { s.pwr with hot := s.pwr.hot ++ [t] } }).bump Reg.PW_POWER_LIMIT_EVENTS t
      else if on && decide (maxTemp < 95) then { s with pwr := { s.pwr with hot := s.pwr.hot.filter (· != t) } }
      else s
    s.showLimiting t

def execDieTempThrottle (t : Tile) (maxTemp : Nat) (s : State) : Host.Outcome State Fault Refusal := .next (s.doDieTemp t.val maxTemp)

/-- SENSOR_DISAGREEMENT (R508). -/
def execSensorDisagreement (flow : Bool) (s : State) : Host.Outcome State Fault Refusal :=
  .next (if s.buSt < 2 then s else s.faultRec { type := evSensorBad, d0 := if flow then 0xC02 else 0xC01 })

/-! ### The comparators (18.5) -/

/-- COMPARATOR_TRIP (R511): cells off, the e-fuse open, the lowest cause that tripped latched. -/
def State.doComparator (s : State) (junction outlet flow : Bool) : State :=
  if !s.fuseLive || !(junction || outlet || flow) then s
  else
    let s := (s.openFuse 0 5).powerDirty
    let s := (s.wr Reg.TR_CMP_LAST_CUT 0 (if junction then 1 else if outlet then 2 else 3)).bump Reg.TR_CMP_CUTS 0
    { s with tray := { s.tray with cutAt := some s.age, cutDue := true } }

def execComparatorTrip (junction : Bool) (outlet : Bool) (flow : Bool) (s : State) : Host.Outcome State Fault Refusal :=
  .next (s.doComparator junction outlet flow)

/-- Automatic restarts of the last 60 minutes. -/
def State.restarts (s : State) : Nat := (s.tray.restartAt.filter fun a => decide (s.age < a + secs 3600)).length

/-- COMPARATOR_RESTART (R512): comparator outlet in 0.1 °C, and whether its flow has been 24 L/min or more for 10 s. A
fourth restart within the hour is LOCKOUT instead. -/
def State.doComparatorRestart (s : State) (outlet : Nat) (flowOk : Bool) : State :=
  match s.tray.cutAt with
  | none => s
  | some t =>
    if s.age < t + secs 60 ∨ 550 ≤ outlet ∨ !flowOk then s
    else
      let u := { s with tray := { s.tray with cutAt := none } }
      if 3 ≤ s.restarts then u.wr Reg.TR_CMP_LOCKOUT 0 1
      else if !u.mayPrecharge then s
      else
        let u := { u with tray := { u.tray with restartAt := s.age :: s.tray.restartAt } }
        (u.wr Reg.TR_CMP_RESTARTS_1H 0 u.restarts).beginPrecharge

def execComparatorRestart (outlet : Nat) (flowOk10s : Bool) (s : State) : Host.Outcome State Fault Refusal :=
  .next (s.doComparatorRestart outlet flowOk10s)

/-! ### The front panel (R496, R513) -/

/-- BUTTON_RELEASE (R513, R496): how long the button has been held, ms. -/
def State.doButton (s : State) (heldMs : Nat) : State :=
  if !s.pwr.mated || decide (heldMs < 50) then s
  else if heldMs < 5000 then s.removeRequest
  else
    let s := (s.bump Reg.TR_FP_GESTURES 0).wr Reg.TR_FP_PRESENCE_OPEN 0 1
    { s with mgmt := { s.mgmt with presenceEnd := s.age + secs 60 } }

def execButtonRelease (heldMs : Nat) (s : State) : Host.Outcome State Fault Refusal := .next (s.doButton heldMs)

/-- PRESENCE_WINDOW_EXPIRY (R496). -/
def State.doPresenceEnd (s : State) : State :=
  if s.rd Reg.TR_FP_PRESENCE_OPEN 0 = 1 ∧ s.mgmt.presenceEnd ≤ s.age then s.wr Reg.TR_FP_PRESENCE_OPEN 0 0 else s

def execPresenceWindowExpiry (s : State) : Host.Outcome State Fault Refusal := .next s.doPresenceEnd

end Sys2Proof.Machine
end

