-- ==== Sys2Proof/Machine/Mgmt.lean ====
section
/-! DEFINITION. Management (17): telemetry, settings, firmware updates, attestation, the life cycle, owner keys and debug
tokens, and the congestion records. An operation is accepted where the service controller runs and its interface offers it
(R484, R485); a refusal changes nothing. -/

namespace Sys2Proof.Machine

/-- Does the service controller run (R484)? -/
def State.ctlUp (s : State) : Bool := decide (2 ≤ s.buSt)

/-- Adds words to what management reads have answered. -/
def State.answer (s : State) (ws : List Nat) : State := { s with mgmt := { s.mgmt with answers := s.mgmt.answers ++ ws.map w64 } }

def sigsBoth (x : Sigs) : Bool := x.ecdsa && x.mldsa
def isRedfish (i : MgmtIf) : Bool := i == .redfish

/-- A command that Redfish alone offers. -/
def State.overRedfish (s : State) (ifc : MgmtIf) : Bool := s.ctlUp && isRedfish ifc

/-! ### Congestion records (R492) -/

/-- Counter c (0 flits, 1 OFF cycles, 2 WAIT cycles) of an output port, with the periods that still run. -/
def State.portCounter (s : State) (t p c : Nat) : Nat :=
  if c = 0 then s.rd Reg.PORT_FLITS t p
  else if c = 1 then s.rd Reg.PORT_OFF_CYCLES t p + s.offRuns t p
  else s.rd Reg.PORT_WAIT_CYCLES t p + s.waitRuns t p

/-- Its increase since the interval began, modulo its width. -/
def State.portDelta (s : State) (t p c : Nat) : Nat :=
  let m := if c = 0 then 2 ^ 48 else 2 ^ 32
  (s.portCounter t p c + m - mget 0 s.cong.base (t * 64 + p * 4 + c)) % m

/-- A new interval begins. -/
def State.congStart (s : State) : State :=
  let base := (List.range 36).foldl (fun m t => (List.range 7).foldl (fun m p => (List.range 3).foldl (fun m c =>
    mset 0 m (t * 64 + p * 4 + c) (s.portCounter t p c)) m) m) []
  { s with cong := { s.cong with at_ := s.now / ms 1, frame := s.frameNo, base := base, margin := [], deficit := [] }
           ren := { s.ren with peak := [] } }

/-- Words of the record of the interval that ends now (Table 17.5). -/
def State.congWords (s : State) : List Nat :=
  let ports (t : Nat) : List Nat := (List.range 8).map fun p =>
    if p = 7 ∨ !s.vlnk t then 0
    else s.portDelta t p 0 % 2 ^ 32 + s.portDelta t p 1 / 64 % 2 ^ 16 * 2 ^ 32 + s.portDelta t p 2 / 64 % 2 ^ 16 * 2 ^ 48
  let tile (t : Nat) : List Nat :=
    let lo := mget 0 s.cong.margin t
    [s.rd Reg.PW_POWER_P1MS t + max (mget 0 s.ren.peak t) (s.staging t) % 2 ^ 15 * 2 ^ 16 +
      (if lo = 0 then s.rd Reg.CK_STATUS_MARGIN t else lo - 1) % 2 ^ 6 * 2 ^ 31 +
      max (mget 0 s.cong.deficit t) (s.rd Reg.SCH_STRETCH_DEFICIT t) % 2 ^ 6 * 2 ^ 37 + b2n (!s.vlnk t) * 2 ^ 43, 0]
  let ws := [1 + s.ownMod * 2 ^ 4, s.cong.seq % 2 ^ 32, s.cong.at_ * ms 1, s.cong.frame % 2 ^ 48, 0, 0, 0, 0] ++
    (List.range 36).flatMap ports ++ (List.range 36).flatMap tile ++ List.replicate 143 0
  ws ++ [crc32c (ws.flatMap (leBytes 8)) + 2 ^ 32]

/-- Where record n of the ring lies: CM_BASE is read as an offset into T1 (log 10). -/
def State.congAddr (s : State) (n : Nat) : Nat := t1Key (s.rd Reg.CM_BASE_BASE 0 % 2 ^ 52 + n % 1024 * 4096)

/-- CONGESTION_RECORD, at a millisecond boundary of CK_T: a record where the interval before it has been kept; missed
intervals are counted. -/
def State.doCongestion (s : State) : State :=
  let m := s.now / ms 1
  if !s.clk.started || decide (m ≤ s.cong.at_) then s
  else if s.rd Reg.CM_CTL_ENABLE 0 = 0 then s.congStart
  else
    let n := m - s.cong.at_
    let s := if n = 1 then
        (s.stBytes (s.congAddr (s.rd Reg.CM_HEAD_HEAD 0)) (toBytes (s.congWords.flatMap (leBytes 8)))).bumpW Reg.CM_HEAD_HEAD 0
      else s.bump Reg.CM_CTL_MISSED 0 n
    ({ s with cong := { s.cong with seq := s.cong.seq + n } }).congStart

def execCongestionRecord (s : State) : Host.Outcome State Fault Refusal := .next s.doCongestion

/-! ### Telemetry (Table 17.4) -/

/-- What a PLDM sensor reads: °C, mV, W, J and the units of its register; none where no sensor has the id. -/
def State.sensor (s : State) (id : Nat) : Option Nat :=
  let t := id % 0x80
  match id with
  | 0x10 => some (s.rd Reg.IN_STATUS_VIN 0)
  | 0x11 => some (s.rd Reg.IN_STATUS_IIN 0)
  | 0x12 => some (s.rd Reg.IN_STATUS_VBULK 0)
  | 0x20 => some (s.rd Reg.TR_COOL_INLET 0 / 10)
  | 0x21 => some (s.rd Reg.TR_COOL_OUTLET 0 / 10)
  | 0x22 => some (s.rd Reg.TR_COOL_FLOW 0)
  | 0x30 => some (s.rd Reg.LG_CAP_CAP_W 0)
  | 0x31 => some (s.rd Reg.LG_USED_USED 0 / 10 ^ 6)
  | 0x32 => some (s.left.toNat / 10 ^ 6)
  | 0x33 => some (s.rd Reg.LG_MOD_MOD_LEVEL 0)
  | _ =>
    if 0x100 ≤ id ∧ id < 0x124 then some (s.rd Reg.PW_POWER_P1MS t)
    else if 0x200 ≤ id ∧ id < 0x224 then some (s.rd Reg.TL_TEMP_TEMP t)
    else if 0x300 ≤ id ∧ id < 0x420 ∧ id % 8 < 5 then some (s.rd Reg.PW_DOM_MIN_MV ((id - 0x300) / 8) (id % 8))
    else if 0x480 ≤ id ∧ id < 0x4A4 then some (s.rd Reg.CK_STATUS_MARGIN t)
    else if 0x500 ≤ id ∧ id < 0x524 then some (s.rd Reg.CK_STATUS_SETTING t)
    else if 0x600 ≤ id ∧ id < 0x624 then some (s.rd Reg.TL_LIFE_LIFE_USED t)
    else if 0x1000 ≤ id ∧ id < 0x1480 ∧ id % 0x20 < 28 then some (mget 0 s.tray.dieTemp (id - 0x1000))
    else none

/-- The records of the last second: their addresses. -/
def State.lastRecords (s : State) : List Nat :=
  let h := s.rd Reg.CM_HEAD_HEAD 0
  ((List.range (min h 1000)).map fun i => s.congAddr (h - 1 - i)).filter fun a => decide (s.cong.seq < s.ld (a + 8) 4 + 1001)

/-- READ_SENSORS (R485, R492). A mean is answered as three sums and the number of records they are taken over. -/
def State.doReadSensors (s : State) (ifc : MgmtIf) (item : TelItem) : State :=
  if !s.ctlUp then s
  else match item with
  | .sensor id => match s.sensor id.toNat with
    | some v => s.answer [v]
    | none => s
  | .link t l => if isRedfish ifc then s.answer [s.rd Reg.LK_STATUS_STATE (linkInst t.val l.val)] else s
  | .express t p => if isRedfish ifc then s.answer [s.rd Reg.XP_STATUS_STATE (xpInst t.val p.val)] else s
  | .reach p => if isRedfish ifc then s.answer [s.rd Reg.RP_STATUS_STATE p.val] else s
  | .congestion =>
    let h := s.rd Reg.CM_HEAD_HEAD 0
    if isRedfish ifc && h != 0 then s.answer ((List.range 512).map fun i => s.ld (s.congAddr (h - 1) + 8 * i) 8) else s
  | .portMeans t p =>
    if isRedfish ifc then
      let ws := s.lastRecords.map fun a => s.ld (a + 0x40 + 0x40 * t.val + 8 * p.val) 8
      s.answer [(ws.map (bitsOf · 31 0)).sum, 64 * (ws.map (bitsOf · 47 32)).sum, 64 * (ws.map (bitsOf · 63 48)).sum, ws.length]
    else s

def execReadSensors (ifc : MgmtIf) (item : TelItem) (s : State) : Host.Outcome State Fault Refusal := .next (s.doReadSensors ifc item)

/-- SET_POWER_CAP (R359). -/
def execSetPowerCap (_ifc : MgmtIf) (w : Nat) (s : State) : Host.Outcome State Fault Refusal :=
  .next (if s.ctlUp then s.setCap w else s)

/-- SET_TORUS_POSITION (R473): a valid position is stored; it takes effect at the next cold bring-up. -/
def State.doTorus (s : State) (ifc : MgmtIf) (x y z depth : Nat) : State :=
  if !s.overRedfish ifc || !(decide (1 ≤ depth) && decide (depth ≤ 4) && decide (z < depth)) then s
  else ((((s.wr Reg.TORUS_X 0 x).wr Reg.TORUS_Y 0 y).wr Reg.TORUS_Z 0 z).wr Reg.TORUS_DEPTH 0 depth).wr Reg.TORUS_VALID 0 1

def execSetTorusPosition (ifc : MgmtIf) (x : BitVec 2) (y : BitVec 2) (z : BitVec 2) (depth : BitVec 3) (s : State) :
    Host.Outcome State Fault Refusal := .next (s.doTorus ifc x.toNat y.toNat z.toNat depth.toNat)

/-- READ_FIELD_LOG: a record, counted from the newest. -/
def State.doReadLog (s : State) (ifc : MgmtIf) (area idx : Nat) : State :=
  if s.overRedfish ifc then s.answer (((s.logArea area).getD idx []).map BitVec.toNat) else s

def execReadFieldLog (ifc : MgmtIf) (area : BitVec 2) (idx : Nat) (s : State) : Host.Outcome State Fault Refusal :=
  .next (s.doReadLog ifc area.toNat idx)

/-! ### Firmware and attestation (17.2, 17.3) -/

/-- FIRMWARE_UPDATE (R490): the slot that is not in use is written, and verified before the update is reported complete
(answer 1; 0 where the slot is not valid). An interrupted update leaves the slot invalid. -/
def State.doUpdate (s : State) (u : UpdateIn) : State :=
  if !s.ctlUp then s
  else
    let i := 1 - (if u.culture then s.rd Reg.CUL_STATUS_SLOT 0 else s.boot.svcInUse)
    let x : Slot := if u.interrupted then {} else
      { written := true, data := u.data, svn := u.svn.toNat, keyIndex := u.keyIndex.toNat, sigOk := sigsBoth u.sigs
        release := if u.culture then bitsOf (ldList u.data 8 8) 31 0 else u.release.toNat }
    let s := { s with boot := if u.culture then { s.boot with cul := s.boot.cul.set i x } else { s.boot with svc := s.boot.svc.set i x } }
    if u.interrupted then s else s.answer [b2n (if u.culture then s.culOk i else s.svcOk i)]

def execFirmwareUpdate (_ifc : MgmtIf) (u : UpdateIn) (s : State) : Host.Outcome State Fault Refusal := .next (s.doUpdate u)

/-- Six words of a 384-bit digest held as a number, or as bytes. -/
def digestWords (n : Nat) : List Nat := (List.range 6).map fun i => n / 2 ^ (64 * i) % 2 ^ 64

/-- What measurement blocks 5 and 6 cover (Table 17.3). -/
def State.lifeFacts (s : State) : List Nat :=
  [s.rd Reg.LC_STATUS_STATE 0, s.mgmt.svcMin, s.mgmt.culMin, s.rd Reg.LC_SVN_KEY_REVOKED 0] ++ s.mgmt.ownerKey.toList
def State.debugFacts (s : State) : List Nat :=
  [b2n s.mgmt.token.isSome, s.rd Reg.LC_STATUS_LINK_INJECT 0, s.rd Reg.LC_ID_DEVICE_ID 0] ++ (s.mgmt.nonce.map Prod.fst).toList

/-- A measurement block as a SHA-384 digest (Table 17.3). -/
def State.measurement (s : State) (i : Nat) : List Nat :=
  let open_ (facts : List Nat) : List Nat := (List.range 6).map fun n => (Config.measure i facts n).toNat
  match i with
  | 1 => open_ []
  | 2 => digestWords (leNat (ofBytes (sha384 ((s.boot.svc.getD s.boot.svcInUse {}).data))))
  | 3 => (List.range 6).map fun n => s.rd Reg.CUL_DIGEST_DIGEST 0 n
  | 4 => digestWords s.mgmt.fuseDigest
  | 5 => open_ s.lifeFacts
  | 6 => open_ s.debugFacts
  | _ => []

/-- n free words of an answer, among them every signature. -/
def State.answerFree : Nat → State → State
  | 0, s => s
  | n + 1, s => State.answerFree n ((s.draw.2).answer [s.draw.1.toNat])

/-- ATTESTATION (R488): the SPDM responder, over MCTP, in every state but BLANK. What SPDM itself defines is free. -/
def State.doAttest (s : State) (ifc : MgmtIf) (req : SpdmReq) : State :=
  if !s.ctlUp || isRedfish ifc || s.rd Reg.LC_STATUS_STATE 0 == 0 then s
  else match req with
  | .getVersion => s.answer [0x12, 0x13]
  | .getMeasurements i => if 1 ≤ i ∧ i ≤ 6 then State.answerFree 12 (s.answer (s.measurement i)) else s
  | .challenge => State.answerFree 12 s
  | _ => State.answerFree 1 s

def execAttestation (ifc : MgmtIf) (req : SpdmReq) (s : State) : Host.Outcome State Fault Refusal := .next (s.doAttest ifc req)

/-! ### The life cycle (R495 to R497) -/

/-- SCR_CTL INJECT of every core is 0 (R527). -/
def State.clearInject (s : State) : State :=
  let own (k : Nat) : Bool := keyBlk k == blkNum .scratch && k % 2 ^ 26 == fkey Reg.SCR_CTL_INJECT 0 0 % 2 ^ 26
  { s with regs := mkeep (fun k => !own k) s.regs }

/-- The life-cycle state changes (R495); a token lapses (R499); INJECT is cleared on entry to FIELD and SCRAPPED (R527). -/
def State.toLife (s : State) (st : Nat) : State :=
  let s := (s.wr Reg.LC_STATUS_STATE 0 st).lapseToken
  if st = 2 ∨ st = 4 then s.clearInject else s

/-- Does an owner-signed command verify (R496)? -/
def State.ownerSigned (s : State) (sig : Sigs) : Bool :=
  s.rd Reg.LC_STATUS_STATE 0 == 2 && s.mgmt.ownerKey.isSome && sigsBoth sig

/-- SHIP: MAKER to FIELD. -/
def execShip (ifc : MgmtIf) (sig : Sigs) (s : State) : Host.Outcome State Fault Refusal :=
  .next (if s.overRedfish ifc && s.rd Reg.LC_STATUS_STATE 0 == 1 && sigsBoth sig then s.toLife 2 else s)

/-- RETURN (R497). While the input is lost only step 1 is done; the next SVC_BOOT completes step 2. -/
def State.doReturn (s : State) (ifc : MgmtIf) (sig : Sigs) : State :=
  if !s.overRedfish ifc || !s.ownerSigned sig || !s.vats.all (fun v => v.id == 0) then s
  else if s.pwr.lossAt.isSome then { (s.toLife 3) with mgmt := { (s.toLife 3).mgmt with eraseDue := true } }
  else (s.toLife 3).eraseOwner.coldStart 6 0

def execReturnCmd (ifc : MgmtIf) (sig : Sigs) (s : State) : Host.Outcome State Fault Refusal := .next (s.doReturn ifc sig)

/-- SCRAP (Table 17.6): from MAKER or RETURNED by the vendor, from FIELD by the owner; the owner key is erased and the
cells are off. -/
def State.doScrap (s : State) (ifc : MgmtIf) (byOwner : Bool) (sig : Sigs) : State :=
  let st := s.rd Reg.LC_STATUS_STATE 0
  let ok := if byOwner then s.ownerSigned sig else (st == 1 || st == 3) && sigsBoth sig
  if !s.overRedfish ifc || !ok then s
  else
    let s := (s.toLife 4).wr Reg.LC_STATUS_OWNED 0 0
    let s := { s with mgmt := { s.mgmt with ownerKey := none } }
    if s.pwr.lossAt.isSome then s else (s.coldStart 6 0).enterBu 2

def execScrap (ifc : MgmtIf) (byOwner : Bool) (sig : Sigs) (s : State) : Host.Outcome State Fault Refusal :=
  .next (s.doScrap ifc byOwner sig)

/-- OWNER_CLAIM (R496): within 60 s of a presence gesture, on a FIELD module without an owner. -/
def State.doClaim (s : State) (ifc : MgmtIf) (key : Nat) : State :=
  if !s.overRedfish ifc || s.rd Reg.LC_STATUS_STATE 0 != 2 || s.mgmt.ownerKey.isSome || s.rd Reg.TR_FP_PRESENCE_OPEN 0 != 1 ||
      decide (s.mgmt.presenceEnd ≤ s.age) then s
  else ({ s with mgmt := { s.mgmt with ownerKey := some key } }).wr Reg.LC_STATUS_OWNED 0 1

def execOwnerClaim (ifc : MgmtIf) (key : Nat) (s : State) : Host.Outcome State Fault Refusal := .next (s.doClaim ifc key)

/-- OWNER_KEY_REPLACE (R496, R499). -/
def State.doKeyReplace (s : State) (ifc : MgmtIf) (key : Nat) (sig : Sigs) : State :=
  if !s.overRedfish ifc || !s.ownerSigned sig then s
  else ({ s with mgmt := { s.mgmt with ownerKey := some key } }).lapseToken

def execOwnerKeyReplace (ifc : MgmtIf) (key : Nat) (sig : Sigs) (s : State) : Host.Outcome State Fault Refusal :=
  .next (s.doKeyReplace ifc key sig)

/-- COMMIT_SVN (R491): the minimum of an image type becomes the SVN of its image in use, at most 32 times. -/
def State.doCommit (s : State) (ifc : MgmtIf) (culture : Bool) (sig : Sigs) : State :=
  if !s.overRedfish ifc || !s.ownerSigned sig then s
  else if culture then
    let v := (s.boot.cul.getD (s.rd Reg.CUL_STATUS_SLOT 0) {}).svn
    if v ≤ s.mgmt.culMin ∨ 32 ≤ s.rd Reg.LC_SVN_SVN_STEPS_CUL 0 then s
    else ({ s with mgmt := { s.mgmt with culMin := v } }).bump Reg.LC_SVN_SVN_STEPS_CUL 0
  else
    let v := (s.boot.svc.getD s.boot.svcInUse {}).svn
    if v ≤ s.mgmt.svcMin ∨ 32 ≤ s.rd Reg.LC_SVN_SVN_STEPS_SVC 0 then s
    else ({ s with mgmt := { s.mgmt with svcMin := v } }).bump Reg.LC_SVN_SVN_STEPS_SVC 0

def execCommitSvn (ifc : MgmtIf) (culture : Bool) (sig : Sigs) (s : State) : Host.Outcome State Fault Refusal :=
  .next (s.doCommit ifc culture sig)

/-- KEY_REVOCATION (R491): signed by a key that is not revoked; the last slot that is not revoked stays. -/
def State.doRevoke (s : State) (ifc : MgmtIf) (signer slot : Nat) (sig : Sigs) : State :=
  let r := s.rd Reg.LC_SVN_KEY_REVOKED 0
  let left := (List.range 4).filter fun k => !bitOf r k
  if !s.overRedfish ifc || !sigsBoth sig || bitOf r signer || bitOf r slot || left == [slot] then s
  else s.wr Reg.LC_SVN_KEY_REVOKED 0 (r + 2 ^ slot)

def execKeyRevocation (ifc : MgmtIf) (signer : BitVec 2) (slot : BitVec 2) (sig : Sigs) (s : State) : Host.Outcome State Fault Refusal :=
  .next (s.doRevoke ifc signer.toNat slot.toNat sig)

/-- REGRADE (R495): the next of a die's four fuse-block revision rows; lane-history entries may be cleared. -/
def State.doRegrade (s : State) (ifc : MgmtIf) (t p : Nat) (g : Grade) (sig : Sigs) : State :=
  let k := dieKey t p
  let old := mget 0 s.mgmt.grades k
  let st := s.rd Reg.LC_STATUS_STATE 0
  if !s.overRedfish ifc || !(st == 1 || st == 3) || !sigsBoth sig || decide (4 ≤ old / 4) then s
  else
    let s := { s with mgmt := { s.mgmt with
      fuseDigest := g.digest
      grades := mset 0 s.mgmt.grades k ((old / 4 + 1) * 4 + (if g.crcOk then 2 + b2n g.bad else old % 4)) } }
    { s with lnk := { s.lnk with bad := s.lnk.bad.filter fun x => !g.clearLanes.contains x
                                 grpHist := s.lnk.grpHist.filter fun x => !g.clearGroups.contains x
                                 skewHist := s.lnk.skewHist.filter fun x => !g.clearEdges.contains x } }

def execRegrade (ifc : MgmtIf) (t : Tile) (ps : PSite) (g : Grade) (sig : Sigs) (s : State) : Host.Outcome State Fault Refusal :=
  .next (s.doRegrade ifc t.val ps.val g sig)

/-! ### Debug tokens (17.7) -/

/-- GET_NONCE (R498). -/
def State.doNonce (s : State) (ifc : MgmtIf) : State :=
  if !s.overRedfish ifc then s
  else
    let (a, s) := s.draw
    let (b, s) := s.draw
    let s := { s with mgmt := { s.mgmt with nonce := some (a.toNat + 2 ^ 64 * b.toNat, s.age + secs 600) } }
    s.answer [a.toNat, b.toNat]

def execGetNonce (ifc : MgmtIf) (s : State) : Host.Outcome State Fault Refusal := .next (s.doNonce ifc)

/-- The checks of R499 on a token's body (Table 17.8). -/
def State.tokenOk (s : State) (b : Nat) : Bool :=
  b % 16 == 1 && bitsOf b 63 5 == 0 && bitsOf b 127 64 == s.rd Reg.LC_ID_DEVICE_ID 0 &&
    s.mgmt.nonce.any (fun n => n.1 == bitsOf b 255 128 && decide (s.age < n.2)) &&
    decide (1 ≤ bitsOf b 272 256) && decide (bitsOf b 272 256 ≤ 86400) && bitsOf b 383 273 == 0

/-- TOKEN_INSTALL (R499): the nonce is consumed, an earlier token replaced. -/
def State.doToken (s : State) (ifc : MgmtIf) (body : BitVec 384) (sig : Sigs) : State :=
  let b := body.toNat
  if !s.overRedfish ifc || !s.ownerSigned sig || !s.tokenOk b then s
  else
    let s := if bitOf b 4 then s else s.lapseToken
    let d := bitsOf b 272 256
    let s := { s with mgmt := { s.mgmt with nonce := none, token := some body, tokenEnd := s.age + secs d } }
    ((s.wr Reg.LC_STATUS_TOKEN_ACTIVE 0 1).wr Reg.LC_STATUS_LINK_INJECT 0 (b2n (bitOf b 4))).wr Reg.LC_STATUS_TOKEN_LEFT 0 d

def execTokenInstall (ifc : MgmtIf) (body : BitVec 384) (sig : Sigs) (s : State) : Host.Outcome State Fault Refusal :=
  .next (s.doToken ifc body sig)

/-- REVOKE_TOKEN. -/
def execRevokeToken (ifc : MgmtIf) (s : State) : Host.Outcome State Fault Refusal :=
  .next (if s.overRedfish ifc && s.mgmt.token.isSome then s.lapseToken else s)

/-- TOKEN_LAPSE: the token's DURATION has run out. -/
def execTokenLapse (s : State) : Host.Outcome State Fault Refusal :=
  .next (if s.mgmt.token.isSome && decide (s.mgmt.tokenEnd ≤ s.age) then s.lapseToken else s)

end Sys2Proof.Machine
end

