-- ==== Sys2Proof/Machine/Csr.lean ====
section
/-! DEFINITION. CSR space and BAR0 (R7, R31, R463, R464, 19): which block, instance and field an address names, what a read
returns, and what a write does: to registers with a behaviour of their own that behaviour, to others the access codes of
Table 0.4. -/

namespace Sys2Proof.Machine

/-! ### Addresses (R31, Table 19.1) -/

/-- A block of the base die by offset bits 27:20. -/
def csrBase (t b x : Nat) : Option (Blk × Nat × Nat) :=
  let n := x / 4096
  let y := x % 4096
  let one (k : Blk) : Option (Blk × Nat × Nat) := if t = 0 then some (k, 0, x) else none
  match b with
  | 0x00 => if 0x1000 ≤ x then some (.tileSite, t, x - 0x1000) else none
  | 0x01 => if n < 4 then some (.tierMover, t * 4 + n, y) else none
  | 0x02 => if n < 24 ∧ stackTile n = t then some (.t1Stack, n, y) else none
  | 0x03 => if n < 2 then some (.t2Pkg, t * 2 + n, y) else none
  | 0x04 => (t3Port t).map fun p => (.t3Port, p, x)
  | 0x05 => one .tierGrant
  | 0x06 => some (.sched, t, x)
  | 0x07 => some (.dyn, t, x)
  | 0x08 => some (.dirtab, t, x)
  | 0x09 => one .rennet
  | 0x0A => some (.churn, t, x)
  | 0x0B => if n < 11 then some (.link, linkInst t n, y) else none
  | 0x0C => if n < 4 then some (.express, xpInst t n, y) else none
  | 0x0D => if n < 32 ∧ reachHost n = t then some (.reach, n, y) else none
  | 0x0E => one .laser
  | 0x0F => some (.linkInj, t, x)
  | 0x10 => some (.tilePower, t, x)
  | 0x11 => one .ledger
  | 0x12 => one .moduleInput
  | 0x13 => some (.clock, t, x)
  | 0x14 => one .time
  | 0x15 => some (.fault, t, x)
  | 0x16 => one .faultLog
  | 0x17 => one .bringup
  | 0x18 => one .mgmt
  | 0x19 => some (.thermalLife, t, x)
  | 0x1A => one .tray
  | _ => none

/-- A block of a compute die by cluster key, offset bits 27:24 and 19:16. -/
def csrDie (ck b n x : Nat) : Option (Blk × Nat × Nat) :=
  match b with
  | 2 => if n < 2 then some (.matrixChk, coreOf ck n, x) else none
  | 3 => if n < 4 then some (.cmdQueue, ck * 4 + n, x) else if n = 4 then some (.cmdCounter, ck, x) else none
  | 4 => if n < 5 then some (.scratch, coreOf ck n, x) else none
  | 5 => if n < 5 then some (.schedInj, coreOf ck n, x) else none
  | 6 => if n = 0 then some (.dynInj, ck, x) else none
  | _ => none

/-- Block, instance and offset of a CSR address (bits 37:0); none where Table 19.1 has no such block. -/
def csrFind (a : Nat) : Option (Blk × Nat × Nat) :=
  let t := bitsOf a 37 32
  let p := bitsOf a 30 28
  let o := a % 2 ^ 28
  if p = 7 then csrBase t (o / 2 ^ 20) (o % 2 ^ 20)
  else if bitsOf o 23 20 < 4 then csrDie (t * 32 + p * 4 + bitsOf o 23 20) (o / 2 ^ 24) (bitsOf o 19 16) (o % 2 ^ 16)
  else none

/-- Does a CSR access reach a block that works (R31, R520)? The tile's base die has started and has VLNK; a compute die is
powered. -/
def State.csrLive (s : State) (a : Nat) : Bool :=
  let t := bitsOf a 37 32
  let p := bitsOf a 30 28
  s.vlnk t && (p == 7 || s.dieOn t p)

/-- The fields of a register, each with its index. -/
def fldsAt (b : Blk) (off : Nat) : List (Fld × Nat) :=
  (blkFlds b).filterMap fun f =>
    if f.off ≤ off ∧ (off - f.off) % f.step = 0 ∧ (off - f.off) / f.step < f.cnt then some (f, (off - f.off) / f.step) else none

/-! ### Reads -/

/-- CQ_STATUS FROZEN: the cluster's vat is paused or held, or its site is migrating (Table 4.7; of a reserved cluster R413). -/
def State.queueFrozen (s : State) (ck : Nat) : Bool :=
  s.vatHalted (s.vatIdOf ck) || s.flt.migrs.any fun m => decide (1 ≤ m.ph) && m.tile == ckTile ck && m.old == ckSite ck

/-- CQ_STATUS HEAD (Table 4.7). -/
def State.headCode (s : State) (qk : Nat) : Nat :=
  match s.que qk with
  | [] => 0
  | e :: _ => match e.st with
    | .waiting => 1
    | .running => if (s.core (coreOf (qk / 4) (qk % 4))).held then 3 else 2
    | .ended _ => 2
    | .interrupted => 4
    | .failed _ => 5

/-- Flits of a class that wait at an input port; of code 6, in the tile's reach stages together (R274). -/
def State.portHeld (s : State) (t port cls : Nat) : Nat :=
  if port = 6 then (((List.range 32).filter fun p => reachHost p == t).map fun p => s.heldFlits t (16 + p) cls).sum
  else if port = 7 then 0 else s.heldFlits t port cls

/-- RX_POWER: what a receive port of a lit kind measures, at least half of nominal during a takeover (R325, R337; log 35). -/
def State.rxPower (s : State) (i : Nat) : Nat :=
  let pair := i % 4 / 2
  let x := (Config.rxPower i s.now).toNat
  if i % 2 = 0 ∨ (neighbour (i / 4) (4 + pair)).isNone ∨ !(s.lit (2 * pair) || s.lit (2 * pair + 1)) then 0
  else if s.inTakeover (pair == 1) then max 50 x else x

/-- The M-core whose instruction an M-core shows: in twin mode M0's at both (R88, R89). -/
def State.mShown (s : State) (core : Nat) : Nat := if (s.core core).twin then coreOf (cluOfCore core) 0 else core

/-- Does an M-core run an instruction (MPROG.ACTIVE)? -/
def State.mActive (s : State) (core : Nat) : Bool :=
  let k := s.mShown core
  (s.que (cluOfCore k * 4 + slotOf k)).head?.any fun e => e.st == .running && e.isM

/-- Whole units of time that are left until a time of `age`. -/
def State.leftOf (s : State) (until_ unit : Nat) : Nat := (until_ - s.age + unit - 1) / unit

/-- FN_ID's fields of a function (Table 16.3). -/
def State.fnId (s : State) (fn : Nat) (f : Fld) : Nat :=
  if f = Reg.FN_ID_KIND then min fn 2
  else if f = Reg.FN_ID_VF then fn - 1
  else if f = Reg.FN_ID_VAT then (if fn < 2 then 0 else mget 0 s.host.vfVat (fn - 1))
  else fnQueues fn

/-- What a field reads that the rest of the state shows rather than `regs`; none for every other field. A spill is one step, so
MPROG.SPILLING reads 0 between steps. -/
def State.shown (s : State) (f : Fld) (i k : Nat) : Option Nat :=
  match f.blk with
  | .matrixChk =>
    if f = Reg.MPROG_FOLD_INDEX then some (((s.core (s.mShown i)).run.map MRun.fold).getD 0)
    else if f = Reg.MPROG_ACTIVE then some (b2n (s.mActive i))
    else if f = Reg.MPROG_HELD then some (b2n (s.core i).held)
    else none
  | .cmdQueue =>
    if f = Reg.CQ_STATUS_DEPTH then some (s.que i).length
    else if f = Reg.CQ_STATUS_HEAD then some (s.headCode i)
    else if f = Reg.CQ_STATUS_FROZEN then some (b2n (s.queueFrozen (i / 4)))
    else if f = Reg.CQ_STATUS_TWIN_CLAIMED then some (b2n (i % 4 == 1 && (s.core (coreOf (i / 4) 1)).twin))
    else none
  | .scratch =>
    if (f = Reg.PAIL_W0_VALID ∨ f = Reg.PAIL_W0_SVC_ONLY) ∧ (k = 0 ∨ k = 63) then some 1
    else if f = Reg.PAIL_W0_BASE_4K ∧ (k = 0 ∨ k = 63) then some ((s.pail i k).base / 4096)
    else if f = Reg.PAIL_W0_SIZE_M1 ∧ (k = 0 ∨ k = 63) then some ((s.pail i k).size / 4096 - 1)
    else if f = Reg.MSE_STATUS_OCCUPANCY then some (s.mse i).length
    else if f = Reg.MSE_STATUS_REMAINING then some (((s.mse i).head?.map MseOp.len).getD 0)
    else none
  | .schedInj =>
    if f = Reg.INJ_STATUS_COUNT then some (s.injList i).length
    else if f = Reg.INJ_STATUS_ACTIVE then some (b2n (s.injActive i))
    else none
  | .dynInj =>
    if f = Reg.DI_STATUS_STREAMS then some ((s.sc i).streams.length)
    else if f = Reg.DI_STATUS_STOPPED then
      some (max (s.rd f i) (b2n ((s.fops i).any fun o => decide (o.sent < o.total) && s.injHeld (ckTile i) o.cls o.vat)))
    else none
  | .dyn =>
    if f = Reg.PORT_OCC_REQ then some (s.portHeld i k 0)
    else if f = Reg.PORT_OCC_RSP then some (s.portHeld i k 1)
    else if f = Reg.PORT_OCC_CHN then some (s.portHeld i k 2)
    else if f = Reg.PORT_OCC_SVC then some (s.portHeld i k 3)
    else if f = Reg.PORT_OFF_CYCLES then some (s.rd f i k + s.offRuns i k)
    else if f = Reg.PORT_WAIT_CYCLES then some (s.rd f i k + s.waitRuns i k)
    else if f = Reg.DYN_CTL_DRAINED then some s.drainedMask
    else none
  | .sched =>
    if f = Reg.SCH_STATUS_SLOT then some s.slotIx
    else if f = Reg.SCH_STATUS_FRAME then some s.frameNo
    else if f = Reg.SCH_STATUS_HOLD_PEND then some (b2n s.sch.holdAt.isSome)
    else if f = Reg.SCH_STRETCH_HOLD_TARGET then some (s.sch.holdAt.getD 0)
    else none
  | .rennet =>
    let v := s.rd Reg.RN_SEL_VAT 0
    let g := s.expGlobal k
    if f = Reg.RN_OR_OR then some (s.orFlags v).toNat
    else if f = Reg.RN_AND_AND then some (s.andFlags v).toNat
    else if f = Reg.RN_BAR_BARRIERS then some (mget 0 s.ren.bars v)
    else if f = Reg.EXP_GLOBAL_EXP ∨ f = Reg.EXP_GLOBAL_TAG ∨ f = Reg.EXP_GLOBAL_COMPLETE ∨ f = Reg.EXP_GLOBAL_MODULES ∨
        f = Reg.EXP_GLOBAL_SEALED ∨ f = Reg.EXP_GLOBAL_INCLUDED then some (g / 2 ^ f.lo)
    else none
  | .ledger => if f = Reg.LG_LEFT_LEFT then some (s.left % (2 ^ 48 : Nat)).toNat else none
  | .express => if f = Reg.XP_STATUS_RX_POWER then some (s.rxPower i) else none
  | .laser => if f = Reg.LS_CART_HOURS then some (s.rd f i k + s.laserHours k) else none
  | .moduleInput => if f = Reg.RM_STATUS_LIGHT then some s.light else none
  | .tileSite => if f = Reg.SITE_STATUS_BUSY then some (b2n (s.siteBusy i)) else none
  | .time => if f = Reg.TM_NOW_NOW then some s.now else none
  | .fault =>
    let last := mget 0 s.flt.lastTest (dieKey i k)
    if f = Reg.FT_DIE_TEST_AGE then
      some (if last = 0 then 0xFFFF else min 0xFFFF ((s.now - (last - 1) / 2) / secs 3600))
    else if f = Reg.FT_DIE_STRIKES then some (if s.now < mget 0 s.flt.strikeAt (dieKey i k) + days30 then s.rd f i k else 0)
    else if f = Reg.FT_DIE_UE_1H then
      some (min 255 (s.flt.ues.filter fun u => u.1 == dieKey i k && decide (s.now < u.2.2 + secs 3600)).length)
    else none
  | .faultLog =>
    if f = Reg.FL_DATA_WORD then
      some ((((s.logArea (s.rd Reg.FL_SEL_FL_AREA 0)).getD (s.rd Reg.FL_SEL_FL_INDEX 0) []).getD k 0).toNat)
    else none
  | .bringup =>
    if f = Reg.BU_STATUS_ELAPSED then
      some (if s.buSt = 12 then s.rd f 0 else if s.buSt = 0 then 0 else (s.age - s.boot.beganAt) / ms 1)
    else if f = Reg.BU_TEST_TEST_AGE_H then some s.testAge
    else none
  | .mgmt =>
    if f = Reg.LC_STATUS_TOKEN_LEFT then some (if s.mgmt.token.isSome then s.leftOf s.mgmt.tokenEnd (secs 1) else 0) else none
  | .tray =>
    if f = Reg.TR_CMP_RESTARTS_1H then some s.restarts
    else if f = Reg.TR_FP_PRESENCE_LEFT then
      some (if s.rd Reg.TR_FP_PRESENCE_OPEN 0 = 1 then s.leftOf s.mgmt.presenceEnd (secs 1) else 0)
    else none
  | .fnRegs => if f.off = 0 then some (s.fnId i f) else none
  | .qRegs => if f = Reg.Q_CFG_VAT then some (s.queueVat (i / 32) (i % 32)) else none
  | _ => none

/-- A field as a read shows it; write-only fields read 0, and so do link records without a peer (R336). -/
def State.fldValue (s : State) (f : Fld) (i k : Nat) : Nat :=
  if f.acc = .wo then 0
  else if f.blk = .link ∧ (if i % 16 < 4 then (neighbour (i / 16) (i % 16)).isNone else s.siteSt (i / 16) (i % 16 - 4) = 0) then 0
  else ((s.shown f i k).getD (s.rd f i k)) % 2 ^ f.w

/-- A register: its fields at their places, reserved bits 0. -/
def State.regValue (s : State) (b : Blk) (i off : Nat) : Nat :=
  ((fldsAt b off).map fun e => s.fldValue e.1 i e.2 * 2 ^ e.1.lo).sum

/-- A CSR read at service privilege (R31, R520); a read of CK_SITE resets its minimum (Table 13.5). -/
def State.csrRead (s : State) (a : Nat) : State × Nat :=
  if !s.csrLive a then (s, 0)
  else match csrFind a with
  | none => (s, 0)
  | some (b, i, off) =>
    let v := s.regValue b i off
    (s.each ((fldsAt b off).filter fun e => decide (e.1 = Reg.CK_SITE_MIN_MARGIN)) fun s e => s.wr e.1 i 63 e.2, v)

/-! ### Writes -/

/-- Are RWL fields writable (Table 19.3)? INJ_CTL has a rule of its own. -/
def State.rwlOpen (s : State) : Bool := [0, 1, 3].contains (s.rd Reg.LC_STATUS_STATE 0)

/-- A field under its access code (Table 0.4). -/
def State.wrAcc (s : State) (f : Fld) (i k v : Nat) : State :=
  match f.acc with
  | .ro => s
  | .wo => s
  | .rw => s.wr f i v k
  | .rwl => if s.rwlOpen then s.wr f i v k else s
  | .w1c => s.wr f i (s.rd f i k - (s.rd f i k &&& v)) k
  | .w1s => s.wr f i (s.rd f i k ||| v) k

/-- REGISTER_WRITE (R7): every field of a register under its access code. -/
def State.wrFields (s : State) (b : Blk) (i off v : Nat) : State :=
  s.each (fldsAt b off) fun s e => s.wrAcc e.1 i e.2 (v / 2 ^ e.1.lo % 2 ^ e.1.w)

/-- SITE_CMD (Table 1.5); a SUBSTITUTE asked for here goes through (log 41). -/
def State.siteCmd (s : State) (t v : Nat) : State :=
  match bitsOf v 4 3 with
  | 1 => s.doMigrate t (v % 8) (bitOf v 5)
  | 2 => s.doSubstitute t (v % 8) .ok
  | _ => s

/-- CQ_CTL (Table 4.7, R117). -/
def State.queueCtl (s : State) (qk v : Nat) : State :=
  match v % 4 with
  | 1 => s.doRetry (qk / 4) (qk % 4)
  | 2 => s.doSkip (qk / 4) (qk % 4)
  | 3 => s.doFlush (qk / 4) (qk % 4)
  | _ => s

/-- CK_CTL, field by field (R394). -/
def State.clockCtl (s : State) (t v : Nat) : State :=
  let th := bitsOf v 7 2
  let s := if s.rwlOpen && decide (1 ≤ th) && decide (th ≤ 16) then s.wr Reg.CK_CTL_STRETCH_TH t th else s
  let w := bitsOf v 13 8
  let s := if s.rd Reg.CK_CTL_STRETCH_TH t ≤ w ∧ w ≤ 32 then s.wr Reg.CK_CTL_WARN_TH t w else s
  if s.clk.started then s.requestDiv t (v % 4) else s.wr Reg.CK_CTL_DIV_REQ t (v % 4)

/-- RM_CTL (Table 12.7, R370). -/
def State.removeCtl (s : State) (v : Nat) : State :=
  let s := s.wr Reg.RM_CTL_FORCE 0 (bitsOf v 1 1)
  let d := bitsOf v 11 2
  let s := if 1 ≤ d ∧ d ≤ 600 then s.wr Reg.RM_CTL_DRAIN_TIMEOUT 0 d else s
  let s := if bitOf v 0 then s.removeRequest else s
  if !bitOf v 12 then s
  else
    let s := s.wr Reg.RM_CTL_DRAIN_DONE 0 1
    if s.rd Reg.RM_STATUS_PHASE 0 = 1 then s.shutDown else s

/-- RST_CMD (Table 15.9): the target is stored; GO starts the reset (R450). -/
def State.resetCmd (s : State) (v : Nat) : State :=
  let t := bitsOf v 8 3
  let p := bitsOf v 11 9
  let core := t * 256 + p * 32 + bitsOf v 13 12 * 8 + bitsOf v 16 14
  let s := ((((s.wr Reg.RST_CMD_SCOPE 0 (v % 8)).wr Reg.RST_CMD_TILE 0 t).wr Reg.RST_CMD_PSITE 0 p).wr Reg.RST_CMD_CLUSTER 0
    (bitsOf v 13 12)).wr Reg.RST_CMD_SLOT 0 (bitsOf v 16 14)
  let ok (n : Nat) : Bool := decide (t < 36) && decide (p < 7) && decide (bitsOf v 16 14 < n)
  if !bitOf v 17 then s
  else match v % 8 with
  | 1 => if ok 5 then s.coreReset core else (s.askReset 1 []).1
  | 2 => if ok 8 then s.dieReset t p else (s.askReset 2 []).1
  | 3 => if t < 36 then s.tileReset t else (s.askReset 3 []).1
  | 4 => (s.askReset 4 s.moduleCores).1
  | 5 => s.doWarmReset
  | 6 => s.doColdReset
  | _ => s

/-- RP_CTL (Table 11.10): 1 trains a port that is down; 0 takes it out of use. -/
def State.reachCtl (s : State) (p v : Nat) : State :=
  if bitOf v 0 then s.doReachEnable p
  else
    let s := s.wr Reg.RP_CTL_ENABLE p 0
    if s.reachUp p then (s.wr Reg.RP_STATUS_STATE p 0).bump Reg.RP_ERR_DOWN_EVENTS p else s.wr Reg.RP_STATUS_STATE p 0

/-- LK_CFG: a write outside the ranges is ignored (R336). -/
def State.linkCfg (s : State) (i v : Nat) : State :=
  if 1 ≤ bitsOf v 4 0 ∧ 6 ≤ bitsOf v 8 5 ∧ 1 ≤ bitsOf v 24 9 then s.wrFields .link i 0x10 v else s

/-- EXP_LOCAL (Table 10.11): exponent and TAG, then SEAL. -/
def State.expLocal (s : State) (lane v : Nat) : State :=
  let s := s.doExpLocal s.ownMod lane (bitsOf v 15 0) (bitsOf v 31 16)
  if bitOf v 32 then s.doSeal s.ownMod lane else s

/-- CM_CTL: counting begins where ENABLE turns 1 (R492). -/
def State.congCtl (s : State) (v : Nat) : State :=
  let was := s.rd Reg.CM_CTL_ENABLE 0
  let s := s.wr Reg.CM_CTL_ENABLE 0 (v % 2)
  if was = 0 ∧ v % 2 = 1 then s.congStart else s

/-- LG_CAP (Table 12.9): CFG_CLAMP clears where it is written 1; then the cap (R359). -/
def State.capWrite (s : State) (v : Nat) : State := (if bitOf v 15 then s.wr Reg.LG_CAP_CFG_CLAMP 0 0 else s).setCap (bitsOf v 14 0)

/-- A CSR write to a register at service privilege. -/
def State.regWrite (s : State) (b : Blk) (i off v : Nat) : State :=
  match b with
  | .tileSite => if off = 0x10 then s.siteCmd i v else s.wrFields b i off v
  | .cmdQueue => if off = 0x10 then s.queueCtl i v else s.wrFields b i off v
  | .tierGrant => if off % 8 = 0 ∧ off < 0x8000 then s.doGrantWrite (off / 128) (off / 8 % 16) v else s
  | .dyn => if off = 0 then s.doDynBuf i v else if off = 0x10 then s.doDynTmo i v else s.wrFields b i off v
  | .churn =>
    if off < 0x800 then (if i = 0 ∧ off % 8 = 0 then s.doChVat (off / 8) v else s)
    else if 0x1000 ≤ off ∧ off < 0x1200 ∧ off % 8 = 0 then s.doChNode i ((off - 0x1000) / 8) v
    else s.wrFields b i off v
  | .rennet =>
    if 0x400 ≤ off ∧ off < 0x600 ∧ off % 8 = 0 then s.expLocal ((off - 0x400) / 8) v
    else if 0x100 ≤ off ∧ off < 0x300 ∧ off % 8 = 0 then (s.wrFields b i off v).clearLane ((off - 0x100) / 8)
    else s.wrFields b i off v
  | .link => if off = 0x10 then s.linkCfg i v else s
  | .reach => if off = 0 then s.reachCtl i v else s
  | .laser => if off = 0x40 then s.each ((List.range 4).filter (bitOf v)) State.doCartRelease else s
  | .linkInj => if off = 0 then s.injCtl i v else s.wrFields b i off v
  | .ledger => if off = 0 then s.capWrite v else s.wrFields b i off v
  | .moduleInput => if off = 0x10 then s.removeCtl v else s
  | .clock => if off = 8 then s.clockCtl i v else s
  | .fault => if off = 0x40 then (if bitOf v 0 then s.doTestDry i else s) else s.wrFields b i off v
  | .bringup => if off = 0x80 then s.resetCmd v else s.wrFields b i off v
  | .mgmt => if off = 0x28 then s.congCtl v else s.wrFields b i off v
  | .tray => if off = 0x10 then (if 45 ≤ v % 64 ∧ v % 64 ≤ 62 then s.wr Reg.TR_CTL_OUT_LIMIT 0 (v % 64) else s) else s
  | _ => s.wrFields b i off v

/-- A CSR write (R31, R520). -/
def State.csrWrite (s : State) (a v : Nat) : State :=
  if !s.csrLive a then s
  else match csrFind a with
  | none => s
  | some (b, i, off) => s.regWrite b i off v

/-! ### The host's view (16.2) -/

/-- The CSR window (R464): an access at CSR_ADDR; what R31 refuses sets ERR. Registers of another module read a free value
here. `write` says which access. -/
def State.csrWindow (s : State) (write : Bool) (v : Nat) : State :=
  let a := s.rd Reg.CSR_ADDR_ADDR 0
  let m := bitsOf a 61 56
  let ok := decide (a < 2 ^ 62) && s.isModule m && bitsOf a 55 52 == 0xE && bitsOf a 51 38 == 0 && !bitOf a 31 &&
    decide (bitsOf a 37 32 ≤ 35) && a % 8 == 0
  if !ok then (s.wr Reg.CSR_STAT_ERR 0 1).wr Reg.CSR_DATA_DATA 0 0
  else if m ≠ s.ownMod then (if write then s else (s.draw.2).wr Reg.CSR_DATA_DATA 0 s.draw.1.toNat)
  else if write then s.csrWrite (a % 2 ^ 38) v
  else
    let (s, x) := s.csrRead (a % 2 ^ 38)
    s.wr Reg.CSR_DATA_DATA 0 x

/-- CSR_DATA_ACCESS (R464): a read leaves its result in CSR_DATA. -/
def execCsrDataAccess (write : Bool) (v : Word) (s : State) : Host.Outcome State Fault Refusal :=
  .next (if s.host.up then s.csrWindow write v.toNat else s)

/-- Q_CFG (Table 16.4): VAT is writable on PF1 alone; ENABLE acts under R465. -/
def State.queueCfg (s : State) (fn q v : Nat) : State :=
  let i := qInst fn q
  if s.qOn fn q then (if bitOf v 21 then s else s.doQueueDisable fn q)
  else
    let s := ((s.wr Reg.Q_CFG_SQ_LOG2 i (v % 16)).wr Reg.Q_CFG_CQ_LOG2 i (bitsOf v 7 4)).wr Reg.Q_CFG_VECTOR i (bitsOf v 20 16)
    let s := if fn = 1 then s.wr Reg.Q_CFG_VAT i (bitsOf v 15 8) else s
    if !bitOf v 21 then s.doQueueDisable fn q
    else if s.rd Reg.Q_CFG_ENABLE i = 0 then s.doQueueEnable fn q
    else s

/-- A write to BAR0 of a function (R463, Tables 16.2 to 16.4); ring registers of a queue in service stand (R465). -/
def State.barWrite (s : State) (fn off v : Nat) : State :=
  let q := (off - 0x1000) / 0x40
  let r := off % 0x40
  let d := (off - 0x2000) / 0x10
  if !s.host.up || decide (64 < fn) || off % 8 != 0 then s
  else if fn = 0 ∧ off = 0x108 then s.csrWindow true v
  else if fn = 0 ∧ (off = 0x100 ∨ off = 0x110) then s.wrFields .fnRegs 0 off v
  else if 0x1000 ≤ off ∧ off < 0x2000 ∧ q < fnQueues fn then
    if r = 0x10 then s.queueCfg fn q v else if s.qOn fn q then s else s.wrFields .qRegs (qInst fn q) r v
  else if 0x2000 ≤ off ∧ off < 0x2200 ∧ d < fnQueues fn then
    if off % 16 = 0 then s.doSqTail fn d v else s.doCqHead fn d v
  else if 0x8000 ≤ off ∧ off < 0x8200 then
    { s with host := { s.host with msixTable := mset 0 s.host.msixTable (fn * 65536 + off) v } }
  else s

/-- A write in CSR space by its panel address: an aligned 8-byte access (R31). -/
def State.csrStore (s : State) (a v : Nat) : State :=
  if bitsOf a 55 52 = 0xE ∧ bitsOf a 51 38 = 0 ∧ !bitOf a 31 ∧ bitsOf a 37 32 ≤ 35 ∧ a % 8 = 0 ∧ a < 2 ^ 56 then s.csrWrite (a % 2 ^ 38) v
  else s

/-- REGISTER_WRITE (R7, R521). -/
def State.doRegWrite (s : State) (sp : RegSpace) (addr v : Nat) : State :=
  match sp with
  | .csr => s.csrStore addr v
  | .bar fn => s.barWrite fn.toNat addr v

def execRegisterWrite (sp : RegSpace) (addr : Nat) (v : Word) (s : State) : Host.Outcome State Fault Refusal :=
  .next (s.doRegWrite sp addr v.toNat)

end Sys2Proof.Machine
end

