-- ==== Sys2Proof/Machine/Arrive.lean ====
section
/-! DEFINITION. Packets at the end of their way (R249 to R251, R270): requests are resolved by Table 9.8, applied and answered,
and replies reach what waits for them (Table 9.4). -/

namespace Sys2Proof.Machine

/-! ### Where a request goes -/

/-- What a request acts on: a range of a core's scratch, or an address at the base die. -/
inductive Place where
  | scr (core off : Nat)
  | mem (t : Tgt)
  deriving DecidableEq, Repr

/-- Does a memory, register or boot address lie in the installed range, and does an access of this length suit it (R30, R31,
row 4 of Table 9.8)? -/
def State.tgtFits (s : State) (t : Tgt) (len : Nat) (svc : Bool) : Bool :=
  match t with
  | .scr _ _ => false
  | .t1 off => decide (off + len ≤ t1Cap)
  | .t2 _ off => decide (off + len ≤ t2Cap)
  | .t3 p off => decide (off + len ≤ s.t3Mapped p)
  | .host _ => true
  | .csr a => svc && len == 8 && decide (a % 8 = 0)
  | .boot _ => svc

/-- Rows 1 to 4 of Table 9.8 for `len` bytes at a destination word, and where they lie. -/
def State.judge (s : State) (p : Pkt) (w len : Nat) (write : Bool) : Verdict × Place :=
  let svc := p.cls == 3
  if w < 2 ^ 63 then
    let a := pailAddr w
    let j := s.judgeCore p a.id fun c => decide (cidSlot a.id ≤ 4) && (s.pail c a.pail).takes svc write a.off len
    (j.1, .scr j.2 ((s.pail j.2 a.pail).base + a.off))
  else
    match decodePa (w % 2 ^ 56) with
    | some (.scr id off) =>
      let j := s.judgeCore p id fun _ => decide (cidSlot id ≤ 4) && decide (off + len ≤ scrSize (cidSlot id))
      (j.1, .scr j.2 off)
    | some t => (if !p.crcOk then .resend else if s.tgtFits t len svc then .go else .bounds, .mem t)
    | none => (if !p.crcOk then .resend else .bounds, .mem (.boot 0))

/-- Who answers for a place: the cluster of a core, or the base die. -/
def Place.owner : Place → Option Nat
  | .scr core _ => some (cluOfCore core)
  | .mem _ => none

/-- Refusal by rows 1 to 4; a pail's refusal is counted at its core as well (Table 6.8). -/
def State.refuseAt (s : State) (p : Pkt) (v : Verdict) (pl : Place) : State :=
  let s := match v, pl with
    | .bounds, .scr core _ => if p.daddr.toNat < 2 ^ 63 then s.bump Reg.SCR_STATS_BND_NACKS core else s
    | _, _ => s
  s.refuse p v pl.owner

/-- A packet goes down to the die of the place it is judged for (R270); none where it waits, is lost or is held back on the way. -/
def State.toPlace (s : State) (p : Pkt) (v : Verdict) (pl : Place) : State × Option Pkt :=
  match pl with
  | .mem _ => (s, some p)
  | .scr core _ =>
    if !v.below then (s, some p) else if s.downOpen p (cluOfCore core) then s.down p (cluOfCore core) else (s, none)

/-- Reads a place: the bytes, or the cause of row 6. The boot and service region answers free values. -/
def State.readPlace (s : State) (pl : Place) (len : Nat) : State × List Byte × Option Nat :=
  match pl with
  | .scr core off =>
    let (s, ok) := s.readScr core off len 4
    (s, s.ldBytes (scrKey core off) len, if ok then none else some cEcc)
  | .mem (.csr a) =>
    let (s, v) := s.csrRead (a % 2 ^ 38)
    (s, toBytes (leBytes len v), none)
  | .mem (.boot _) =>
    let (s, bs) := State.drawBytes len s
    (s, bs, none)
  | .mem t =>
    let (s, bs, bad) := s.readMem t len
    (s, bs, if bad then some cPoison else none)

/-- Writes a place. -/
def State.writePlace (s : State) (pl : Place) (bs : List Byte) : State :=
  match pl with
  | .scr core off => s.writeScr core off bs
  | .mem (.csr a) => s.csrWrite (a % 2 ^ 38) (leNat (ofBytes bs))
  | .mem (.boot _) => s
  | .mem t => s.writeMem t bs

/-! ### Requests -/

/-- Where a READ_RESP goes: the return address; its route is the reverse only where that lies on SRC's tile (R257, R261). -/
def State.respond (s : State) (p : Pkt) (by_ : Option Nat) (ret : Nat) (bs : List Byte) : State :=
  let d := s.destOf ret
  let same := d.1 == sidMod p.src && d.2 == sidTile p.src
  let r := s.replyRoute p p.at_ d.1 d.2 by_.isNone same
  s.sendBy by_ false
    { p with op := opReadResp, cls := if p.cls = 3 then 3 else 1, rmode := r.1, route := r.2, hop := 0, daddr := w64 ret,
             dmod := d.1, dtile := d.2, cause := 0, len := bs.length, payload := bs, redop := 0, skim := 0, inPort := 7,
             out := none, hdrOk := true, crcOk := true, retryAt := none, held := false, passed := 0, waitAt := 0 }

/-- Row 7, or row 6: a request is carried out at its place and answered. -/
def State.apply (s : State) (p : Pkt) (pl : Place) : State :=
  let t := p.at_
  let by_ := pl.owner
  if p.op = opWrite ∨ p.op = opStore then (s.writePlace pl p.payload).reply p t by_ opAck 0 []
  else if p.op = opReadReq then
    let ret := leNat (ofBytes (p.payload.take 8))
    let n := leNat (ofBytes (p.payload.drop 8)) % 2 ^ 14
    let (s, bs, bad) := s.readPlace pl n
    match bad with
    | some c => s.reply p t by_ opNack c []
    | none => s.respond p by_ ret bs
  else
    let n := if p.op = opAmo then 8 else p.len
    let (s, bs, bad) := s.readPlace pl n
    match bad with
    | some c => s.reply p t by_ opNack c []
    | none =>
      let old := leNat (ofBytes bs)
      let s := if p.op = opAmo then s.writePlace pl (toBytes (leBytes 8 (amoNew p.redop old (leNat (ofBytes p.payload))))) else s
      s.reply p t by_ opLoadResp 0 (toBytes (leBytes 8 old))

/-- Bytes a request touches and whether it writes. -/
def Pkt.span (p : Pkt) : Nat :=
  if p.op = opReadReq then leNat (ofBytes (p.payload.drop 8)) % 2 ^ 14 else if p.op = opLoad then p.len else p.payload.length
def Pkt.writes (p : Pkt) : Bool := p.op == opWrite || p.op == opStore || p.op == opAmo

/-- Carries out or refuses a request as it has been judged. -/
def State.deal (s : State) (p : Pkt) (v : Verdict) (pl : Place) : State :=
  match v with
  | .go => (s.dropPkt p.pid).apply p pl
  | v => s.refuseAt p v pl

/-! ### The reorder stage (R251) -/

/-- Key of a source and destination pair. -/
def pairKey (from_ stream : Nat) : Nat := from_ * 2 ^ 36 + stream

/-- How far a number is ahead of the next one due, modulo 2^16. -/
def seqAhead (due seq : Nat) : Nat := (seq + 2 ^ 16 - due % 2 ^ 16) % 2 ^ 16

/-- Does the reorder stage number this packet? -/
def Pkt.numbered (p : Pkt) : Option Nat :=
  match p.owner with
  | .smem k => if !p.rmode && coreStream k then some k else none
  | _ => none

/-- Is a packet early: an access of its pair with a smaller number is still to come? Accesses that the source has seen refused
do not come any more. -/
def State.early (s : State) (p : Pkt) (k : Nat) : Bool :=
  let due := mget 0 s.fab.expect (pairKey p.from_ k)
  let d := seqAhead due p.seq
  decide (d < 2 ^ 15) &&
    (if p.from_ < 2 ^ 21 then (s.sc p.from_).accs.any fun a => a.dst == k && decide (seqAhead due a.seq < d) else d != 0)

/-- The pair's next number is due once a packet has passed. -/
def State.passSeq (s : State) (p : Pkt) (k : Nat) : State :=
  if seqAhead (mget 0 s.fab.expect (pairKey p.from_ k)) p.seq < 2 ^ 15 then
    { s with fab := { s.fab with expect := mset 0 s.fab.expect (pairKey p.from_ k) ((p.seq + 1) % 2 ^ 16) } }
  else s

/-- The reorder stages let go every access that is early no longer; it was judged when it arrived (R270). -/
def State.releaseHeld : Nat → State → State
  | 0, s => s
  | n + 1, s =>
    match s.fab.reorder.find? fun e => !s.early e.p (e.p.numbered.getD 0) with
    | none => s
    | some e =>
      let s := { s with fab := { s.fab with reorder := s.fab.reorder.erase e } }
      State.releaseHeld n ((s.passSeq e.p (e.p.numbered.getD 0)).apply e.p (.scr e.core e.off))

def State.drainHeld (s : State) : State := State.releaseHeld s.fab.reorder.length s

/-- A numbered access at its place: row 5 for an early one, which waits or receives RETRY; the accesses that waited for it follow. -/
def State.dealNumbered (s : State) (p : Pkt) (k : Nat) (v : Verdict) (pl : Place) : State :=
  match v, pl, s.early p k with
  | .go, .scr core off, true =>
    if 64 ≤ (s.fab.reorder.filter fun e => e.p.at_ == p.at_).length then
      ((s.dropPkt p.pid).bump Reg.DYN_DROP2_RETRY p.at_).reply p p.at_ pl.owner opRetry 0 []
    else
      let s := s.dropPkt p.pid
      { s with fab := { s.fab with reorder := s.fab.reorder ++ [⟨p, core, off⟩] } }
  | v, pl, e => if v = .resend ∨ e then s.deal p v pl else ((s.passSeq p k).deal p v pl).drainHeld

/-- A request at its final router (R270): rows 1 to 4, row 5 for an early access, then rows 6 and 7. -/
def State.doRequest (s : State) (op pid : Nat) : State :=
  match s.pkt? pid with
  | none => s
  | some p =>
    if p.op ≠ op ∨ p.held ∨ !s.arrived p ∨ !s.inOrder p then s
    else if !p.headerOk then s.dropHeader p
    else
      let j := s.judge p p.daddr.toNat p.span p.writes
      match s.toPlace p j.1 j.2 with
      | (s, none) => s
      | (s, some p) => match p.numbered with
        | none => s.deal p j.1 j.2
        | some k => s.dealNumbered p k j.1 j.2

/-- WRITE (R249, R270). -/
def execWrite (pid : Nat) (s : State) : Host.Outcome State Fault Refusal := .next (s.moved fun s => s.doRequest opWrite pid)
/-- READ_REQ (R249, R270). -/
def execReadReq (pid : Nat) (s : State) : Host.Outcome State Fault Refusal := .next (s.moved fun s => s.doRequest opReadReq pid)
/-- LOAD (R251, R270). -/
def execLoad (pid : Nat) (s : State) : Host.Outcome State Fault Refusal := .next (s.moved fun s => s.doRequest opLoad pid)
/-- STORE (R111, R251, R270). -/
def execStore (pid : Nat) (s : State) : Host.Outcome State Fault Refusal := .next (s.moved fun s => s.doRequest opStore pid)
/-- AMO (R129, R251, R270). -/
def execAmo (pid : Nat) (s : State) : Host.Outcome State Fault Refusal := .next (s.moved fun s => s.doRequest opAmo pid)

/-! ### Replies (R250, Table 9.4) -/

def State.lostReply (s : State) (t : Nat) : State := s.bump Reg.DYN_DROP2_LOST_REPLY t

/-- The operation and packet that a reply names, while they are outstanding. -/
def State.fopOf (s : State) (p : Pkt) : Option FOp :=
  (s.fops p.from_).find? fun o => o.opid == p.opid && decide (p.seq < o.sent) && !o.acked.contains p.seq

/-- The access that a reply names. -/
def State.accOf (s : State) (p : Pkt) (k : Nat) : Option RemAcc := (s.sc p.from_).accs.find? fun a => a.dst == k && a.seq == p.seq

/-- The packet of an F operation is done; the bitmap of R249. -/
def State.ackFop (s : State) (t : Nat) (p : Pkt) : State :=
  match s.fopOf p with
  | some o => s.setFop p.from_ { o with acked := o.acked ++ [p.seq] }
  | none => s.lostReply t

/-- The cluster of this module that a packet's operation belongs to. -/
def Pkt.clu (p : Pkt) : Option Nat := if p.from_ < 2 ^ 20 then some p.from_ else none

/-- A reply goes down to the die of the cluster that consumes it (R246); none where it waits, is lost or is held back. -/
def State.toConsumer (s : State) (p : Pkt) : State × Option Pkt :=
  match p.clu with
  | some ck =>
    if ckTile ck != p.at_ || !s.dieOn p.at_ (ckSite ck) then (s, some p)
    else if s.downOpen p ck then s.down p ck else (s, none)
  | none => (s, some p)

/-- A reply at the router that SRC names; a payload that fails its trailer is no answer. -/
def State.onReply (s : State) (op pid : Nat) (act : Pkt → State → State) : State :=
  match s.pkt? pid with
  | none => s
  | some p =>
    if p.op ≠ op ∨ p.held ∨ p.retryAt.isSome ∨ !s.arrived p ∨ !s.inOrder p then s
    else if !p.headerOk then s.dropHeader p
    else match s.toConsumer p with
      | (s, none) => s
      | (s, some p) => if !p.crcOk then s.dropPkt pid else act p (s.dropPkt pid)

/-- A reply to something that has been abandoned (R271). -/
def State.killedReply (s : State) (t : Nat) : State := s.bump Reg.DYN_DROP1_KILLED t

/-- ACK (R250): the packet, store or partial is done; a repair's data has been taken. -/
def State.doAck (s : State) (pid : Nat) : State :=
  s.onReply opAck pid fun p s =>
    match p.owner with
    | .fop => s.ackFop p.at_ p
    | .smem k => (match s.accOf p k with
        | some a => if a.op = opStore then (s.dropAcc p.from_ a).drainHeld else s.lostReply p.at_
        | none => s.lostReply p.at_)
    | .node t n => s.nodeAnswer t n opAck
    | .repair _ => s
    | .unit => s.killedReply p.at_
    | .stray => s.lostReply p.at_

def execAck (pid : Nat) (s : State) : Host.Outcome State Fault Refusal := .next (s.moved fun s => s.doAck pid)

/-- NACK (R250): it is counted where a cluster receives it (Table 9.11), and ends what it answers. -/
def State.doNack (s : State) (pid : Nat) : State :=
  s.onReply opNack pid fun p s =>
    let s := match p.clu with
      | some ck => s.bump Reg.DI_STATS_NACKS ck
      | none => s
    match p.owner with
    | .fop => (match s.fopOf p with
        | some o => s.failFop p.from_ o p.cause p.seq
        | none => s.lostReply p.at_)
    | .smem k => (match s.accOf p k with
        | some a => (s.failAcc p.from_ a p.cause).drainHeld
        | none => s.lostReply p.at_)
    | .node t n => s.nodeAnswer t n opNack
    | .repair _ => s
    | .unit => s.killedReply p.at_
    | .stray => s.lostReply p.at_

def execNack (pid : Nat) (s : State) : Host.Outcome State Fault Refusal := .next (s.moved fun s => s.doNack pid)

/-- LOAD_RESP (R250): the load or AMO that waits takes the value and completes. -/
def State.doLoadResp (s : State) (pid : Nat) : State :=
  s.onReply opLoadResp pid fun p s =>
    match p.owner with
    | .smem k => (match s.accOf p k with
        | some a =>
          if a.op = opStore then s.lostReply p.at_
          else
            let s := (s.dropAcc p.from_ a).drainHeld
            let c := s.sc p.from_
            if c.wait = some .load then
              s.retire p.from_ (({ op := a.op, size := a.size, signed := a.signed, fp := a.fp } : MemOp).put { c with wait := none } a.rd
                (leNat (ofBytes p.payload)))
            else s
        | none => s.lostReply p.at_)
    | .unit => s.killedReply p.at_
    | _ => s.lostReply p.at_

def execLoadResp (pid : Nat) (s : State) : Host.Outcome State Fault Refusal := .next (s.moved fun s => s.doLoadResp pid)

/-- What a READ_RESP finds where it arrives: the operation it answers is outstanding, has been abandoned (R271), or matches nothing
(R250). What answers an operation of another module is taken as outstanding. -/
def State.respFinds (s : State) (p : Pkt) : Option Fld :=
  match p.clu, p.owner with
  | none, .stray => some Reg.DYN_DROP2_LOST_REPLY
  | none, _ => none
  | some _, .fop => if (s.fopOf p).isSome then none else some Reg.DYN_DROP2_LOST_REPLY
  | some _, .unit => some Reg.DYN_DROP1_KILLED
  | some _, _ => some Reg.DYN_DROP2_LOST_REPLY

/-- READ_RESP (R249): written at the return address under Table 9.8, then acknowledged to SRC, internally where SRC lies in
the same cluster; one that answers nothing outstanding is discarded (R250, R271). -/
def State.doReadResp (s : State) (pid : Nat) : State :=
  match s.pkt? pid with
  | none => s
  | some p =>
    if p.op ≠ opReadResp ∨ p.held ∨ !s.arrived p ∨ !s.inOrder p then s
    else if !p.headerOk then s.dropHeader p
    else
      let j := s.judge p p.daddr.toNat p.payload.length true
      match s.toPlace p j.1 j.2 with
      | (s, none) => s
      | (s, some p) =>
        match s.respFinds p with
        | some f => (s.dropPkt pid).bump f p.at_
        | none =>
          if j.1 = .go then
            let s := (s.dropPkt pid).writePlace j.2 p.payload
            if j.2.owner = some p.from_ then s.ackFop p.at_ p else s.reply p p.at_ j.2.owner opAck 0 []
          else s.refuseAt p j.1 j.2

def execReadResp (pid : Nat) (s : State) : Host.Outcome State Fault Refusal := .next (s.moved fun s => s.doReadResp pid)

/-- A packet is to go out again with the same SEQ, its source bytes read afresh (Table 9.4); the injector sends it as soon as it
may (R267, R271). -/
def State.markAgain (s : State) (p : Pkt) (resend : Bool) : State :=
  match p.owner with
  | .fop => (match s.fopOf p with
      | some o => s.setFop p.from_ { o with again := o.again ++ [p.seq], resent := if resend then o.resent ++ [p.seq] else o.resent }
      | none => s.lostReply p.at_)
  | .smem k => (match s.accOf p k with
      | some _ =>
        let c := s.sc p.from_
        s.setSc p.from_ { c with accs := c.accs.map fun b =>
          if b.dst = k ∧ b.seq = p.seq then { b with again := true, resent := b.resent || resend } else b }
      | none => s.lostReply p.at_)
  | .unit => s.killedReply p.at_
  | _ => s.lostReply p.at_

/-- RESEND (R250): the packet is sent again; a second RESEND for it ends the operation with ECC. -/
def State.doResend (s : State) (pid : Nat) : State :=
  s.onReply opResend pid fun p s =>
    match p.owner with
    | .fop => (match s.fopOf p with
        | some o => if o.resent.contains p.seq then s.failFop p.from_ o cEcc p.seq else s.markAgain p true
        | none => s.lostReply p.at_)
    | .smem k => (match s.accOf p k with
        | some a => if a.resent then (s.failAcc p.from_ a cEcc).drainHeld else s.markAgain p true
        | none => s.lostReply p.at_)
    | .node t n => s.nodeAnswer t n opResend
    | .repair rid => s.repairAgain rid p
    | _ => s.markAgain p true

def execResend (pid : Nat) (s : State) : Host.Outcome State Fault Refusal := .next (s.moved fun s => s.doResend pid)

/-- RETRY (R251): the packet goes out again 1 µs later. -/
def State.doRetryPacket (s : State) (pid : Nat) : State :=
  s.onReply opRetry pid fun p s =>
    if p.owner = .unit then s.killedReply p.at_
    else { s with fab := { s.fab with net := s.fab.net ++ [{ p with retryAt := some (s.now + us 1) }] } }

def execRetryPacket (pid : Nat) (s : State) : Host.Outcome State Fault Refusal := .next (s.moved fun s => s.doRetryPacket pid)

/-- RETRY_RESEND_TIMER (R251): the microsecond is over. -/
def State.doRetryTimer (s : State) (pid : Nat) : State :=
  match s.pkt? pid with
  | none => s
  | some p =>
    match p.retryAt with
    | none => s
    | some t => if p.op = opRetry ∧ t ≤ s.now then (s.dropPkt pid).markAgain p false else s

def execRetryResendTimer (pid : Nat) (s : State) : Host.Outcome State Fault Refusal := .next (s.moved fun s => s.doRetryTimer pid)

/-! ### Timers (R252) -/

/-- Has a timer reached OP_TIMEOUT (R252)? -/
def State.timedOut (s : State) (ck ran : Nat) (since : Option Nat) : Bool :=
  since.isSome && decide (us (s.rd Reg.DYN_TMO_OP_TIMEOUT (ckTile ck)) ≤ s.timerRan ran since)

/-- OP_TIMEOUT (R252): an operation's timer reaches OP_TIMEOUT; the injector ends it with ECC, an S-MEM access as one. -/
def State.doOpTimeout (s : State) (ck : Nat) : OpRef → State
  | .fop opid =>
    (match (s.fops ck).find? fun o => o.opid == opid.toNat with
     | none => s
     | some o =>
       if s.timedOut ck o.ran o.since then
         (s.bump Reg.DI_STATS_TIMEOUTS ck).failFop ck o cEcc (((List.range o.total).find? fun i => !o.acked.contains i).getD 0)
       else s)
  | .smem stream seq =>
    (match (s.sc ck).accs.find? fun a => a.dst == stream && a.seq == seq with
     | none => s
     | some a => if s.timedOut ck a.ran a.since then ((s.bump Reg.DI_STATS_TIMEOUTS ck).failAcc ck a cEcc).drainHeld else s)

def execOpTimeout (c : Clu) (o : OpRef) (s : State) : Host.Outcome State Fault Refusal := .next (s.moved fun s => s.doOpTimeout (cluKey c) o)

end Sys2Proof.Machine
end

