-- ==== Sys2Proof/Machine/Pails.lean ====
section
/-! DEFINITION. Class P (5.5, 6.4, 6.8): pail handles, fills and copies, and the scrubber and write-backs of 6.3. -/

namespace Sys2Proof.Machine

/-- A new handle's pages as bytes, and word 1 as the view reads it. -/
def pailOf (w0 w1 : Nat) : Pail :=
  ⟨bitOf w0 0, bitOf w0 1, bitOf w0 2, bitsOf w0 4 3, bitsOf w0 9 5, bitsOf w0 21 10 * 4096, (bitsOf w0 33 22 + 1) * 4096, w1⟩

/-- Format codes of Table 2.1 that are reserved. -/
def fmtReserved (fmt : Nat) : Bool := decide (0x11 < fmt)

/-- Formats whose elements are whole bytes; RAW is none of them (R159). -/
def wholeFmt (fmt : Nat) : Bool := fmt != 0 && !([0x0A, 0x0B, 0x0C, 0x0E].contains fmt) && !fmtReserved fmt

/-- BOUNDS conditions of R159. -/
def pailRangeBad (core : Nat) (priv : Bool) (old p : Pail) : Bool :=
  let slot := slotOf core
  (!priv && (old.svc || p.svc)) || decide (scrSize slot < p.base + p.size) ||
    (!priv && decide (pail63At slot < p.base + p.size)) ||
    (wholeFmt p.fmt && (p.view == 1 || p.view == 2) && decide (p.size < p.stored))

/-- FORMAT conditions of R159, with the geometry of R161. -/
def pailFormatWrong (w0 : Nat) (p : Pail) : Bool :=
  let e := elemBytes p.fmt
  p.view == 3 || fmtReserved p.fmt || decide (2 ^ 34 ≤ w0) || (p.view != 0 && !wholeFmt p.fmt) ||
    (p.view == 0 && p.geom != 0) ||
    (p.view == 1 && (decide (p.pitch % e ≠ 0) || decide (p.pitch < p.dim1 * e))) ||
    (p.view == 2 && (decide (bitsOf p.geom 63 48 ≠ 0) || decide (8 < bitsOf p.geom 43 40) || decide (8 < bitsOf p.geom 47 44) ||
      decide (p.dim0 % p.br ≠ 0) || decide (p.dim1 % p.bc ≠ 0)))

/-- The descriptors that are outstanding (R200): of every enabled ring those from CONSUMED to the doorbell, as they stand in the ring
pail, the first as its mover has read it. -/
def State.outstanding (s : State) : List (Nat × Nat × List Word) :=
  ((List.range 144).flatMap fun mk => (List.range 4).map fun r => (mk, r)).flatMap fun e =>
    let run := (s.tier.mv.filter fun x => x.1 == e.1 && x.2.ring == e.2).map fun x => (e.1, e.2, x.2.desc)
    if s.rd Reg.MV_BIND_ENABLE e.1 e.2 = 0 then run
    else match s.ringClu e.1 e.2 with
      | none => run
      | some ck =>
        let n := s.ringLag e.1 e.2 ck
        let p := s.pail (coreOf ck 4) (s.rd Reg.MV_BIND_RING_PAIL e.1 e.2)
        let word (i j : Nat) : Word := w64 (s.ld (scrKey (coreOf ck 4)
          (p.base + (s.rd Reg.MV_CONSUMED_CONSUMED e.1 e.2 + i) % s.ringSize e.1 e.2 * 64 + 8 * j)) 8)
        if s.ringSize e.1 e.2 < n then run
        else run ++ ((List.range n).drop run.length).map fun i => (e.1, e.2, (List.range 8).map (word i))

/-- Does an outstanding descriptor name handle n of a core? -/
def State.descNames (s : State) (core n : Nat) (e : Nat × Nat × List Word) : Bool :=
  let w (i : Nat) : Nat := (e.2.2.getD i 0).toNat
  let svc := s.rd Reg.MV_BIND_SVC e.1 e.2.1 == 1
  let isLoc (w : Nat) : Bool := decide (w < 2 ^ 63) && decide ((pailAddr w).pail = n) && s.physCore svc (pailAddr w).id == some core
  let own := s.physOf (e.1 / 4 * 32 + s.rd Reg.MV_BIND_LSITE e.1 e.2.1 * 4 + s.rd Reg.MV_BIND_CLUSTER e.1 e.2.1)
  let op := bitsOf (w 0) 6 4
  (op != 4 && isLoc (w 1)) || isLoc (w 2) || (op != 2 && op != 3 && isLoc (w 5) && w 5 != 0) || (isLoc (w 6) && w 6 != 0) ||
    (own == some (cluOfCore core) && slotOf core == 4 && w 7 % 64 == n)

/-- Is handle n of a core named by its memory-side engine (R138), by an F operation of its cluster (R160) or by an outstanding
descriptor of a mover (R200)? -/
def State.pailInUse (s : State) (core n : Nat) : Bool :=
  (s.mse core).any (fun o => o.dstPail == n || (o.copy && o.srcPail == n)) ||
    (s.fops (cluOfCore core)).any (fun o =>
      decide ((pailAddr o.loc.toNat).pail = n) && decide ((pailAddr o.loc.toNat).id % 8 = slotOf core)) ||
    s.outstanding.any (s.descNames core n)

/-- Must a P.SET or P.FREE stall (R138, R160, R200)? -/
def State.pailStalls (s : State) (core n : Nat) : Bool :=
  (decide (slotOf core < 4) && decide ((s.que (cluOfCore core * 4 + slotOf core)) ≠ [])) || s.pailInUse core n

/-- Writes a handle. -/
def State.setPail (s : State) (core n w0 w1 : Nat) : State :=
  (((((((s.wr Reg.PAIL_W0_VALID core (w0 % 2) n).wr Reg.PAIL_W0_SVC_ONLY core (bitsOf w0 1 1) n).wr Reg.PAIL_W0_READ_ONLY core
    (bitsOf w0 2 2) n).wr Reg.PAIL_W0_VIEW core (bitsOf w0 4 3) n).wr Reg.PAIL_W0_FMT core (bitsOf w0 9 5) n).wr
      Reg.PAIL_W0_BASE_4K core (bitsOf w0 21 10) n).wr Reg.PAIL_W0_SIZE_M1 core (bitsOf w0 33 22) n).wr Reg.PAIL_W1_GEOM core w1 n

/-- Frees a handle; its other fields keep their values (R159, R160). -/
def State.freePail (s : State) (core n : Nat) : State := s.wr Reg.PAIL_W0_VALID core 0 n

/-- Pails 0 and 63 (R136, R158): PRIV at vat privilege, BOUNDS at service privilege. -/
def fixedPail (n : Nat) : Bool := n == 0 || n == 63

/-- P.FREE, and a P.SET with VALID = 0 (R159, R160). -/
def State.release (s : State) (ck core n : Nat) (sc : SCore) : State :=
  if s.pailStalls core n then s
  else if !sc.priv && (s.pail core n).svc then s.trapNoAddr ck cBounds
  else (s.freePail core n).retire ck sc

/-- P.SET (R136, R138, R158, R159). The stall conditions are judged after the privilege check. -/
def execPSet (c : Clu) (f : FmtP) (s : State) : Host.Outcome State Fault Refusal :=
  .next (s.scalar (cluKey c) (decide (f.slot.toNat ≤ 4) && f.rs3 == 0 && f.sigCtr == 0 && !f.sigEn && f.rsv == 0) fun sc s =>
    let ck := cluKey c
    let core := coreOf ck f.slot.toNat
    let n := f.pail.toNat
    let w0 := (sc.getX f.rs1.toNat).toNat
    let w1 := (sc.getX f.rs2.toNat).toNat
    if fixedPail n then s.trapNoAddr ck (if sc.priv then cBounds else cPriv)
    else if w0 % 2 = 0 then s.release ck core n sc
    else if s.pailStalls core n then s
    else if pailRangeBad core sc.priv (s.pail core n) (pailOf w0 w1) then s.trapNoAddr ck cBounds
    else if pailFormatWrong w0 (pailOf w0 w1) then s.trapNoAddr ck cFormat
    else (s.setPail core n w0 w1).retire ck sc)

/-- P.FREE (R160). -/
def execPFree (c : Clu) (f : FmtP) (s : State) : Host.Outcome State Fault Refusal :=
  .next (s.scalar (cluKey c) (decide (f.slot.toNat ≤ 4) && f.rs1 == 0 && f.rs2 == 0 && f.rs3 == 0 && f.sigCtr == 0 && !f.sigEn &&
      f.rsv == 0) fun sc s =>
    let ck := cluKey c
    let n := f.pail.toNat
    if fixedPail n then s.trapNoAddr ck (if sc.priv then cBounds else cPriv)
    else s.release ck (coreOf ck f.slot.toNat) n sc)

/-- The checks of R136 on lengths and offsets: ALIGN, then BOUNDS. -/
def mseRangeCause (s : State) (core : Nat) (priv : Bool) (offs : List (Nat × Nat × Bool)) (len : Nat) : Nat :=
  if offs.any (fun o => o.2.1 % 8 != 0) || len % 8 != 0 then cAlign
  else if decide (len < 8) || decide (16777216 < len) ||
      offs.any (fun o => !(s.pail core o.1).usable priv o.2.2 || decide ((s.pail core o.1).size < o.2.1 + len)) then cBounds
  else 0

/-- P.FILL (R136, R137, R165): a third operation of the engine stalls. A refusal reports the destination offset (log 81). -/
def execPFill (c : Clu) (f : FmtP) (s : State) : Host.Outcome State Fault Refusal :=
  .next (s.scalar (cluKey c) (decide (f.slot.toNat ≤ 4) && f.rsv == 0) fun sc s =>
    let ck := cluKey c
    let core := coreOf ck f.slot.toNat
    let n := f.pail.toNat
    let off := (sc.getX f.rs1.toNat).toNat
    let len := (sc.getX f.rs2.toNat).toNat
    if !sc.priv && fixedPail n then s.trapNoAddr ck cPriv
    else
      let cause := mseRangeCause s core sc.priv [(n, off, true)] len
      if cause ≠ 0 then s.trap ck cause (w64 off)
      else if 2 ≤ (s.mse core).length then s
      else (s.setMse core (s.mse core ++ [⟨false, n, n, 0, (s.pail core n).base + off, off, len, sc.getX f.rs3.toNat, f.sigCtr.toNat,
        f.sigEn, sc.priv⟩])).retire ck sc)

/-- P.COPY (R136, R137, R165). A refusal reports the destination offset, also where the source fails (log 81). -/
def execPCopy (c : Clu) (f : FmtP) (s : State) : Host.Outcome State Fault Refusal :=
  .next (s.scalar (cluKey c) (decide (f.slot.toNat ≤ 4) && f.rs3 == 0 && f.rsv == 0) fun sc s =>
    let ck := cluKey c
    let core := coreOf ck f.slot.toNat
    let n := f.pail.toNat
    let w := (sc.getX f.rs1.toNat).toNat
    let dOff := w % 2 ^ 24
    let sp := bitsOf w 29 24
    let sOff := bitsOf w 53 30
    let len := (sc.getX f.rs2.toNat).toNat
    if !sc.priv && (fixedPail n || fixedPail sp) then s.trapNoAddr ck cPriv
    else
      let cause := mseRangeCause s core sc.priv [(n, dOff, true), (sp, sOff, false)] len
      let src := (s.pail core sp).base + sOff
      let dst := (s.pail core n).base + dOff
      let cause := if cause = 0 ∧ bitsOf w 63 54 ≠ 0 then cBounds else cause
      let cause := if cause = 0 ∧ overlap (src, src + len) (dst, dst + len) then cAlias else cause
      if cause ≠ 0 then s.trap ck cause (w64 dOff)
      else if 2 ≤ (s.mse core).length then s
      else (s.setMse core (s.mse core ++ [⟨true, sp, n, src, dst, dOff, len, 0, f.sigCtr.toNat, f.sigEn, sc.priv⟩])).retire ck sc)

/-- A copy that stops at an uncorrectable word: how many of the words before it have been written is open, so that the
count is a free value (log 18). -/
def State.stopCopy (s : State) (core : Nat) (o : MseOp) (wk : Nat) : State :=
  let good := wk - scrKey core o.src / 8
  let (v, s) := s.draw
  let n := min (v.toNat % (good + 1)) (o.len / 8) * 8
  let (s, _) := s.readScr core o.src n 3
  (s.writeScr core o.dst (s.ldBytes (scrKey core o.src) n)).noteUe core (wk % 2 ^ 21) 3

/-- MSE_COMPLETION (R137, R171): the running operation of a core's memory-side engine ends; it signals, or stops on an
uncorrectable source word, which the S-core raises from source 6. -/
def State.doMseCompletion (s : State) (core : Nat) : State :=
  match s.mse core with
  | [] => s
  | o :: rest =>
    let ck := cluOfCore core
    if !s.dieOn (core / 256) (core / 32 % 8) then s
    else
      let s := s.setMse core rest
      match (if o.copy then (s.marks core o.src o.len 2).head? else none) with
      | some wk =>
        ((s.stopCopy core o wk).wr Reg.MSE_STATUS_STOPPED_ECC core 1).pend ck
          ⟨cEcc, 6, slotOf core, o.sigCtr, 0, o.priv, w64 o.dstOff⟩
      | none =>
        let s := if o.copy then
            let (s, _) := s.readScr core o.src o.len 3
            s.writeFull core o.dst (s.ldBytes (scrKey core o.src) o.len)
          else s.writeFull core o.dst ((List.replicate (o.len / 8) (toBytes (leBytes 8 o.pat.toNat))).flatten)
        let s := s.wr Reg.MSE_STATUS_STOPPED_ECC core 0
        if o.sigEn then s.signal ck o.sigCtr else s

def execMseCompletion (c : Core) (s : State) : Host.Outcome State Fault Refusal := .next (s.doMseCompletion (coreKey c))

/-- PATROL_SCRUB (R156): one full pass of a core's scrubber corrects every single-bit error in place and logs every
uncorrectable word. -/
def State.doPatrolScrub (s : State) (core : Nat) : State :=
  if s.rd Reg.SCR_CTL_SCRUB_EN core = 0 ∨ !s.dieOn (core / 256) (core / 32 % 8) then s
  else
    let n := scrSize (slotOf core)
    let ones := s.marks core 0 n 1
    let twos := s.marks core 0 n 2
    let s := s.bump Reg.SCR_ECC_CORRECTED core ones.length
    let s := s.each ones fun s w => { (s.setEcc w 0) with cmp := { (s.setEcc w 0).cmp with wback := s.cmp.wback.erase w } }
    (s.each twos fun s w => s.noteUe core (w % 2 ^ 21) 5).bump Reg.SCR_STATS_SCRUB_PASSES core

def execPatrolScrub (c : Core) (s : State) : Host.Outcome State Fault Refusal := .next (s.doPatrolScrub (coreKey c))

/-- CORRECTED_WRITE_BACK (R153): a queued corrected word is written back. -/
def State.doWriteBack (s : State) (core word : Nat) : State :=
  let wk := scrKey core 0 / 8 + word
  if s.cmp.wback.contains wk then
    let s := s.setEcc wk 0
    { s with cmp := { s.cmp with wback := s.cmp.wback.erase wk } }
  else s

def execCorrectedWriteBack (c : Core) (word : BitVec 21) (s : State) : Host.Outcome State Fault Refusal :=
  .next (s.doWriteBack (coreKey c) word.toNat)

end Sys2Proof.Machine
end

