-- ==== Sys2Proof/Machine/ScalarAlu.lean ====
section
/-! DEFINITION. Class S-ALU of Assyn (Table 5.3, R124 to R126, R142, Table 5.16). -/

namespace Sys2Proof.Machine

/-- RD ← RS1 op RS2; RS3, RM and the reserved bits must be 0 (R124). -/
def State.aluR (s : State) (c : Clu) (f : FmtR) (op : Word → Word → Word) : State :=
  s.scalar (cluKey c) (f.rs3 == 0 && f.rm == 0 && f.rsv == 0) fun sc s =>
    s.retire (cluKey c) (sc.setX f.rd.toNat (op (sc.getX f.rs1.toNat) (sc.getX f.rs2.toNat)))

/-- RD ← RS1 op IMM, IMM sign-extended. -/
def State.aluI (s : State) (c : Clu) (f : FmtI) (op : Word → Word → Word) : State :=
  s.scalar (cluKey c) true fun sc s =>
    s.retire (cluKey c) (sc.setX f.rd.toNat (op (sc.getX f.rs1.toNat) (f.imm.signExtend 64)))

/-- Shifts use bits 5:0 of the amount (R125). -/
def shl64 (x y : Word) : Word := x <<< (y.toNat % 64)
def shr64 (x y : Word) : Word := x >>> (y.toNat % 64)
def sra64 (x y : Word) : Word := x.sshiftRight (y.toNat % 64)
def slt64 (x y : Word) : Word := if x.slt y then 1 else 0
def sltu64 (x y : Word) : Word := if x < y then 1 else 0

/-- Bits 127:64 of the full product. -/
def mulh64 (x y : Word) : Word := ((x.signExtend 128 * y.signExtend 128) >>> 64).truncate 64
def mulhu64 (x y : Word) : Word := ((x.zeroExtend 128 * y.zeroExtend 128) >>> 64).truncate 64

/-- Division never traps (R125). -/
def div64 (x y : Word) : Word := if y = 0 then BitVec.allOnes 64 else x.sdiv y
def divu64 (x y : Word) : Word := if y = 0 then BitVec.allOnes 64 else x / y
def rem64 (x y : Word) : Word := if y = 0 then x else x.srem y
def remu64 (x y : Word) : Word := if y = 0 then x else x % y

/-- An FP32 or FP64 register value. -/
def SCore.fpVal (sc : SCore) (f : FpF) (r : Nat) : Num := fpDecode f ((sc.getF r).toNat % 2 ^ (f.mb + f.eb + 1))

/-- An IEEE result, rounded once by RM (R126); an FP32 result has bits 63:32 zero. -/
def fpResult (f : FpF) (rm : Nat) (x : Num) : Word := w64 (fpRound f rm 0 false x).1

/-- Fields that name f0 to f15 (R124). -/
def isF (r : BitVec 5) : Bool := decide (r.toNat < 16)

/-- A two-operand floating-point operation that rounds by RM. -/
def State.fpu2 (s : State) (c : Clu) (f : FmtR) (p : FpF) (op : Nat → Num → Num → Num) : State :=
  s.scalar (cluKey c) (isF f.rd && isF f.rs1 && isF f.rs2 && f.rs3 == 0 && decide (f.rm.toNat < 4) && f.rsv == 0) fun sc s =>
    s.retire (cluKey c) (sc.setF f.rd.toNat
      (fpResult p f.rm.toNat (op f.rm.toNat (sc.fpVal p f.rs1.toNat) (sc.fpVal p f.rs2.toNat))))

/-- FMIN and FMAX: no rounding, RM must be 0; the other operand where one is NaN; −0 below +0 (R126). -/
def State.fpuM (s : State) (c : Clu) (f : FmtR) (p : FpF) (op : Num → Num → Num) : State :=
  s.scalar (cluKey c) (isF f.rd && isF f.rs1 && isF f.rs2 && f.rs3 == 0 && f.rm == 0 && f.rsv == 0) fun sc s =>
    let x := sc.fpVal p f.rs1.toNat
    let y := sc.fpVal p f.rs2.toNat
    let r := if x.isNan then y else if y.isNan then x else op x y
    s.retire (cluKey c) (sc.setF f.rd.toNat (fpResult p 0 r))

/-- FMA: RS1 × RS2 + RS3, rounded once. -/
def State.fpuFma (s : State) (c : Clu) (f : FmtR) (p : FpF) : State :=
  s.scalar (cluKey c) (isF f.rd && isF f.rs1 && isF f.rs2 && isF f.rs3 && decide (f.rm.toNat < 4) && f.rsv == 0) fun sc s =>
    let r := Num.add f.rm.toNat (Num.mul (sc.fpVal p f.rs1.toNat) (sc.fpVal p f.rs2.toNat)) (sc.fpVal p f.rs3.toNat)
    s.retire (cluKey c) (sc.setF f.rd.toNat (fpResult p f.rm.toNat r))

/-- FSQRT. -/
def State.fpuSqrt (s : State) (c : Clu) (f : FmtR) (p : FpF) : State :=
  s.scalar (cluKey c) (isF f.rd && isF f.rs1 && f.rs2 == 0 && f.rs3 == 0 && decide (f.rm.toNat < 4) && f.rsv == 0) fun sc s =>
    s.retire (cluKey c) (sc.setF f.rd.toNat (fpResult p f.rm.toNat (sc.fpVal p f.rs1.toNat).sqrt))

/-- FEQ and FLT: 1 if true, else 0, and 0 where either is NaN (R126). -/
def State.fpuCmp (s : State) (c : Clu) (f : FmtR) (p : FpF) (t : Int → Bool) : State :=
  s.scalar (cluKey c) (isF f.rs1 && isF f.rs2 && f.rs3 == 0 && f.rm == 0 && f.rsv == 0) fun sc s =>
    let x := sc.fpVal p f.rs1.toNat
    let y := sc.fpVal p f.rs2.toNat
    s.retire (cluKey c) (sc.setX f.rd.toNat (if x.isNan || y.isNan then 0 else if t (Num.cmp x y) then 1 else 0))

/-- Fields of a conversion or move: RD and RS1 only; `rm` says whether RM is used. -/
def cvtLegal (f : FmtR) (rm dF sF : Bool) : Bool :=
  (!dF || isF f.rd) && (!sF || isF f.rs1) && f.rs2 == 0 && f.rs3 == 0 && f.rsv == 0 &&
    (if rm then decide (f.rm.toNat < 4) else f.rm == 0)

/-- FP32 to FP64 and back. -/
def State.fcvtFF (s : State) (c : Clu) (f : FmtR) (src dst : FpF) : State :=
  s.scalar (cluKey c) (cvtLegal f true true true) fun sc s =>
    s.retire (cluKey c) (sc.setF f.rd.toNat (fpResult dst f.rm.toNat (sc.fpVal src f.rs1.toNat)))

/-- INT64 to a float. -/
def State.fcvtFX (s : State) (c : Clu) (f : FmtR) (dst : FpF) : State :=
  s.scalar (cluKey c) (cvtLegal f true true false) fun sc s =>
    s.retire (cluKey c) (sc.setF f.rd.toNat (fpResult dst f.rm.toNat (Num.ofInt (sc.getX f.rs1.toNat).toInt)))

/-- A float to INT64: saturates, NaN to 0 (R126). -/
def State.fcvtXF (s : State) (c : Clu) (f : FmtR) (src : FpF) : State :=
  s.scalar (cluKey c) (cvtLegal f true false true) fun sc s =>
    s.retire (cluKey c) (sc.setX f.rd.toNat (w64 (intRound 64 f.rm.toNat 0 (sc.fpVal src f.rs1.toNat)).1))

/-- The command registers take only their fields (Table 4.6). -/
def State.setCmd (s : State) (c : Clu) (f : FmtR) (set : SCore → Word → SCore) : State :=
  s.scalar (cluKey c) (f.rd == 0 && f.rs2 == 0 && f.rs3 == 0 && f.rm == 0 && f.rsv == 0) fun sc s =>
    s.retire (cluKey c) (set sc (sc.getX f.rs1.toNat))

/-- Special registers of Table 5.16, by number. -/
def SCore.xreg (c : SCore) (n : Nat) : Option Word :=
  if n = 1 then some c.vtvec else if n = 2 then some c.vepc else if n = 3 then some c.vecause else if n = 4 then some c.veinfo
  else if n = 5 then some c.veaddr else if n = 6 then some c.xstat else if n = 0x11 then some c.stvec
  else if n = 0x12 then some c.sepc else if n = 0x13 then some c.secause else if n = 0x14 then some c.seinfo
  else if n = 0x15 then some c.seaddr else none

/-- Low three bits cleared: a handler entry or return PC is a multiple of 8 (log 11). -/
def align8 (w : Word) : Word := w &&& (BitVec.allOnes 64 <<< 3)

/-- Writes a special register. Cause, info and address registers are read-only, and XSTAT at vat privilege; a write
to one is ignored (Table 0.4). A write of XSTAT leaves PRIV, which only C.ENTER, exception entry and RETX change (R142). -/
def SCore.setXreg (c : SCore) (n : Nat) (v : Word) : SCore :=
  if n = 1 then { c with vtvec := align8 v } else if n = 2 then { c with vepc := align8 v }
  else if n = 6 ∧ c.priv then
    { c with inVH := v.getLsbD 1, inSH := v.getLsbD 2, prevPriv := v.getLsbD 3, qdlv := (v >>> 4).truncate 4 }
  else if n = 0x11 then { c with stvec := align8 v } else if n = 0x12 then { c with sepc := align8 v }
  else c

/-- XRD and XWR: a reserved number is ILLEGAL, a service register at vat privilege PRIV (R142). -/
def State.special (s : State) (c : Clu) (f : FmtI) (unused : BitVec 5) (act : SCore → Nat → SCore) : State :=
  s.scalar (cluKey c) (unused == 0 && ((({} : SCore).xreg f.imm.toNat).isSome)) fun sc s =>
    if 0x11 ≤ f.imm.toNat ∧ sc.priv = false then s.trapNoAddr (cluKey c) cPriv
    else s.retire (cluKey c) (act sc f.imm.toNat)

/-- NOP: all fields 0. -/
def execNop (c : Clu) (f : FmtR) (s : State) : Host.Outcome State Fault Refusal :=
  .next (s.scalar (cluKey c) (decide (f = ⟨0, 0, 0, 0, 0, 0⟩)) fun sc s => s.retire (cluKey c) sc)

/-- ADD (R125). -/
def execAdd (c : Clu) (f : FmtR) (s : State) : Host.Outcome State Fault Refusal := .next (s.aluR c f (fun x y => x + y))

/-- SUB (R125). -/
def execSub (c : Clu) (f : FmtR) (s : State) : Host.Outcome State Fault Refusal := .next (s.aluR c f (fun x y => x - y))

/-- AND (R125). -/
def execAndR (c : Clu) (f : FmtR) (s : State) : Host.Outcome State Fault Refusal := .next (s.aluR c f (fun x y => x &&& y))

/-- OR (R125). -/
def execOrR (c : Clu) (f : FmtR) (s : State) : Host.Outcome State Fault Refusal := .next (s.aluR c f (fun x y => x ||| y))

/-- XOR (R125). -/
def execXorR (c : Clu) (f : FmtR) (s : State) : Host.Outcome State Fault Refusal := .next (s.aluR c f (fun x y => x ^^^ y))

/-- SHL (R125). -/
def execShl (c : Clu) (f : FmtR) (s : State) : Host.Outcome State Fault Refusal := .next (s.aluR c f shl64)

/-- SHR (R125). -/
def execShr (c : Clu) (f : FmtR) (s : State) : Host.Outcome State Fault Refusal := .next (s.aluR c f shr64)

/-- SRA (R125). -/
def execSra (c : Clu) (f : FmtR) (s : State) : Host.Outcome State Fault Refusal := .next (s.aluR c f sra64)

/-- SLT (R125). -/
def execSlt (c : Clu) (f : FmtR) (s : State) : Host.Outcome State Fault Refusal := .next (s.aluR c f slt64)

/-- SLTU (R125). -/
def execSltu (c : Clu) (f : FmtR) (s : State) : Host.Outcome State Fault Refusal := .next (s.aluR c f sltu64)

/-- MUL (R125). -/
def execMul (c : Clu) (f : FmtR) (s : State) : Host.Outcome State Fault Refusal := .next (s.aluR c f (fun x y => x * y))

/-- MULH (R125). -/
def execMulh (c : Clu) (f : FmtR) (s : State) : Host.Outcome State Fault Refusal := .next (s.aluR c f mulh64)

/-- MULHU (R125). -/
def execMulhu (c : Clu) (f : FmtR) (s : State) : Host.Outcome State Fault Refusal := .next (s.aluR c f mulhu64)

/-- DIV (R125). -/
def execDiv (c : Clu) (f : FmtR) (s : State) : Host.Outcome State Fault Refusal := .next (s.aluR c f div64)

/-- DIVU (R125). -/
def execDivu (c : Clu) (f : FmtR) (s : State) : Host.Outcome State Fault Refusal := .next (s.aluR c f divu64)

/-- REM (R125). -/
def execRem (c : Clu) (f : FmtR) (s : State) : Host.Outcome State Fault Refusal := .next (s.aluR c f rem64)

/-- REMU (R125). -/
def execRemu (c : Clu) (f : FmtR) (s : State) : Host.Outcome State Fault Refusal := .next (s.aluR c f remu64)

/-- ADDI (R125). -/
def execAddi (c : Clu) (f : FmtI) (s : State) : Host.Outcome State Fault Refusal := .next (s.aluI c f (fun x y => x + y))

/-- ANDI (R125). -/
def execAndi (c : Clu) (f : FmtI) (s : State) : Host.Outcome State Fault Refusal := .next (s.aluI c f (fun x y => x &&& y))

/-- ORI (R125). -/
def execOri (c : Clu) (f : FmtI) (s : State) : Host.Outcome State Fault Refusal := .next (s.aluI c f (fun x y => x ||| y))

/-- XORI (R125). -/
def execXori (c : Clu) (f : FmtI) (s : State) : Host.Outcome State Fault Refusal := .next (s.aluI c f (fun x y => x ^^^ y))

/-- SHLI (R125). -/
def execShli (c : Clu) (f : FmtI) (s : State) : Host.Outcome State Fault Refusal := .next (s.aluI c f shl64)

/-- SHRI (R125). -/
def execShri (c : Clu) (f : FmtI) (s : State) : Host.Outcome State Fault Refusal := .next (s.aluI c f shr64)

/-- SRAI (R125). -/
def execSrai (c : Clu) (f : FmtI) (s : State) : Host.Outcome State Fault Refusal := .next (s.aluI c f sra64)

/-- LI: RS1 must be 0. -/
def execLi (c : Clu) (f : FmtI) (s : State) : Host.Outcome State Fault Refusal := .next (s.scalar (cluKey c) (f.rs1 == 0) fun sc s =>
  s.retire (cluKey c) (sc.setX f.rd.toNat (f.imm.signExtend 64)))

/-- LIH: (RS1 mod 2^42) + IMM[21:0] × 2^42; IMM[41:22] must be 0. -/
def execLih (c : Clu) (f : FmtI) (s : State) : Host.Outcome State Fault Refusal := .next (s.scalar (cluKey c) (f.imm >>> 22 == 0) fun sc s =>
  s.retire (cluKey c) (sc.setX f.rd.toNat (((sc.getX f.rs1.toNat).truncate 42).zeroExtend 64 + (f.imm.zeroExtend 64 <<< 42))))

/-- FADD.S. -/
def execFaddS (c : Clu) (f : FmtR) (s : State) : Host.Outcome State Fault Refusal := .next (s.fpu2 c f fp32 Num.add)

/-- FSUB.S. -/
def execFsubS (c : Clu) (f : FmtR) (s : State) : Host.Outcome State Fault Refusal := .next (s.fpu2 c f fp32 fun rm x y => Num.add rm x y.neg)

/-- FMUL.S. -/
def execFmulS (c : Clu) (f : FmtR) (s : State) : Host.Outcome State Fault Refusal := .next (s.fpu2 c f fp32 fun _ x y => Num.mul x y)

/-- FMA.S. -/
def execFmaS (c : Clu) (f : FmtR) (s : State) : Host.Outcome State Fault Refusal := .next (s.fpuFma c f fp32)

/-- FDIV.S. -/
def execFdivS (c : Clu) (f : FmtR) (s : State) : Host.Outcome State Fault Refusal := .next (s.fpu2 c f fp32 fun _ x y => Num.div x y)

/-- FSQRT.S. -/
def execFsqrtS (c : Clu) (f : FmtR) (s : State) : Host.Outcome State Fault Refusal := .next (s.fpuSqrt c f fp32)

/-- FMIN.S. -/
def execFminS (c : Clu) (f : FmtR) (s : State) : Host.Outcome State Fault Refusal := .next (s.fpuM c f fp32 Num.min)

/-- FMAX.S. -/
def execFmaxS (c : Clu) (f : FmtR) (s : State) : Host.Outcome State Fault Refusal := .next (s.fpuM c f fp32 Num.max)

/-- FEQ.S. -/
def execFeqS (c : Clu) (f : FmtR) (s : State) : Host.Outcome State Fault Refusal := .next (s.fpuCmp c f fp32 fun r => decide (r = 0))

/-- FLT.S. -/
def execFltS (c : Clu) (f : FmtR) (s : State) : Host.Outcome State Fault Refusal := .next (s.fpuCmp c f fp32 fun r => decide (r < 0))

/-- FADD.D. -/
def execFaddD (c : Clu) (f : FmtR) (s : State) : Host.Outcome State Fault Refusal := .next (s.fpu2 c f fp64 Num.add)

/-- FSUB.D. -/
def execFsubD (c : Clu) (f : FmtR) (s : State) : Host.Outcome State Fault Refusal := .next (s.fpu2 c f fp64 fun rm x y => Num.add rm x y.neg)

/-- FMUL.D. -/
def execFmulD (c : Clu) (f : FmtR) (s : State) : Host.Outcome State Fault Refusal := .next (s.fpu2 c f fp64 fun _ x y => Num.mul x y)

/-- FMA.D. -/
def execFmaD (c : Clu) (f : FmtR) (s : State) : Host.Outcome State Fault Refusal := .next (s.fpuFma c f fp64)

/-- FDIV.D. -/
def execFdivD (c : Clu) (f : FmtR) (s : State) : Host.Outcome State Fault Refusal := .next (s.fpu2 c f fp64 fun _ x y => Num.div x y)

/-- FSQRT.D. -/
def execFsqrtD (c : Clu) (f : FmtR) (s : State) : Host.Outcome State Fault Refusal := .next (s.fpuSqrt c f fp64)

/-- FMIN.D. -/
def execFminD (c : Clu) (f : FmtR) (s : State) : Host.Outcome State Fault Refusal := .next (s.fpuM c f fp64 Num.min)

/-- FMAX.D. -/
def execFmaxD (c : Clu) (f : FmtR) (s : State) : Host.Outcome State Fault Refusal := .next (s.fpuM c f fp64 Num.max)

/-- FEQ.D. -/
def execFeqD (c : Clu) (f : FmtR) (s : State) : Host.Outcome State Fault Refusal := .next (s.fpuCmp c f fp64 fun r => decide (r = 0))

/-- FLT.D. -/
def execFltD (c : Clu) (f : FmtR) (s : State) : Host.Outcome State Fault Refusal := .next (s.fpuCmp c f fp64 fun r => decide (r < 0))

/-- FCVT.S.D: FP64 to FP32. -/
def execFcvtSD (c : Clu) (f : FmtR) (s : State) : Host.Outcome State Fault Refusal := .next (s.fcvtFF c f fp64 fp32)

/-- FCVT.D.S: FP32 to FP64. -/
def execFcvtDS (c : Clu) (f : FmtR) (s : State) : Host.Outcome State Fault Refusal := .next (s.fcvtFF c f fp32 fp64)

/-- FCVT.S.X: INT64 to FP32. -/
def execFcvtSX (c : Clu) (f : FmtR) (s : State) : Host.Outcome State Fault Refusal := .next (s.fcvtFX c f fp32)

/-- FCVT.D.X: INT64 to FP64. -/
def execFcvtDX (c : Clu) (f : FmtR) (s : State) : Host.Outcome State Fault Refusal := .next (s.fcvtFX c f fp64)

/-- FCVT.X.S: FP32 to INT64. -/
def execFcvtXS (c : Clu) (f : FmtR) (s : State) : Host.Outcome State Fault Refusal := .next (s.fcvtXF c f fp32)

/-- FCVT.X.D: FP64 to INT64. -/
def execFcvtXD (c : Clu) (f : FmtR) (s : State) : Host.Outcome State Fault Refusal := .next (s.fcvtXF c f fp64)

/-- FMV.X.F: raw move to an integer register. -/
def execFmvXF (c : Clu) (f : FmtR) (s : State) : Host.Outcome State Fault Refusal := .next (s.scalar (cluKey c) (cvtLegal f false false true) fun sc s =>
  s.retire (cluKey c) (sc.setX f.rd.toNat (sc.getF f.rs1.toNat)))

/-- FMV.F.X: raw move to a floating-point register. -/
def execFmvFX (c : Clu) (f : FmtR) (s : State) : Host.Outcome State Fault Refusal := .next (s.scalar (cluKey c) (cvtLegal f false true false) fun sc s =>
  s.retire (cluKey c) (sc.setF f.rd.toNat (sc.getX f.rs1.toNat)))

/-- CMD.TAG (Table 4.6: bits 31:0). -/
def execCmdTag (c : Clu) (f : FmtR) (s : State) : Host.Outcome State Fault Refusal := .next (s.setCmd c f fun sc v => { sc with cmdtag := v &&& 0xFFFFFFFF })

/-- CMD.WAIT (Table 4.6: bits 4:0 and 63:32). -/
def execCmdWait (c : Clu) (f : FmtR) (s : State) : Host.Outcome State Fault Refusal := .next (s.setCmd c f fun sc v => { sc with cmdwait := v &&& 0xFFFFFFFF0000001F })

/-- CMD.SIG (Table 4.6: bits 4:0). -/
def execCmdSig (c : Clu) (f : FmtR) (s : State) : Host.Outcome State Fault Refusal := .next (s.setCmd c f fun sc v => { sc with cmdsig := v &&& 0x1F })

/-- CTR.RD: an IMM above 15 is ILLEGAL. -/
def execCtrRd (c : Clu) (f : FmtI) (s : State) : Host.Outcome State Fault Refusal := .next (s.scalar (cluKey c) (f.rs1 == 0 && decide (f.imm.toNat < 16)) fun sc s =>
  s.retire (cluKey c) (sc.setX f.rd.toNat (w64 (s.ctr (cluKey c) f.imm.toNat))))

/-- CTR.WR: RD must be 0. -/
def execCtrWr (c : Clu) (f : FmtI) (s : State) : Host.Outcome State Fault Refusal := .next (s.scalar (cluKey c) (f.rd == 0 && decide (f.imm.toNat < 16)) fun sc s =>
  (s.wr Reg.CTR_VALUE (cluKey c) (sc.getX f.rs1.toNat).toNat f.imm.toNat).retire (cluKey c) sc)

/-- CTR.ADD: takes effect as a write (R126). -/
def execCtrAdd (c : Clu) (f : FmtI) (s : State) : Host.Outcome State Fault Refusal := .next (s.scalar (cluKey c) (f.rd == 0 && decide (f.imm.toNat < 16)) fun sc s =>
  (s.bumpW Reg.CTR_VALUE (cluKey c) (sc.getX f.rs1.toNat).toNat f.imm.toNat).retire (cluKey c) sc)

/-- XRD. -/
def execXrd (c : Clu) (f : FmtI) (s : State) : Host.Outcome State Fault Refusal := .next (s.special c f f.rs1 fun sc n => sc.setX f.rd.toNat ((sc.xreg n).getD 0))

/-- XWR. -/
def execXwr (c : Clu) (f : FmtI) (s : State) : Host.Outcome State Fault Refusal := .next (s.special c f f.rd fun sc n => sc.setXreg n (sc.getX f.rs1.toNat))

end Sys2Proof.Machine
end

