-- ==== Sys2Proof/Machine/StepLoop.lean ====
section
/-! DEFINITION. The step loop (R294 to R297, R302, R304, R479), with the close of a step (R280, R361, R480). -/

namespace Sys2Proof.Machine

/-- RUN_STEPS: the descriptor is checked; one run a vat (R483). -/
def State.runSteps (s : State) (c : HCmd) (v : Vat) : State × Option (Nat × Nat) :=
  let d := s.hostWords (c.opd 2) 8
  let w (i : Nat) : Nat := d.getD i 0
  let (cause, l) := s.vatLoc v.id (w 1 % 2 ^ 56 + s.ownMod * 2 ^ 56) (16 * max 1 (w 0)) false
  let tier := match l with
    | .t1 _ => true
    | .t2 _ _ => true
    | _ => false
  if s.svc.steps.any (fun r => r.vat == v.id) ∨ v.run = .stopped then fails s stBusy
  else if v.run = .held then fails s stFaultHold
  else if s.hostBad (c.opd 2) 64 then fails s stIoError
  else if 2 ^ 16 ≤ w 0 ∨ 2 ^ 56 ≤ w 1 ∨ 2 ^ 24 ≤ w 2 ∨ 2 ^ 32 ≤ w 3 ∨ cause ≠ 0 ∨ !tier then fails s stBadField
  else if c.opd 1 = 0 then (s, some (stOk, 0))
  else ({ s with svc := { s.svc with steps := s.svc.steps ++ [(⟨v.id, c.id, c.opd 1, 0, 0, d.map w64, false, false, 0, 0, 0, 0⟩ : StepRun)] } }, none)

def execRunSteps (id : Nat) (s : State) : Host.Outcome State Fault Refusal := .next (s.runVatCmd id 0x22 fun c v s => s.runSteps c v)

def State.setStepRun (s : State) (r : StepRun) : State :=
  { s with svc := { s.svc with steps := s.svc.steps.map fun (x : StepRun) => if x.cmd = r.cmd then r else x } }

/-- Does a sink of a vat hold an INCOMPLETE record of a step (Table 10.9)? -/
def State.stepIncomplete (s : State) (id step : Nat) : Bool :=
  (s.vatRecs id).any fun e =>
    let w0 := s.ld (scrKey e.1 e.2) 8
    bitsOf w0 7 6 == 2 && bitsOf w0 39 32 == id && s.ld (scrKey e.1 (e.2 + 8)) 8 % 2 ^ 32 == step

/-! ### Buckets and shards (R296, R479) -/

/-- A shard of a step: its number among the step's shards, its place among the vat's modules and that module, its tree, the PA of its
bucket's local gradient and the elements it takes from it. -/
structure Shard where
  n : Nat
  j : Nat
  own : Nat
  tree : Nat
  pa : Nat
  lo : Nat
  hi : Nat
  deriving DecidableEq, Repr

/-- The modules of a vat in ascending order. -/
def Vat.modList (v : Vat) : List Nat := (List.range 64).filter v.mods.contains

/-- The shards of a bucket table: word 0 of an entry is the gradient's PA, word 1 its bytes and its first tree. A bucket's FP32 elements
are shared out evenly, the last shards taking what is left (log 39). -/
def shardsOf (ms : List Nat) (tab : List Byte) (n : Nat) : List Shard :=
  (List.range n).flatMap fun b =>
    let w1 := ldList tab (16 * b + 8) 8
    let all := w1 % 2 ^ 32 / 4
    let per := (all + ms.length - 1) / ms.length
    ms.zipIdx.map fun m => ⟨b * ms.length + m.2, m.2, m.1, (bitsOf w1 39 32 + m.2) % 256, ldList tab (16 * b) 8, min all (m.2 * per),
      min all (m.2 * per + per)⟩

/-- A PA in the vat's windows on this module, as a mover reads it. -/
def State.vatPa (s : State) (id pa len : Nat) (write : Bool) : Nat × MLoc := s.vatLoc id (pa % 2 ^ 56 + s.ownMod * 2 ^ 56) len write

/-- The step's shards; none where the bucket table cannot be read (log 39). -/
def State.shards (s : State) (r : StepRun) (v : Vat) : State × List Shard :=
  let n := (r.desc.getD 0 0).toNat
  let (c, l) := s.vatPa r.vat (r.desc.getD 1 0).toNat (16 * n) false
  if n = 0 ∨ c ≠ 0 then (s, [])
  else
    let x := s.mvRead l (16 * n)
    (x.1, if x.2.2 = 0 then (shardsOf v.modList x.2.1 n).filter fun y => decide (y.lo < y.hi) else [])

/-- The FP32 elements of this module's partial of a shard; none where they cannot be read. -/
def State.partialOf (s : State) (id : Nat) (x : Shard) : State × Option (List Nat) :=
  let (c, l) := s.vatPa id (x.pa + 4 * x.lo) (4 * (x.hi - x.lo)) false
  if c ≠ 0 then (s, none)
  else
    let y := s.mvRead l (4 * (x.hi - x.lo))
    (y.1, if y.2.2 = 0 then some ((List.range (x.hi - x.lo)).map fun i => ldList y.2.1 (4 * i) 4) else none)

/-! ### Exponents (R294, R295) -/

/-- floor(log2 |x|) of an element as EXP_LOCAL carries it. -/
def elemExp (p : Nat) : Nat :=
  match fpDecode fp32 p with
  | .fin _ m e _ => if m = 0 then 0x8000 else ofSigned 16 ((bitLen m : Int) - 1 + e)
  | _ => 0x7FFF

/-- An element as INT64 in units of 2^(E − 38); E = 0 where every element is zero. -/
def shardInt (exp p : Nat) : Nat :=
  match fpDecode fp32 p with
  | .fin neg m e _ => (elemRound 0x11 0 0 true (.fin neg m (e + 38 - (if exp = 0x8000 then 0 else toSigned 16 exp)) false)).1
  | _ => 0

/-- The lanes that are bound to a vat, ascending; the lowest free lane is bound where it has none (R294, log 39). -/
def State.lanesOf (s : State) (id : Nat) : List Nat :=
  (List.range 64).filter fun l => s.rd Reg.EXP_BIND_VALID 0 l == 1 && s.rd Reg.EXP_BIND_VAT 0 l == id
def State.bindLane (s : State) (id : Nat) : State :=
  if s.lanesOf id ≠ [] then s
  else match (List.range 64).find? fun l => s.rd Reg.EXP_BIND_VALID 0 l == 0 with
    | some l => ((s.wr Reg.EXP_BIND_VAT 0 id l).wr Reg.EXP_BIND_VALID 0 1 l).clearLane l
    | none => s

/-- The lane of a shard: shards beyond the bound lanes share them, and a lane then carries the largest exponent of its shards (log 39). -/
def laneFor (lanes : List Nat) (x : Shard) : Nat := lanes.getD (x.n % max 1 lanes.length) 0

/-- Table 10.6, phase 1: this module writes its exponents. -/
def State.writeExps (s : State) (id tag : Nat) (lanes : List Nat) (l : List Shard) : State :=
  s.each lanes fun s lane =>
    let r := (l.filter fun x => laneFor lanes x == lane).foldl (fun (r : State × List Nat) x =>
      let y := r.1.partialOf id x
      (y.1, r.2 ++ (match y.2 with
        | some ps => ps.map elemExp
        | none => [0x7FFF]))) (s, [])
    r.1.doExpLocal r.1.ownMod lane (maxExp r.2) tag

/-! ### Trees (R282, R296) -/

/-- The next direction from a module to another: X, then Y, then Z, the shorter way, and of two equal ways the one without a wrap. -/
def axisDir (n a b d : Nat) : Option Nat :=
  let up := (b + n - a) % n
  let down := (a + n - b) % n
  if a = b then none else if up < down ∨ (up = down ∧ a < b) then some d else some (d + 1)
def State.dirTo (s : State) (m j : Nat) : Option Nat :=
  ((axisDir 4 (m % 4) (j % 4) 0).orElse fun _ => axisDir 4 (m / 4 % 4) (j / 4 % 4) 2).orElse fun _ =>
    axisDir (max 1 s.host.depthZ) (m / 16) (j / 16) 4

/-- The modules on a tree's path from m to j, m first. -/
def State.treePath (s : State) (j : Nat) : Nat → Nat → List Nat
  | 0, m => [m]
  | n + 1, m => match s.dirTo m j with
    | none => [m]
    | some d => m :: s.treePath j n (s.modStep m d)

/-- The partials that a tree brings to a module on the way to j: from each module before it on some path, and its own. -/
def State.treeIn (s : State) (ms : List Nat) (o j : Nat) : Nat :=
  let ps := ms.map fun m => s.treePath j 8 m
  ((ps.filterMap fun p => ((p.zip (p.drop 1)).find? fun e => e.2 == o).map Prod.fst).dedup).length + b2n (ms.contains o)

/-- Every module on a tree's path holds a reducing node: on the tile by which packets for the owner leave this module (log 74). -/
def State.placeNode (s : State) (v : Vat) (x : Shard) : State :=
  let t := s.rd Reg.MOD_ACT_ENTRY 0 x.own / 8 % 64
  let n := s.treeIn v.modList s.ownMod x.own
  let has := (List.range 64).any fun i =>
    s.rd Reg.CH_NODE_VALID t i == 1 && s.rd Reg.CH_NODE_VAT t i == v.id && s.rd Reg.CH_NODE_TREE t i == x.tree
  match (List.range 64).find? fun i => s.rd Reg.CH_NODE_VALID t i == 0 with
  | none => s
  | some i =>
    if x.own = s.ownMod ∨ n = 0 ∨ 15 < n ∨ has ∨ 36 ≤ t then s
    else s.doChNode t i (1 + v.id * 2 + x.tree * 2 ^ 9 + n * 2 ^ 17 + 2 ^ 21)

/-- This module's sink of a tree: tile and entry. -/
def State.treeSink (s : State) (id tree : Nat) : Option (Nat × Nat) :=
  ((List.range 36).flatMap fun t => (List.range 16).map fun k => (t, k)).find? fun e =>
    s.rd Reg.CH_SINK_VALID e.1 e.2 == 1 && s.rd Reg.CH_SINK_VAT e.1 e.2 == id && s.rd Reg.CH_SINK_TREE e.1 e.2 == tree

/-- QUORUM is 75 % of TOTAL, rounded up, where the vat's configuration has named no other (R302): a QUORUM that is not 0 (log 39). -/
def State.setQuorum (s : State) (e : Nat × Nat) : State :=
  if s.rd Reg.CH_SINK_QUORUM e.1 e.2 = 0 then s.wr Reg.CH_SINK_QUORUM e.1 ((3 * s.rd Reg.CH_SINK_TOTAL e.1 e.2 + 3) / 4) e.2 else s

/-! ### Contributions (R295 to R297) -/

/-- The cluster on which the step loop runs: the lowest reserved one of tile (0, 0) whose S-core works (log 39). -/
def State.loopClu (s : State) : Option Nat :=
  ((s.reservedOn 0).reverse.filterMap s.physOf).find? fun ck => s.dieOn (ckTile ck) (ckSite ck) && !s.fenced (coreOf ck 4)

/-- A remote address of the layout of R139. -/
def pailWord (m id pail off : Nat) : Nat := off % 2 ^ 24 + pail * 2 ^ 24 + id * 2 ^ 30 + m * 2 ^ 44

/-- Where the sink of a shard's tree lies; that of another module is the fabric manager's plan (log 74). -/
def State.sinkWord (s : State) (id : Nat) (x : Shard) : Option Nat :=
  if x.own = s.ownMod then (s.treeSink id x.tree).map fun e =>
    pailWord s.ownMod (s.rd Reg.CH_SINK_DST_CORE e.1 e.2) (s.rd Reg.CH_SINK_DST_PAIL e.1 e.2) (s.rd Reg.CH_SINK_DST_OFF e.1 e.2)
  else some ((Config.sinkAt x.own id x.tree).toNat % 2 ^ 44 + x.own * 2 ^ 44)

/-- The elements of a contribution: FP32 as they are, or quantised; of FLAGS_ONLY none is read. -/
def contribution (mode exp : Nat) (ps : List Nat) : List Byte :=
  if mode = 0 then toBytes ((ps ++ (if ps.length % 2 = 1 then [0] else [])).flatMap (leBytes 4))
  else if mode = 1 then toBytes (ps.flatMap fun p => leBytes 8 (shardInt exp p))
  else List.replicate 8 0

/-- F.CHURN of the step loop to a shard's tree, with INDEX the module number and SCALE = E (R284, R285, R295). -/
def State.churnOut (s : State) (ck opid id mode : Nat) (x : Shard) (remote exp : Nat) (data : List Byte) : State :=
  let sc := s.sc ck
  let e := if mode = 1 ∧ exp ≠ 0x8000 then exp % 2 ^ 9 else 0
  let loc := pailWord s.ownMod (mkCid (ckTile ck) (s.lsite (ckTile ck) (ckSite ck)) (ckClu ck) 4) 0 0
  let o : FOp := ⟨opid, sc.nextF, .churn, w64 remote, w64 loc, data.length, x.tree + s.ownMod * 2 ^ 8 + e * 2 ^ 14 + id * 2 ^ 23, none, 0,
    false, id, true, 0, if mode = 2 then 1 else (data.length + 8159) / 8160, [], [], 0, none, [], some data⟩
  let o := { o with since := if s.injHeld (ckTile ck) o.cls o.vat then none else some s.now }
  let s := (s.setFops ck (s.fops ck ++ [o])).wr Reg.DI_STATUS_OUTSTANDING ck (s.rd Reg.DI_STATUS_OUTSTANDING ck + 2 ^ opid)
  (s.setSc ck { sc with nextF := sc.nextF + 1 }).pump ck

/-- The record of a shard to which nobody contributes: INCOMPLETE and NONFINITE (R295, Table 10.9). -/
def State.nonfiniteRec (s : State) (id step : Nat) (x : Shard) : State :=
  match s.treeSink id x.tree with
  | none => s
  | some (t, k) => match s.sinkCore t k with
    | none => s
    | some core =>
      let p := s.pail core (s.rd Reg.CH_SINK_REC_PAIL t k)
      let off := s.rd Reg.CH_SINK_REC_OFF t k
      let ws : List Nat := [1 + 1 * 2 ^ 4 + 2 * 2 ^ 6 + 2 ^ 11 + s.rd Reg.CH_SINK_SKIM_EN t k * 2 ^ 17 + x.tree * 2 ^ 24 + id * 2 ^ 32, step,
        s.rd Reg.CH_SINK_QUORUM t k + s.chSkim t id * 2 ^ 24 + 0x7FFF * 2 ^ 38, 0, s.rd Reg.CH_SINK_EXPECT_MASK t k, 0, s.now % 2 ^ 64, 0]
      let bs := toBytes (ws.flatMap (leBytes 8))
      if p.takes true true off 64 then (s.writeScr core (p.base + off + 8) (bs.drop 8)).writeScr core (p.base + off) (bs.take 8) else s

/-- One shard of the step goes out; none where every OPID is taken. -/
def State.contribute (s : State) (ck id step mode : Nat) (lanes : List Nat) (x : Shard) : Option State :=
  let exp := match s.seal? (laneFor lanes x) (step % 2 ^ 16) with
    | some e => if e.included.contains s.ownMod then some e.exp else if e.exp = 0x7FFF then some 0x7FFF else none
    | none => none
  match (if mode = 1 then exp else some 0x8000) with
  | none => some s
  | some exp =>
    if exp = 0x7FFF then some (if x.own = s.ownMod then s.nonfiniteRec id step x else s)
    else match s.partialOf id x, s.sinkWord id x, (List.range 16).find? fun i => (s.fops ck).all fun o => o.opid != i with
      | (s, some ps), some a, some opid => some (s.churnOut ck opid id mode x a exp (contribution mode exp ps))
      | (_, some _), some _, none => none
      | (s, _), _, _ => some s

/-- Shards go out in turn while there are OPIDs for them: the state and how many went. -/
def State.contributeAll (s : State) (ck id step mode : Nat) (lanes : List Nat) : List Shard → State × Nat
  | [] => (s, 0)
  | x :: r => match s.contribute ck id step mode lanes x with
    | none => (s, 0)
    | some s => let y := s.contributeAll ck id step mode lanes r; (y.1, y.2 + 1)

/-! ### Results (R301, R302) -/

/-- Where a shard's record and sums lie: core, the record's place, the sums' place, the words of a record of this step. -/
def State.shardRec (s : State) (id step : Nat) (x : Shard) : Option (Nat × Nat × List Nat) :=
  (s.treeSink id x.tree).bind fun e => (s.sinkCore e.1 e.2).bind fun core =>
    let a := (s.pail core (s.rd Reg.CH_SINK_REC_PAIL e.1 e.2)).base + s.rd Reg.CH_SINK_REC_OFF e.1 e.2
    let ws := (List.range 8).map fun i => s.ld (scrKey core (a + 8 * i)) 8
    if ws.getD 0 0 % 16 = 1 ∧ bitsOf (ws.getD 0 0) 31 24 = x.tree ∧ bitsOf (ws.getD 0 0) 39 32 = id ∧ ws.getD 1 0 % 2 ^ 32 = step then
      some (core, (s.pail core (s.rd Reg.CH_SINK_DST_PAIL e.1 e.2)).base + s.rd Reg.CH_SINK_DST_OFF e.1 e.2, ws)
    else none

/-- Is a shard that this module updates still without its record? -/
def State.shardOpen (s : State) (id step : Nat) (x : Shard) : Bool :=
  x.own == s.ownMod && (s.treeSink id x.tree).isSome && (s.shardRec id step x).isNone

/-- One sum divided by COUNT, as FP32 (R302). -/
def meanOf (mode : Nat) (e : Int) (count w : Nat) : Nat :=
  f32bits (Num.div (if mode = 1 then .ofScaled (toSigned 64 w) (e - 38) else fpDecode fp32 w) (.fin false count 0 false))

/-- A COMPLETE shard's sums divided by the record's COUNT take the place of its local gradient; an INCOMPLETE one stays as it is (R302,
log 39). -/
def State.takeShard (s : State) (id step : Nat) (x : Shard) : State :=
  match (if x.own = s.ownMod then s.shardRec id step x else none) with
  | none => s
  | some (core, off, ws) =>
    let w (i : Nat) : Nat := ws.getD i 0
    let mode := bitsOf (w 0) 5 4
    let k := if mode = 1 then 8 else 4
    let n := x.hi - x.lo
    let (c, l) := s.vatPa id (x.pa + 4 * x.lo) (4 * n) true
    if bitsOf (w 0) 7 6 ≠ 1 ∨ 2 ≤ mode ∨ c ≠ 0 then s
    else
      let (s, ok) := s.readScr core off (k * n) 0
      if !ok then s
      else s.mvWrite l (toBytes (((List.range n).map fun i => meanOf mode (toSigned 16 (bitsOf (w 2) 53 38)) (bitsOf (w 1) 55 32)
        (s.ld (scrKey core (off + k * i)) k)).flatMap (leBytes 4)))

/-! ### STEP_LOOP_STEP -/

/-- The exchange of a step begins: nodes and quorums, and in EXACT mode the exponents. -/
def State.openExchange (s : State) (r : StepRun) (v : Vat) (step mode : Nat) (l : List Shard) : State :=
  let s := s.each l fun s x => s.placeNode v x
  let s := s.each ((l.filter fun x => x.own == s.ownMod).filterMap fun x => s.treeSink v.id x.tree) State.setQuorum
  let s := if mode = 1 then s.bindLane v.id else s
  let s := if mode = 1 then s.writeExps v.id (step % 2 ^ 16) (s.lanesOf v.id) l else s
  s.setStepRun { r with phase := 1, since := s.now, sent := 0 }

/-- Are the exponents final, sealed by this module where the vat's SKIM has passed since its own write (Table 10.6, phase 3)? -/
def State.sealExps (s : State) (r : StepRun) (step : Nat) (lanes : List Nat) : State × Bool :=
  let open_ := lanes.filter fun lane => (s.seal? lane (step % 2 ^ 16)).isNone
  let k := s.chSkim 0 r.vat
  if open_ = [] then (s, true)
  else if k ≠ 0 ∧ r.since + us (10 * k) ≤ s.now then (s.each open_ fun s lane => s.doSeal s.ownMod lane, true)
  else (s, false)

/-- STEP_LOOP_STEP (R294 to R297, R302, R479): once C.SVC 0x0100 has come the exchange begins; when the exponents are final the shards go
out; when every shard that this module updates has its record, the means are formed and flag 63 is set. What has to wait goes on
with the next command. The optimizer routine itself is the vat's own code (log 39). -/
def State.doStepLoop (s : State) (id : Nat) : State :=
  match s.svc.steps.find? (fun r => r.vat == id), s.vat? id with
  | some r, some v =>
    if !r.svcCalled || r.reduced || v.run != .running then s
    else
      let step := s.rd Reg.LG_VAT_STEP 0 id
      let mode := s.chMode 0 id
      let (s, l) := s.shards r v
      let s := if r.phase = 0 then s.openExchange r v step mode l else s
      let r := if r.phase = 0 then { r with phase := 1, since := s.now, sent := 0 } else r
      let lanes := s.lanesOf id
      let (s, go) := if r.phase = 1 ∧ mode = 1 ∧ l ≠ [] then s.sealExps r step lanes else (s, true)
      if !go then s
      else
        let (s, n) := match s.loopClu with
          | some ck => s.contributeAll ck id step mode lanes (l.drop r.sent)
          | none => (s, 0)
        let r := { r with phase := 2, sent := r.sent + n }
        if r.sent < l.length ∨ l.any (s.shardOpen id step) then s.setStepRun r
        else
          let bad := b2n (s.stepIncomplete id step)
          let s := s.each l fun s x => s.takeShard id step x
          (s.setStepRun { r with phase := 0, sent := 0, svcCalled := false, reduced := true, incomplete := r.incomplete + bad }).svcSet id
            (flagBit 63)
  | _, _ => s

def execStepLoopStep (vat : BitVec 8) (s : State) : Host.Outcome State Fault Refusal := .next (s.moved fun s => s.doStepLoop vat.toNat)

/-- The step of a run of the step loop closes: its interval's checkpoint, and the end of the run. -/
def State.closeRun (s : State) (r : StepRun) : State :=
  let w (i : Nat) : Nat := (r.desc.getD i 0).toNat
  let r := { r with reduced := false, left := r.left - 1, done := r.done + 1, sinceCkpt := r.sinceCkpt + 1 }
  let due := w 3 ≠ 0 ∧ w 3 ≤ r.sinceCkpt
  let (s, x) := if due then s.takeCkpt r.vat (w 4) (w 5) (w 6) (w 7) else (s, (stOk, 0))
  let r := if due then { r with sinceCkpt := 0 } else r
  let s := s.setStepRun r
  if x.1 = stOk ∧ r.left ≠ 0 then s
  else match s.host.cmds.find? fun c => c.id == r.cmd with
    | some c => (s.endCmd c x.1 (s.progress c)).dropService c.id
    | none => s

/-- A step of a vat has closed (R479, R480): the step loop's count and the checkpoints that waited. -/
def State.stepClosed (s : State) (id : Nat) : State :=
  let s := s.each (s.svc.steps.filter fun r => r.vat == id && r.reduced) State.closeRun
  let mine := s.host.cmds.filter fun c => s.svc.ckptWait.contains c.id && s.queueVat c.fn c.q == id
  s.each mine fun s c =>
    let (s, r) := s.takeCkpt id (c.opd 1) (c.opd 2) (c.opd 3) (c.opd 4)
    (s.endCmd c r.1 r.2).dropService c.id

/-- BARRIER_COMPLETION (R280, R361): the barrier's event, and the close of the vat's step with what waits for it. -/
def State.barrierDone (s : State) (id : Nat) : State :=
  let closes := (s.led? id).any fun v => v.run != .held && s.allArrived id true && s.rd Reg.LG_VAT_WAITING 0 id == 0
  let s := s.doBarrier id
  if closes then s.stepClosed id else s

def execBarrierCompletion (vat : BitVec 8) (s : State) : Host.Outcome State Fault Refusal := .next (s.barrierDone vat.toNat)

end Sys2Proof.Machine
end

