-- ==== Sys2Proof/Machine/Vector.lean ====
section
/-! DEFINITION. Class V (Chapter 4): what every V-class command does around its arithmetic (R96, R108), one definition per
opcode, and the V-core's Spill and operand errors (R107, R108). -/

namespace Sys2Proof.Machine

/-- The rows of a slot that a command reads: those of a table are the rows that indices in range name. -/
def State.vReadRows (s : State) (core op : Nat) (d : List Nat) (o : VOp) : List Nat :=
  let r := vSlot d o.slot
  if (op = 0x48 ∧ o.slot = 0) ∨ (op = 0x49 ∧ o.slot = 3) then
    (((s.vRow core d 1 0 (vRows d)).filter fun i => !vOut d i).dedup).map fun j => r.off + j * r.stride
  else rowsAt r.off r.stride o.rows

/-- Reads the inputs whose slot satisfies `p` with their check bits. -/
def State.vReads (s : State) (core op : Nat) (d : List Nat) (p : Nat → Bool) : State × Bool :=
  ((vOps' op d).filter fun o => p o.slot && (!o.write || (op == 0x49 && vAdd d))).foldl (fun r o =>
    if r.2 then r.1.readRows core (s.pail core (vSlot d o.slot).pail) (s.vReadRows core op d o) o.len else r) (s, true)

/-- Slots that a pre-scan reads (R96). -/
def preSlot (op : Nat) (d : List Nat) (i : Nat) : Bool :=
  (op == 0x40 && (i == 1 || i == 2)) || ((op == 0x48 || op == 0x49) && vTrapOob d && i == 1)

/-- The arithmetic of an opcode (Table 5.9). -/
def vFun : Nat → State → Nat → List Nat → State × VRes
  | 0x10, s, k, d => s.vArith k d (fun x y _ => Num.add (vRnd d) x y) fun x y _ => x + y
  | 0x11, s, k, d => s.vArith k d (fun x y _ => Num.add (vRnd d) x y.neg) fun x y _ => x - y
  | 0x12, s, k, d => s.vArith k d (fun x y _ => Num.mul x y) fun x y _ => x * y
  | 0x13, s, k, d => s.vArith k d (fun x y _ => Num.min x y) fun x y _ => min x y
  | 0x14, s, k, d => s.vArith k d (fun x y _ => Num.max x y) fun x y _ => max x y
  | 0x15, s, k, d => s.vArith k d (fun x y w => Num.add (vRnd d) (Num.mul x y) w) fun x y w => x * y + w
  | 0x16, s, k, d => s.vCmpRes k d
  | 0x17, s, k, d => s.vBits k d fun _ x y => x &&& y
  | 0x18, s, k, d => s.vBits k d fun _ x y => x ||| y
  | 0x19, s, k, d => s.vBits k d fun _ x y => x ^^^ y
  | 0x1A, s, k, d => s.vBits k d vShl
  | 0x1B, s, k, d => s.vBits k d vShr
  | 0x20, s, k, d => s.vCvtRes k d
  | 0x28, s, k, d => s.vFunc1 k d Num.exp2
  | 0x29, s, k, d => s.vFunc1 k d Num.log2
  | 0x2A, s, k, d => s.vFunc1 k d Num.rcp
  | 0x2B, s, k, d => s.vFunc1 k d Num.rsqrt
  | 0x30, s, k, d => s.vReduce k d f32add (fun x y => x + y) negZero
  | 0x31, s, k, d => s.vReduce k d Num.max max (.inf true)
  | 0x32, s, k, d => s.vReduce k d Num.min min (.inf false)
  | 0x38, s, k, d => s.smxStepRes k d
  | 0x39, s, k, d => s.smxRescaleRes k d
  | 0x3A, s, k, d => s.smxFinalRes k d
  | 0x40, s, k, d => s.ropeRes k d
  | 0x48, s, k, d => s.gatherRes k d
  | 0x49, s, k, d => s.scatterRes k d
  | 0x4A, s, k, d => s.topkRes k d
  | _, s, _, _ => (s, {})

/-- The descriptor with its first n rows only. -/
def vFirst (d : List Nat) (n : Nat) : List Nat := d.set 1 (d.getD 1 0 - d.getD 1 0 % 2 ^ 20 + (n - 1))

/-- How many leading rows of a command can be read; with blocks along a column, of whole blocks. -/
def State.vGoodRows (s : State) (core op : Nat) (d : List Nat) : Nat :=
  let n := ((List.range (vRows d - 1)).takeWhile fun i => (s.vReads core op (vFirst d (i + 1)) fun _ => true).2).length
  if op = 0x20 ∧ vAxis d = 1 then n / 32 * 32 else n

/-- Writes results. -/
def State.vPuts (s : State) (core : Nat) (d : List Nat) (r : VRes) : State :=
  s.each r.puts fun s x => s.writeView core (s.pail core (vSlot d x.1).pail) x.2.1 x.2.2

/-- An operand read has failed (R108): outputs already written stay. How many rows have been written is open: any number of the rows
before the error, a free value (log 17). -/
def State.vStop (s : State) (ck q : Nat) (e : QEntry) (d : List Nat) : State :=
  let core := coreOf ck q
  let (v, s) := s.draw
  let n := v.toNat % (s.vGoodRows core e.op d + 1)
  let s := if n = 0 then s else
    let r := vFun e.op s core (vFirst d n)
    r.1.vPuts core d r.2
  s.endWork ck q e cEcc 0

/-- A running V-class command: descriptor, checks, operand reads, results. -/
def State.vec (s : State) (ck q op : Nat) : State :=
  match s.running ck q false op with
  | none => s
  | some e =>
    let core := coreOf ck q
    let (s, c) := s.readDesc core e
    if c ≠ 0 then s.endWork ck q e c 0
    else
      let d := s.descWords core e
      let (c, recBad) := s.vChecks core e d
      if c ≠ 0 then s.endWork ck q { e with noRec := recBad } c 0
      else
        let (s, ok) := s.vReads core op d (preSlot op d)
        let c := if ok then s.vPrescan core op d else cEcc
        if c ≠ 0 then s.endWork ck q e c 0
        else
          let (s, ok) := s.vReads core op d fun i => !preSlot op d i
          if !ok then s.vStop ck q e d
          else
            let r := vFun op s core d
            (r.1.vPuts core d r.2).endWork ck q { e with oob := r.2.oob } 0 r.2.flags

/-- V.ADD: X + Y. -/
def execVAdd (c : Clu) (q : Queue) (s : State) : Host.Outcome State Fault Refusal :=
  .next (s.vec (cluKey c) q.val 0x10)

/-- V.SUB: X − Y. -/
def execVSub (c : Clu) (q : Queue) (s : State) : Host.Outcome State Fault Refusal :=
  .next (s.vec (cluKey c) q.val 0x11)

/-- V.MUL: X · Y. -/
def execVMul (c : Clu) (q : Queue) (s : State) : Host.Outcome State Fault Refusal :=
  .next (s.vec (cluKey c) q.val 0x12)

/-- V.MIN. -/
def execVMin (c : Clu) (q : Queue) (s : State) : Host.Outcome State Fault Refusal :=
  .next (s.vec (cluKey c) q.val 0x13)

/-- V.MAX. -/
def execVMax (c : Clu) (q : Queue) (s : State) : Host.Outcome State Fault Refusal :=
  .next (s.vec (cluKey c) q.val 0x14)

/-- V.FMA: X · Y + W, rounded once. -/
def execVFma (c : Clu) (q : Queue) (s : State) : Host.Outcome State Fault Refusal :=
  .next (s.vec (cluKey c) q.val 0x15)

/-- V.CMP: 1 or 0 by FUNC. -/
def execVCmp (c : Clu) (q : Queue) (s : State) : Host.Outcome State Fault Refusal :=
  .next (s.vec (cluKey c) q.val 0x16)

/-- V.AND. -/
def execVAnd (c : Clu) (q : Queue) (s : State) : Host.Outcome State Fault Refusal :=
  .next (s.vec (cluKey c) q.val 0x17)

/-- V.OR. -/
def execVOr (c : Clu) (q : Queue) (s : State) : Host.Outcome State Fault Refusal :=
  .next (s.vec (cluKey c) q.val 0x18)

/-- V.XOR. -/
def execVXor (c : Clu) (q : Queue) (s : State) : Host.Outcome State Fault Refusal :=
  .next (s.vec (cluKey c) q.val 0x19)

/-- V.SHL: an amount at or above the width gives 0 (R133). -/
def execVShl (c : Clu) (q : Queue) (s : State) : Host.Outcome State Fault Refusal :=
  .next (s.vec (cluKey c) q.val 0x1A)

/-- V.SHR: arithmetic; an amount at or above the width gives the sign fill (R133). -/
def execVShr (c : Clu) (q : Queue) (s : State) : Host.Outcome State Fault Refusal :=
  .next (s.vec (cluKey c) q.val 0x1B)

/-- V.CVT (R63, R64, R528). -/
def execVCvt (c : Clu) (q : Queue) (s : State) : Host.Outcome State Fault Refusal :=
  .next (s.vec (cluKey c) q.val 0x20)

/-- V.EXP2 (R95). -/
def execVExp2 (c : Clu) (q : Queue) (s : State) : Host.Outcome State Fault Refusal :=
  .next (s.vec (cluKey c) q.val 0x28)

/-- V.LOG2 (R95). -/
def execVLog2 (c : Clu) (q : Queue) (s : State) : Host.Outcome State Fault Refusal :=
  .next (s.vec (cluKey c) q.val 0x29)

/-- V.RCP (R95). -/
def execVRcp (c : Clu) (q : Queue) (s : State) : Host.Outcome State Fault Refusal :=
  .next (s.vec (cluKey c) q.val 0x2A)

/-- V.RSQRT (R95). -/
def execVRsqrt (c : Clu) (q : Queue) (s : State) : Host.Outcome State Fault Refusal :=
  .next (s.vec (cluKey c) q.val 0x2B)

/-- V.RSUM (R94). -/
def execVRsum (c : Clu) (q : Queue) (s : State) : Host.Outcome State Fault Refusal :=
  .next (s.vec (cluKey c) q.val 0x30)

/-- V.RMAX (R94). -/
def execVRmax (c : Clu) (q : Queue) (s : State) : Host.Outcome State Fault Refusal :=
  .next (s.vec (cluKey c) q.val 0x31)

/-- V.RMIN (R94). -/
def execVRmin (c : Clu) (q : Queue) (s : State) : Host.Outcome State Fault Refusal :=
  .next (s.vec (cluKey c) q.val 0x32)

/-- SMX.STEP (R98, R99). -/
def execSmxStep (c : Clu) (q : Queue) (s : State) : Host.Outcome State Fault Refusal :=
  .next (s.vec (cluKey c) q.val 0x38)

/-- SMX.RESCALE (R100). -/
def execSmxRescale (c : Clu) (q : Queue) (s : State) : Host.Outcome State Fault Refusal :=
  .next (s.vec (cluKey c) q.val 0x39)

/-- SMX.FINAL (R100). -/
def execSmxFinal (c : Clu) (q : Queue) (s : State) : Host.Outcome State Fault Refusal :=
  .next (s.vec (cluKey c) q.val 0x3A)

/-- ROPE (R102, R103). -/
def execRope (c : Clu) (q : Queue) (s : State) : Host.Outcome State Fault Refusal :=
  .next (s.vec (cluKey c) q.val 0x40)

/-- GATHER (R104). -/
def execGather (c : Clu) (q : Queue) (s : State) : Host.Outcome State Fault Refusal :=
  .next (s.vec (cluKey c) q.val 0x48)

/-- SCATTER (R104, R105). -/
def execScatter (c : Clu) (q : Queue) (s : State) : Host.Outcome State Fault Refusal :=
  .next (s.vec (cluKey c) q.val 0x49)

/-- TOPK (R106). -/
def execTopk (c : Clu) (q : Queue) (s : State) : Host.Outcome State Fault Refusal :=
  .next (s.vec (cluKey c) q.val 0x4A)

/-- V_CORE_SPILL (R107): a running command is left at the head, marked interrupted, and reruns from its start; a scatter in
ADD mode completes first; a command whose work is done ends as usual. -/
def State.doVCoreSpill (s : State) (core : Nat) : State :=
  let ck := cluOfCore core
  let q := slotOf core
  if q < 2 ∨ 4 ≤ q ∨ (s.core core).spillReq = none then s
  else match (s.que (ck * 4 + q)).head? with
    | none => s.markSpilled core
    | some e =>
      if e.st = .running then
        if isSig e.isM e.op ∨ (e.op = 0x49 ∧ vAdd (s.descWords core e)) then s
        else (s.markSpilled core).setHead (ck * 4 + q) { e with st := .interrupted }
      else s.markSpilled core

def execVCoreSpill (c : Core) (s : State) : Host.Outcome State Fault Refusal := .next (s.doVCoreSpill (coreKey c))

/-- V_OPERAND_ECC (R108): a running command meets an uncorrectable word of an operand; it stops with ECC and writes
nothing further; a word that a pre-scan reads is met before any output (R96). -/
def State.doVOperandEcc (s : State) (core : Nat) : State :=
  let ck := cluOfCore core
  let q := slotOf core
  if q < 2 ∨ 4 ≤ q then s
  else match (s.que (ck * 4 + q)).head? with
    | none => s
    | some e =>
      if e.st = .running ∧ !isSig e.isM e.op ∧ s.coreUp core ∧ s.descOk core e then
        let d := s.descWords core e
        if (s.vChecks core e d).1 ≠ 0 then s
        else
          let (s', pre) := s.vReads core e.op d (preSlot e.op d)
          let (s', ok) := if pre then s'.vReads core e.op d fun i => !preSlot e.op d i else (s', false)
          if ok then s else if pre then s'.vStop ck q e d else s'.endWork ck q e cEcc 0
      else s

def execVOperandEcc (c : Core) (s : State) : Host.Outcome State Fault Refusal := .next (s.doVOperandEcc (coreKey c))

end Sys2Proof.Machine
end

