-- ==== Sys2Proof/Machine/Dispatch.lean ====
section
/-! DEFINITION. One arm per command: the meaning it has, or a refusal by name. -/

namespace Sys2Proof.Machine

/-- What a command does to everything but the queue of waiting commands. -/
def exec (i : Instr) (s : State) : Host.Outcome State Fault Refusal :=
  match i with
  | .registerWrite sp addr v => Sys2Proof.Machine.execRegisterWrite sp addr v s
  | .migrate t lsite => Sys2Proof.Machine.execMigrate t lsite s
  | .migratePreempt t lsite => Sys2Proof.Machine.execMigratePreempt t lsite s
  | .substitute t lsite out => Sys2Proof.Machine.execSubstitute t lsite out s
  | .migrateDrainTimeout t => Sys2Proof.Machine.execMigrateDrainTimeout t s
  | .dieLoss t ps why out => Sys2Proof.Machine.execDieLoss t ps why out s
  | .substituteFailed t => Sys2Proof.Machine.execSubstituteFailed t s
  | .bistComplete t ps r => Sys2Proof.Machine.execBistComplete t ps r s
  | .testDry t => Sys2Proof.Machine.execTestDry t s
  | .drySiteRotation t => Sys2Proof.Machine.execDrySiteRotation t s
  | .scratchUeReport c word src kept => Sys2Proof.Machine.execScratchUeReport c word src kept s
  | .vfDisable vf => Sys2Proof.Machine.execVfDisable vf s
  | .vatIdDrainTimeout vat => Sys2Proof.Machine.execVatIdDrainTimeout vat s
  | .heartbeat t => Sys2Proof.Machine.execHeartbeat t s
  | .heartbeatLoss t => Sys2Proof.Machine.execHeartbeatLoss t s
  | .cmdEntryCreate c isM op f => Sys2Proof.Machine.execCmdEntryCreate c isM op f s
  | .queueDispatch c q => Sys2Proof.Machine.execQueueDispatch c q s
  | .mMma c q folds => Sys2Proof.Machine.execMMma c q folds s
  | .mSig c q => Sys2Proof.Machine.execMSig c q s
  | .mLdw c q => Sys2Proof.Machine.execMLdw c q s
  | .spillRequest c reason => Sys2Proof.Machine.execSpillRequest c reason s
  | .spillStopPoint c => Sys2Proof.Machine.execSpillStopPoint c s
  | .holdRequest c => Sys2Proof.Machine.execHoldRequest c s
  | .holdLift c => Sys2Proof.Machine.execHoldLift c s
  | .abandon c => Sys2Proof.Machine.execAbandon c s
  | .spillResume c => Sys2Proof.Machine.execSpillResume c s
  | .arrayCheckFailure c src col row => Sys2Proof.Machine.execArrayCheckFailure c src col row s
  | .commandCompletion c q => Sys2Proof.Machine.execCommandCompletion c q s
  | .commandFailure c q => Sys2Proof.Machine.execCommandFailure c q s
  | .retry c q => Sys2Proof.Machine.execRetry c q s
  | .skip c q => Sys2Proof.Machine.execSkip c q s
  | .flush c q => Sys2Proof.Machine.execFlush c q s
  | .vSig c q => Sys2Proof.Machine.execVSig c q s
  | .vAdd c q => Sys2Proof.Machine.execVAdd c q s
  | .vSub c q => Sys2Proof.Machine.execVSub c q s
  | .vMul c q => Sys2Proof.Machine.execVMul c q s
  | .vMin c q => Sys2Proof.Machine.execVMin c q s
  | .vMax c q => Sys2Proof.Machine.execVMax c q s
  | .vFma c q => Sys2Proof.Machine.execVFma c q s
  | .vCmp c q => Sys2Proof.Machine.execVCmp c q s
  | .vAnd c q => Sys2Proof.Machine.execVAnd c q s
  | .vOr c q => Sys2Proof.Machine.execVOr c q s
  | .vXor c q => Sys2Proof.Machine.execVXor c q s
  | .vShl c q => Sys2Proof.Machine.execVShl c q s
  | .vShr c q => Sys2Proof.Machine.execVShr c q s
  | .vCvt c q => Sys2Proof.Machine.execVCvt c q s
  | .vExp2 c q => Sys2Proof.Machine.execVExp2 c q s
  | .vLog2 c q => Sys2Proof.Machine.execVLog2 c q s
  | .vRcp c q => Sys2Proof.Machine.execVRcp c q s
  | .vRsqrt c q => Sys2Proof.Machine.execVRsqrt c q s
  | .vRsum c q => Sys2Proof.Machine.execVRsum c q s
  | .vRmax c q => Sys2Proof.Machine.execVRmax c q s
  | .vRmin c q => Sys2Proof.Machine.execVRmin c q s
  | .smxStep c q => Sys2Proof.Machine.execSmxStep c q s
  | .smxRescale c q => Sys2Proof.Machine.execSmxRescale c q s
  | .smxFinal c q => Sys2Proof.Machine.execSmxFinal c q s
  | .rope c q => Sys2Proof.Machine.execRope c q s
  | .gather c q => Sys2Proof.Machine.execGather c q s
  | .scatter c q => Sys2Proof.Machine.execScatter c q s
  | .topk c q => Sys2Proof.Machine.execTopk c q s
  | .vCoreSpill c => Sys2Proof.Machine.execVCoreSpill c s
  | .vOperandEcc c => Sys2Proof.Machine.execVOperandEcc c s
  | .sCoreSpill c => Sys2Proof.Machine.execSCoreSpill c s
  | .sCoreResume c => Sys2Proof.Machine.execSCoreResume c s
  | .exceptionEntry c => Sys2Proof.Machine.execExceptionEntry c s
  | .waitConditionMet c => Sys2Proof.Machine.execWaitConditionMet c s
  | .waitTimeout c => Sys2Proof.Machine.execWaitTimeout c s
  | .nop c f => Sys2Proof.Machine.execNop c f s
  | .add c f => Sys2Proof.Machine.execAdd c f s
  | .sub c f => Sys2Proof.Machine.execSub c f s
  | .andR c f => Sys2Proof.Machine.execAndR c f s
  | .orR c f => Sys2Proof.Machine.execOrR c f s
  | .xorR c f => Sys2Proof.Machine.execXorR c f s
  | .shl c f => Sys2Proof.Machine.execShl c f s
  | .shr c f => Sys2Proof.Machine.execShr c f s
  | .sra c f => Sys2Proof.Machine.execSra c f s
  | .slt c f => Sys2Proof.Machine.execSlt c f s
  | .sltu c f => Sys2Proof.Machine.execSltu c f s
  | .addi c f => Sys2Proof.Machine.execAddi c f s
  | .andi c f => Sys2Proof.Machine.execAndi c f s
  | .ori c f => Sys2Proof.Machine.execOri c f s
  | .xori c f => Sys2Proof.Machine.execXori c f s
  | .shli c f => Sys2Proof.Machine.execShli c f s
  | .shri c f => Sys2Proof.Machine.execShri c f s
  | .srai c f => Sys2Proof.Machine.execSrai c f s
  | .li c f => Sys2Proof.Machine.execLi c f s
  | .lih c f => Sys2Proof.Machine.execLih c f s
  | .mul c f => Sys2Proof.Machine.execMul c f s
  | .mulh c f => Sys2Proof.Machine.execMulh c f s
  | .mulhu c f => Sys2Proof.Machine.execMulhu c f s
  | .div c f => Sys2Proof.Machine.execDiv c f s
  | .divu c f => Sys2Proof.Machine.execDivu c f s
  | .rem c f => Sys2Proof.Machine.execRem c f s
  | .remu c f => Sys2Proof.Machine.execRemu c f s
  | .faddS c f => Sys2Proof.Machine.execFaddS c f s
  | .fsubS c f => Sys2Proof.Machine.execFsubS c f s
  | .fmulS c f => Sys2Proof.Machine.execFmulS c f s
  | .fmaS c f => Sys2Proof.Machine.execFmaS c f s
  | .fdivS c f => Sys2Proof.Machine.execFdivS c f s
  | .fsqrtS c f => Sys2Proof.Machine.execFsqrtS c f s
  | .fminS c f => Sys2Proof.Machine.execFminS c f s
  | .fmaxS c f => Sys2Proof.Machine.execFmaxS c f s
  | .faddD c f => Sys2Proof.Machine.execFaddD c f s
  | .fsubD c f => Sys2Proof.Machine.execFsubD c f s
  | .fmulD c f => Sys2Proof.Machine.execFmulD c f s
  | .fmaD c f => Sys2Proof.Machine.execFmaD c f s
  | .fdivD c f => Sys2Proof.Machine.execFdivD c f s
  | .fsqrtD c f => Sys2Proof.Machine.execFsqrtD c f s
  | .fminD c f => Sys2Proof.Machine.execFminD c f s
  | .fmaxD c f => Sys2Proof.Machine.execFmaxD c f s
  | .fcvtSD c f => Sys2Proof.Machine.execFcvtSD c f s
  | .fcvtDS c f => Sys2Proof.Machine.execFcvtDS c f s
  | .fcvtSX c f => Sys2Proof.Machine.execFcvtSX c f s
  | .fcvtDX c f => Sys2Proof.Machine.execFcvtDX c f s
  | .fcvtXS c f => Sys2Proof.Machine.execFcvtXS c f s
  | .fcvtXD c f => Sys2Proof.Machine.execFcvtXD c f s
  | .fmvXF c f => Sys2Proof.Machine.execFmvXF c f s
  | .fmvFX c f => Sys2Proof.Machine.execFmvFX c f s
  | .feqS c f => Sys2Proof.Machine.execFeqS c f s
  | .fltS c f => Sys2Proof.Machine.execFltS c f s
  | .feqD c f => Sys2Proof.Machine.execFeqD c f s
  | .fltD c f => Sys2Proof.Machine.execFltD c f s
  | .cmdTag c f => Sys2Proof.Machine.execCmdTag c f s
  | .cmdWait c f => Sys2Proof.Machine.execCmdWait c f s
  | .cmdSig c f => Sys2Proof.Machine.execCmdSig c f s
  | .ctrRd c f => Sys2Proof.Machine.execCtrRd c f s
  | .ctrWr c f => Sys2Proof.Machine.execCtrWr c f s
  | .ctrAdd c f => Sys2Proof.Machine.execCtrAdd c f s
  | .xrd c f => Sys2Proof.Machine.execXrd c f s
  | .xwr c f => Sys2Proof.Machine.execXwr c f s
  | .beq c f => Sys2Proof.Machine.execBeq c f s
  | .bne c f => Sys2Proof.Machine.execBne c f s
  | .blt c f => Sys2Proof.Machine.execBlt c f s
  | .bge c f => Sys2Proof.Machine.execBge c f s
  | .bltu c f => Sys2Proof.Machine.execBltu c f s
  | .bgeu c f => Sys2Proof.Machine.execBgeu c f s
  | .jal c f => Sys2Proof.Machine.execJal c f s
  | .jalr c f => Sys2Proof.Machine.execJalr c f s
  | .waitc c f => Sys2Proof.Machine.execWaitc c f s
  | .retx c f => Sys2Proof.Machine.execRetx c f s
  | .lb c f => Sys2Proof.Machine.execLb c f s
  | .lh c f => Sys2Proof.Machine.execLh c f s
  | .lw c f => Sys2Proof.Machine.execLw c f s
  | .ld c f => Sys2Proof.Machine.execLd c f s
  | .lbu c f => Sys2Proof.Machine.execLbu c f s
  | .lhu c f => Sys2Proof.Machine.execLhu c f s
  | .lwu c f => Sys2Proof.Machine.execLwu c f s
  | .sb c f => Sys2Proof.Machine.execSb c f s
  | .sh c f => Sys2Proof.Machine.execSh c f s
  | .sw c f => Sys2Proof.Machine.execSw c f s
  | .sd c f => Sys2Proof.Machine.execSd c f s
  | .flw c f => Sys2Proof.Machine.execFlw c f s
  | .fld c f => Sys2Proof.Machine.execFld c f s
  | .fsw c f => Sys2Proof.Machine.execFsw c f s
  | .fsd c f => Sys2Proof.Machine.execFsd c f s
  | .amoaddD c f => Sys2Proof.Machine.execAmoaddD c f s
  | .amoswapD c f => Sys2Proof.Machine.execAmoswapD c f s
  | .mfence c f => Sys2Proof.Machine.execMfence c f s
  | .pSet c f => Sys2Proof.Machine.execPSet c f s
  | .pFree c f => Sys2Proof.Machine.execPFree c f s
  | .pFill c f => Sys2Proof.Machine.execPFill c f s
  | .pCopy c f => Sys2Proof.Machine.execPCopy c f s
  | .mseCompletion c => Sys2Proof.Machine.execMseCompletion c s
  | .fPut c f => Sys2Proof.Machine.execFPut c f s
  | .fGet c f => Sys2Proof.Machine.execFGet c f s
  | .fChurn c f => Sys2Proof.Machine.execFChurn c f s
  | .fWait c f => Sys2Proof.Machine.execFWait c f s
  | .fOperationComplete c opid => Sys2Proof.Machine.execFOperationComplete c opid s
  | .fSload c f => Sys2Proof.Machine.execFSload c f s
  | .fSarm c f => Sys2Proof.Machine.execFSarm c f s
  | .scheduleArm => Sys2Proof.Machine.execScheduleArm s
  | .fIpause c f => Sys2Proof.Machine.execFIpause c f s
  | .fIresume c f => Sys2Proof.Machine.execFIresume c f s
  | .fEpoch c f => Sys2Proof.Machine.execFEpoch c f s
  | .epochCommit => Sys2Proof.Machine.execEpochCommit s
  | .epochDrainTimeout => Sys2Proof.Machine.execEpochDrainTimeout s
  | .ySet c f => Sys2Proof.Machine.execYSet c f s
  | .yClr c f => Sys2Proof.Machine.execYClr c f s
  | .yRd c f => Sys2Proof.Machine.execYRd c f s
  | .yWaitor c f => Sys2Proof.Machine.execYWaitor c f s
  | .yWaitand c f => Sys2Proof.Machine.execYWaitand c f s
  | .yBar c f => Sys2Proof.Machine.execYBar c f s
  | .barrierCompletion vat => Sys2Proof.Machine.execBarrierCompletion vat s
  | .eClaim c f => Sys2Proof.Machine.execEClaim c f s
  | .eStep c f => Sys2Proof.Machine.execEStep c f s
  | .eRd c f => Sys2Proof.Machine.execERd c f s
  | .admissionEvaluation => Sys2Proof.Machine.execAdmissionEvaluation s
  | .cSvc c f => Sys2Proof.Machine.execCSvc c f s
  | .cEnter c f => Sys2Proof.Machine.execCEnter c f s
  | .cFence c f => Sys2Proof.Machine.execCFence c f s
  | .patrolScrub c => Sys2Proof.Machine.execPatrolScrub c s
  | .correctedWriteBack c word => Sys2Proof.Machine.execCorrectedWriteBack c word s
  | .tierMoverDescriptorStart t mv => Sys2Proof.Machine.execTierMoverDescriptorStart t mv s
  | .tierMoverCopy t mv => Sys2Proof.Machine.execTierMoverCopy t mv s
  | .transpose t mv => Sys2Proof.Machine.execTranspose t mv s
  | .kvRead t mv => Sys2Proof.Machine.execKvRead t mv s
  | .kvWrite t mv => Sys2Proof.Machine.execKvWrite t mv s
  | .zero t mv => Sys2Proof.Machine.execZero t mv s
  | .tierMoverDescriptorEnd t mv => Sys2Proof.Machine.execTierMoverDescriptorEnd t mv s
  | .tierGrantWrite vat win v => Sys2Proof.Machine.execTierGrantWrite vat win v s
  | .t3LinkDown port => Sys2Proof.Machine.execT3LinkDown port s
  | .t3ReadTimeout port pid => Sys2Proof.Machine.execT3ReadTimeout port pid s
  | .nvmeInboundDma port busAddr dir => Sys2Proof.Machine.execNvmeInboundDma port busAddr dir s
  | .scheduledInjection c => Sys2Proof.Machine.execScheduledInjection c s
  | .scheduledHop t => Sys2Proof.Machine.execScheduledHop t s
  | .scheduledDelivery t lsite lg hdr body copy => Sys2Proof.Machine.execScheduledDelivery t lsite lg hdr body copy s
  | .repairTimeout rid => Sys2Proof.Machine.execRepairTimeout rid s
  | .slotBoundary => Sys2Proof.Machine.execSlotBoundary s
  | .stretchEvent t reports => Sys2Proof.Machine.execStretchEvent t reports s
  | .heldSlot => Sys2Proof.Machine.execHeldSlot s
  | .laneGroupRetirement t link rx group => Sys2Proof.Machine.execLaneGroupRetirement t link rx group s
  | .wheySlotPrbs e group lane errs => Sys2Proof.Machine.execWheySlotPrbs e group lane errs s
  | .write pid => Sys2Proof.Machine.execWrite pid s
  | .readReq pid => Sys2Proof.Machine.execReadReq pid s
  | .load pid => Sys2Proof.Machine.execLoad pid s
  | .store pid => Sys2Proof.Machine.execStore pid s
  | .amo pid => Sys2Proof.Machine.execAmo pid s
  | .ack pid => Sys2Proof.Machine.execAck pid s
  | .nack pid => Sys2Proof.Machine.execNack pid s
  | .readResp pid => Sys2Proof.Machine.execReadResp pid s
  | .loadResp pid => Sys2Proof.Machine.execLoadResp pid s
  | .resend pid => Sys2Proof.Machine.execResend pid s
  | .retryPacket pid => Sys2Proof.Machine.execRetryPacket pid s
  | .retryResendTimer pid => Sys2Proof.Machine.execRetryResendTimer pid s
  | .repairReq pid => Sys2Proof.Machine.execRepairReq pid s
  | .repairData pid => Sys2Proof.Machine.execRepairData pid s
  | .repairLate pid => Sys2Proof.Machine.execRepairLate pid s
  | .packetHopSourceRoute pid => Sys2Proof.Machine.execPacketHopSourceRoute pid s
  | .packetHopBurboid pid => Sys2Proof.Machine.execPacketHopBurboid pid s
  | .opTimeout c o => Sys2Proof.Machine.execOpTimeout c o s
  | .packetTruncation pid => Sys2Proof.Machine.execPacketTruncation pid s
  | .dynBufWrite t v => Sys2Proof.Machine.execDynBufWrite t v s
  | .flitReceive l group seq cls crc data => Sys2Proof.Machine.execFlitReceive l group seq cls crc data s
  | .replayRequest l seq => Sys2Proof.Machine.execReplayRequest l seq s
  | .flitAck l seq => Sys2Proof.Machine.execFlitAck l seq s
  | .creditReturn l cls pool => Sys2Proof.Machine.execCreditReturn l cls pool s
  | .classOnOff b cls off => Sys2Proof.Machine.execClassOnOff b cls off s
  | .controlPairFailure t link rx => Sys2Proof.Machine.execControlPairFailure t link rx s
  | .trainingAttempt t link p => Sys2Proof.Machine.execTrainingAttempt t link p s
  | .expressRetrain t col liveTx liveRx => Sys2Proof.Machine.execExpressRetrain t col liveTx liveRx s
  | .cartridgeFault cart => Sys2Proof.Machine.execCartridgeFault cart s
  | .interlockOpen cart => Sys2Proof.Machine.execInterlockOpen cart s
  | .cartridgeRelease cart => Sys2Proof.Machine.execCartridgeRelease cart s
  | .cartridgeInsert cart x => Sys2Proof.Machine.execCartridgeInsert cart x s
  | .reachTraining port p => Sys2Proof.Machine.execReachTraining port p s
  | .reachRetirement port why => Sys2Proof.Machine.execReachRetirement port why s
  | .reachEnable port => Sys2Proof.Machine.execReachEnable port s
  | .injectionArm t v => Sys2Proof.Machine.execInjectionArm t v s
  | .injectionEvent t => Sys2Proof.Machine.execInjectionEvent t s
  | .chVatWrite vat v => Sys2Proof.Machine.execChVatWrite vat v s
  | .churnStage pid => Sys2Proof.Machine.execChurnStage pid s
  | .nodeHoldExpiry t node => Sys2Proof.Machine.execNodeHoldExpiry t node s
  | .churnSinkApply pid => Sys2Proof.Machine.execChurnSinkApply pid s
  | .windowDeadline t p => Sys2Proof.Machine.execWindowDeadline t p s
  | .windowTailLimit t p => Sys2Proof.Machine.execWindowTailLimit t p s
  | .expLocalWrite m lane exp tag => Sys2Proof.Machine.execExpLocalWrite m lane exp tag s
  | .seal m lane => Sys2Proof.Machine.execSeal m lane s
  | .stepLoopStep vat => Sys2Proof.Machine.execStepLoopStep vat s
  | .busbarMate => Sys2Proof.Machine.execBusbarMate s
  | .enablePinMate => Sys2Proof.Machine.execEnablePinMate s
  | .enablePinBreak => Sys2Proof.Machine.execEnablePinBreak s
  | .precharge vin vbulk flow inlet => Sys2Proof.Machine.execPrecharge vin vbulk flow inlet s
  | .prechargeTimeout => Sys2Proof.Machine.execPrechargeTimeout s
  | .coolantWaitEnd flow inlet => Sys2Proof.Machine.execCoolantWaitEnd flow inlet s
  | .inputDip => Sys2Proof.Machine.execInputDip s
  | .inputLoss => Sys2Proof.Machine.execInputLoss s
  | .inputLossCellOff => Sys2Proof.Machine.execInputLossCellOff s
  | .overcurrentTrip => Sys2Proof.Machine.execOvercurrentTrip s
  | .overvoltageTrip => Sys2Proof.Machine.execOvervoltageTrip s
  | .overvoltageRecovery => Sys2Proof.Machine.execOvervoltageRecovery s
  | .cellShort t under => Sys2Proof.Machine.execCellShort t under s
  | .vlnkLoss t under => Sys2Proof.Machine.execVlnkLoss t under s
  | .vlnkFeedLoss t own => Sys2Proof.Machine.execVlnkFeedLoss t own s
  | .sensorExclusion t dom mv => Sys2Proof.Machine.execSensorExclusion t dom mv s
  | .powerUpReservation t ps => Sys2Proof.Machine.execPowerUpReservation t ps s
  | .reservationGrant t => Sys2Proof.Machine.execReservationGrant t s
  | .reservationTimeout t => Sys2Proof.Machine.execReservationTimeout t s
  | .rampCheckPoll t => Sys2Proof.Machine.execRampCheckPoll t s
  | .rampFailure t => Sys2Proof.Machine.execRampFailure t s
  | .meterTick es => Sys2Proof.Machine.execMeterTick es s
  | .capWWrite w => Sys2Proof.Machine.execCapWWrite w s
  | .energyWindowStart => Sys2Proof.Machine.execEnergyWindowStart s
  | .throttleFrame => Sys2Proof.Machine.execThrottleFrame s
  | .overClaim vat => Sys2Proof.Machine.execOverClaim vat s
  | .moduleThrottle power input => Sys2Proof.Machine.execModuleThrottle power input s
  | .tileLimiter t inst mean10 mean1 => Sys2Proof.Machine.execTileLimiter t inst mean10 mean1 s
  | .powerForecast => Sys2Proof.Machine.execPowerForecast s
  | .removeRequest => Sys2Proof.Machine.execRemoveRequest s
  | .drainDone => Sys2Proof.Machine.execDrainDone s
  | .drainTimeout => Sys2Proof.Machine.execDrainTimeout s
  | .latchRelease vbulk => Sys2Proof.Machine.execLatchRelease vbulk s
  | .dischargeFailure vbulk => Sys2Proof.Machine.execDischargeFailure vbulk s
  | .referenceSwitch => Sys2Proof.Machine.execReferenceSwitch s
  | .referenceBothFail => Sys2Proof.Machine.execReferenceBothFail s
  | .pllLossOfLock t => Sys2Proof.Machine.execPllLossOfLock t s
  | .pllReturn t => Sys2Proof.Machine.execPllReturn t s
  | .noClockSource t => Sys2Proof.Machine.execNoClockSource t s
  | .skewTrim t e measured => Sys2Proof.Machine.execSkewTrim t e measured s
  | .skewAlarm t e detFailed => Sys2Proof.Machine.execSkewAlarm t e detFailed s
  | .marginWarning t lowCycles stretches => Sys2Proof.Machine.execMarginWarning t lowCycles stretches s
  | .vlogTrim t => Sys2Proof.Machine.execVlogTrim t s
  | .divReq t setting => Sys2Proof.Machine.execDivReq t setting s
  | .timeExchange offset rate => Sys2Proof.Machine.execTimeExchange offset rate s
  | .timeMasterChange up => Sys2Proof.Machine.execTimeMasterChange up s
  | .timeHoldover => Sys2Proof.Machine.execTimeHoldover s
  | .svcBoot b => Sys2Proof.Machine.execSvcBoot b s
  | .tilePower dies => Sys2Proof.Machine.execTilePower dies s
  | .clockFwd => Sys2Proof.Machine.execClockFwd s
  | .linkTrain => Sys2Proof.Machine.execLinkTrain s
  | .selfTest r => Sys2Proof.Machine.execSelfTest r s
  | .neighbourTest r => Sys2Proof.Machine.execNeighbourTest r s
  | .mapReconcile => Sys2Proof.Machine.execMapReconcile s
  | .clockMesh => Sys2Proof.Machine.execClockMesh s
  | .memTrain r => Sys2Proof.Machine.execMemTrain r s
  | .culture => Sys2Proof.Machine.execCulture s
  | .chunk u idx crcOk => Sys2Proof.Machine.execChunk u idx crcOk s
  | .missingBitmapOr => Sys2Proof.Machine.execMissingBitmapOr s
  | .chunkFetch u tgt => Sys2Proof.Machine.execChunkFetch u tgt s
  | .cultureConfirmDeadline => Sys2Proof.Machine.execCultureConfirmDeadline s
  | .cultureReload c => Sys2Proof.Machine.execCultureReload c s
  | .ready => Sys2Proof.Machine.execReady s
  | .bringupStateTimeout => Sys2Proof.Machine.execBringupStateTimeout s
  | .coreReset c => Sys2Proof.Machine.execCoreReset c s
  | .dieComputeReset t ps => Sys2Proof.Machine.execDieComputeReset t ps s
  | .tileComputeReset t => Sys2Proof.Machine.execTileComputeReset t s
  | .panelComputeReset => Sys2Proof.Machine.execPanelComputeReset s
  | .warmModuleReset => Sys2Proof.Machine.execWarmModuleReset s
  | .coldReset => Sys2Proof.Machine.execColdReset s
  | .linkResume disagree => Sys2Proof.Machine.execLinkResume disagree s
  | .mapRestore digest => Sys2Proof.Machine.execMapRestore digest s
  | .memRestore r => Sys2Proof.Machine.execMemRestore r s
  | .warmFallback code => Sys2Proof.Machine.execWarmFallback code s
  | .queueEnable fn q => Sys2Proof.Machine.execQueueEnable fn q s
  | .queueDisable fn q => Sys2Proof.Machine.execQueueDisable fn q s
  | .sqTailDoorbell fn q tail => Sys2Proof.Machine.execSqTailDoorbell fn q tail s
  | .cqHeadDoorbell fn q head => Sys2Proof.Machine.execCqHeadDoorbell fn q head s
  | .csrDataAccess write v => Sys2Proof.Machine.execCsrDataAccess write v s
  | .vatCreate x => Sys2Proof.Machine.execVatCreate x s
  | .vatRelease id => Sys2Proof.Machine.execVatRelease id s
  | .vfBind id => Sys2Proof.Machine.execVfBind id s
  | .windowGrant id => Sys2Proof.Machine.execWindowGrant id s
  | .reset id => Sys2Proof.Machine.execReset id s
  | .logRead id => Sys2Proof.Machine.execLogRead id s
  | .eventWait id => Sys2Proof.Machine.execEventWait id s
  | .copy id => Sys2Proof.Machine.execCopy id s
  | .start id => Sys2Proof.Machine.execStart id s
  | .runSteps id => Sys2Proof.Machine.execRunSteps id s
  | .loadData id => Sys2Proof.Machine.execLoadData id s
  | .checkpoint id => Sys2Proof.Machine.execCheckpoint id s
  | .restore id => Sys2Proof.Machine.execRestore id s
  | .serve id => Sys2Proof.Machine.execServe id s
  | .seqRelease id => Sys2Proof.Machine.execSeqRelease id s
  | .pause id => Sys2Proof.Machine.execPause id s
  | .resume id => Sys2Proof.Machine.execResume id s
  | .batchRound vat => Sys2Proof.Machine.execBatchRound vat s
  | .hostLinkDown => Sys2Proof.Machine.execHostLinkDown s
  | .moduleAnnounce m => Sys2Proof.Machine.execModuleAnnounce m s
  | .formationEnd x => Sys2Proof.Machine.execFormationEnd x s
  | .moduleJoin m => Sys2Proof.Machine.execModuleJoin m s
  | .moduleLost m => Sys2Proof.Machine.execModuleLost m s
  | .leadLost => Sys2Proof.Machine.execLeadLost s
  | .leadReformTimeout => Sys2Proof.Machine.execLeadReformTimeout s
  | .readSensors ifc item => Sys2Proof.Machine.execReadSensors ifc item s
  | .setPowerCap ifc w => Sys2Proof.Machine.execSetPowerCap ifc w s
  | .setTorusPosition ifc x y z depth => Sys2Proof.Machine.execSetTorusPosition ifc x y z depth s
  | .firmwareUpdate ifc u => Sys2Proof.Machine.execFirmwareUpdate ifc u s
  | .attestation ifc req => Sys2Proof.Machine.execAttestation ifc req s
  | .readFieldLog ifc area idx => Sys2Proof.Machine.execReadFieldLog ifc area idx s
  | .ship ifc sig => Sys2Proof.Machine.execShip ifc sig s
  | .returnCmd ifc sig => Sys2Proof.Machine.execReturnCmd ifc sig s
  | .scrap ifc byOwner sig => Sys2Proof.Machine.execScrap ifc byOwner sig s
  | .ownerClaim ifc key => Sys2Proof.Machine.execOwnerClaim ifc key s
  | .ownerKeyReplace ifc key sig => Sys2Proof.Machine.execOwnerKeyReplace ifc key sig s
  | .commitSvn ifc culture sig => Sys2Proof.Machine.execCommitSvn ifc culture sig s
  | .keyRevocation ifc signer slot sig => Sys2Proof.Machine.execKeyRevocation ifc signer slot sig s
  | .regrade ifc t ps g sig => Sys2Proof.Machine.execRegrade ifc t ps g sig s
  | .getNonce ifc => Sys2Proof.Machine.execGetNonce ifc s
  | .tokenInstall ifc body sig => Sys2Proof.Machine.execTokenInstall ifc body sig s
  | .revokeToken ifc => Sys2Proof.Machine.execRevokeToken ifc s
  | .tokenLapse => Sys2Proof.Machine.execTokenLapse s
  | .congestionRecord => Sys2Proof.Machine.execCongestionRecord s
  | .thermalSample temps => Sys2Proof.Machine.execThermalSample temps s
  | .lifeCounterSave => Sys2Proof.Machine.execLifeCounterSave s
  | .thermalForecast inlet outlet flow => Sys2Proof.Machine.execThermalForecast inlet outlet flow s
  | .dieTempThrottle t maxTemp => Sys2Proof.Machine.execDieTempThrottle t maxTemp s
  | .sensorDisagreement flow => Sys2Proof.Machine.execSensorDisagreement flow s
  | .comparatorTrip junction outlet flow => Sys2Proof.Machine.execComparatorTrip junction outlet flow s
  | .comparatorRestart outlet flowOk10s => Sys2Proof.Machine.execComparatorRestart outlet flowOk10s s
  | .buttonRelease heldMs => Sys2Proof.Machine.execButtonRelease heldMs s
  | .inputReturn => Sys2Proof.Machine.execInputReturn s
  | .hostLinkUp => Sys2Proof.Machine.execHostLinkUp s
  | .hostReadTimeout pid => Sys2Proof.Machine.execHostReadTimeout pid s
  | .pfFlr pf1 => Sys2Proof.Machine.execPfFlr pf1 s
  | .presenceWindowExpiry => Sys2Proof.Machine.execPresenceWindowExpiry s
  | .dynTmoWrite t v => Sys2Proof.Machine.execDynTmoWrite t v s
  | .chNodeWrite t node v => Sys2Proof.Machine.execChNodeWrite t node v s

end Sys2Proof.Machine
end

