-- ==== Sys2Proof/Machine/Idle.lean ====
section
/-! DEFINITION. What passes when no command waits: one period of CK_T (log 7). -/

namespace Sys2Proof.Machine

/-- One CK_T period: `age` advances; once CK_T counts, it advances by one, plus the whole part of the accumulated
fractional correction of TM_SERVO RATE, in ppb (R391, R392). -/
def tick (s : State) : State :=
  let s := { s with age := s.age + 1 }
  if s.clk.started then
    let a := s.clk.rateAcc + toSigned 32 (s.rd Reg.TM_SERVO_RATE 0)
    let whole : Int := a / 1000000000
    { s with now := ((s.now : Int) + 1 + whole).toNat % 2 ^ 64, clk := { s.clk with rateAcc := a % 1000000000 } }
  else s

end Sys2Proof.Machine
end

