-- ==== Sys2Proof/Safety.lean ====
section
/-! DEFINITION. What the statements call a safe state, and the words they share: when an S-core carries out its instruction. -/

namespace Sys2Proof

open Sys2Proof.Machine

/-- Memory is in canonical form, so that equal memories are equal data. -/
structure Safe (s : State) : Prop where
  mem : Memory.wf s.mem

/-- The S-core of cluster `ck` can execute, and the word at its program counter lies where it may be fetched and is read without an
uncorrectable error (R123, R130, R166). -/
def Fetches (s : State) (ck : Nat) : Prop :=
  s.sReady ck = true ∧ (s.sc ck).pc.toNat < 0x200000 ∧ ((s.sc ck).priv = true ∨ (s.sc ck).pc.toNat < pail63At 4) ∧
    (s.readScr (coreOf ck 4) (s.sc ck).pc.toNat 8 2).2 = true

/-- The state after that fetch: single-bit errors it met are counted and queued for write-back (R153), nothing else. -/
def fetched (s : State) (ck : Nat) : State := (s.readScr (coreOf ck 4) (s.sc ck).pc.toNat 8 2).1

end Sys2Proof
end

