-- ==== Sys2Proof/Certificates/Slice0/Obligations.lean ====
section
/-! DEFINITION. The statements for the provers, by chapter of the spec. A conclusion `exec c s = .next t` with t written out says that
the command completes and gives its whole effect: what t does not change is unchanged. -/

open Sys2Proof Sys2Proof.Machine

/-- A step takes the command at the front of the queue and runs it with the queue's rest (the model's own form of a step). -/
def Obligations.StepRunsFront : Prop :=
  ∀ (c : Instr) (s : State), step { s with pending := c :: s.pending } = exec c s

/-- On an empty queue time passes: DESIGN CHOICE, log 7. -/
def Obligations.EmptyQueueTicks : Prop :=
  ∀ s : State, s.pending = [] →
    ∃ n a, step s = .next { s with age := s.age + 1, now := n, clk := { s.clk with rateAcc := a } } ∧
      (s.clk.started = false → n = s.now ∧ a = s.clk.rateAcc) ∧
      (s.clk.started = true → s.rd Reg.TM_SERVO_RATE 0 = 0 → s.clk.rateAcc = 0 → n = (s.now + 1) % 2 ^ 64 ∧ a = 0)

/-- Every step answers a next state; what the spec calls a fault is an event with effects on the state. -/
def Obligations.NoStepStops : Prop := ∀ s : State, ∃ t, step s = .next t

/-- The integer results of Table 5.3 and R125, with their whole next state; a write of x0 changes no register. -/
def Obligations.IntegerRegister : Prop :=
  ∀ (c : Clu) (f : FmtR) (s : State), Fetches s (cluKey c) → f.rs3 = 0 → f.rm = 0 → f.rsv = 0 →
    let x := (s.sc (cluKey c)).getX f.rs1.toNat
    let y := (s.sc (cluKey c)).getX f.rs2.toNat
    let put (v : Word) : Host.Outcome State Fault Refusal :=
      .next ((fetched s (cluKey c)).retire (cluKey c) ((s.sc (cluKey c)).setX f.rd.toNat v))
    exec (.add c f) s = put (x + y) ∧ exec (.sub c f) s = put (x - y) ∧
    exec (.andR c f) s = put (x &&& y) ∧ exec (.orR c f) s = put (x ||| y) ∧ exec (.xorR c f) s = put (x ^^^ y) ∧
    exec (.shl c f) s = put (BitVec.ofNat 64 (x.toNat * 2 ^ (y.toNat % 64))) ∧
    exec (.shr c f) s = put (BitVec.ofNat 64 (x.toNat / 2 ^ (y.toNat % 64))) ∧
    exec (.sra c f) s = put (BitVec.ofInt 64 (x.toInt / 2 ^ (y.toNat % 64))) ∧
    exec (.slt c f) s = put (if x.toInt < y.toInt then 1 else 0) ∧
    exec (.sltu c f) s = put (if x.toNat < y.toNat then 1 else 0) ∧
    exec (.mul c f) s = put (BitVec.ofNat 64 (x.toNat * y.toNat)) ∧
    exec (.mulh c f) s = put (BitVec.ofInt 64 (x.toInt * y.toInt / 2 ^ 64)) ∧
    exec (.mulhu c f) s = put (BitVec.ofNat 64 (x.toNat * y.toNat / 2 ^ 64)) ∧
    exec (.div c f) s = put (if y = 0 then BitVec.allOnes 64 else BitVec.ofInt 64 (Int.tdiv x.toInt y.toInt)) ∧
    exec (.divu c f) s = put (if y = 0 then BitVec.allOnes 64 else BitVec.ofNat 64 (x.toNat / y.toNat)) ∧
    exec (.rem c f) s = put (if y = 0 then x else BitVec.ofInt 64 (Int.tmod x.toInt y.toInt)) ∧
    exec (.remu c f) s = put (if y = 0 then x else BitVec.ofNat 64 (x.toNat % y.toNat))

/-- The immediate forms of Table 5.3. -/
def Obligations.IntegerImmediate : Prop :=
  ∀ (c : Clu) (f : FmtI) (s : State), Fetches s (cluKey c) →
    let x := (s.sc (cluKey c)).getX f.rs1.toNat
    let i := BitVec.ofInt 64 f.imm.toInt
    let put (v : Word) : Host.Outcome State Fault Refusal :=
      .next ((fetched s (cluKey c)).retire (cluKey c) ((s.sc (cluKey c)).setX f.rd.toNat v))
    exec (.addi c f) s = put (x + i) ∧ exec (.andi c f) s = put (x &&& i) ∧ exec (.ori c f) s = put (x ||| i) ∧
    exec (.xori c f) s = put (x ^^^ i) ∧
    exec (.shli c f) s = put (BitVec.ofNat 64 (x.toNat * 2 ^ (f.imm.toNat % 64))) ∧
    exec (.shri c f) s = put (BitVec.ofNat 64 (x.toNat / 2 ^ (f.imm.toNat % 64))) ∧
    exec (.srai c f) s = put (BitVec.ofInt 64 (x.toInt / 2 ^ (f.imm.toNat % 64))) ∧
    (f.rs1 = 0 → exec (.li c f) s = put i) ∧
    (f.imm.toNat < 2 ^ 22 → exec (.lih c f) s = put (BitVec.ofNat 64 (x.toNat % 2 ^ 42 + f.imm.toNat * 2 ^ 42)))

/-- The floating-point arithmetic of Table 5.3 and R126: operands are decoded exactly, and `fpResult` rounds once. -/
def Obligations.FloatArithmetic : Prop :=
  ∀ (c : Clu) (f : FmtR) (s : State) (p : FpF) (single : Bool), p = (if single then fp32 else fp64) →
    Fetches s (cluKey c) → f.rsv = 0 → isF f.rd = true → isF f.rs1 = true →
    let sc := s.sc (cluKey c)
    let x := sc.fpVal p f.rs1.toNat
    let y := sc.fpVal p f.rs2.toNat
    let z := sc.fpVal p f.rs3.toNat
    let rm := f.rm.toNat
    let put (v : Machine.Num) : Host.Outcome State Fault Refusal :=
      .next ((fetched s (cluKey c)).retire (cluKey c) (sc.setF f.rd.toNat (fpResult p rm v)))
    (rm < 4 → f.rs3 = 0 → isF f.rs2 = true →
      exec (if single then .faddS c f else .faddD c f) s = put (Machine.Num.add rm x y) ∧
      exec (if single then .fsubS c f else .fsubD c f) s = put (Machine.Num.add rm x y.neg) ∧
      exec (if single then .fmulS c f else .fmulD c f) s = put (Machine.Num.mul x y) ∧
      exec (if single then .fdivS c f else .fdivD c f) s = put (Machine.Num.div x y)) ∧
    (rm < 4 → isF f.rs2 = true → isF f.rs3 = true →
      exec (if single then .fmaS c f else .fmaD c f) s = put (Machine.Num.add rm (Machine.Num.mul x y) z)) ∧
    (rm < 4 → f.rs2 = 0 → f.rs3 = 0 → exec (if single then .fsqrtS c f else .fsqrtD c f) s = put x.sqrt) ∧
    (rm = 0 → f.rs3 = 0 → isF f.rs2 = true →
      exec (if single then .fminS c f else .fminD c f) s = put (if x.isNan then y else if y.isNan then x else Machine.Num.min x y) ∧
      exec (if single then .fmaxS c f else .fmaxD c f) s = put (if x.isNan then y else if y.isNan then x else Machine.Num.max x y))

/-- Compares, conversions and moves of Table 5.3. -/
def Obligations.FloatCompareConvert : Prop :=
  ∀ (c : Clu) (f : FmtR) (s : State), Fetches s (cluKey c) → f.rsv = 0 → f.rs3 = 0 →
    let sc := s.sc (cluKey c)
    let t := fetched s (cluKey c)
    let a (p : FpF) : Machine.Num := sc.fpVal p f.rs1.toNat
    let b (p : FpF) : Machine.Num := sc.fpVal p f.rs2.toNat
    let putX (v : Word) : Host.Outcome State Fault Refusal := .next (t.retire (cluKey c) (sc.setX f.rd.toNat v))
    let putF (v : Word) : Host.Outcome State Fault Refusal := .next (t.retire (cluKey c) (sc.setF f.rd.toNat v))
    let eq (p : FpF) : Word := if (a p).isNan = false ∧ (b p).isNan = false ∧ Machine.Num.cmp (a p) (b p) = 0 then 1 else 0
    let lt (p : FpF) : Word := if (a p).isNan = false ∧ (b p).isNan = false ∧ Machine.Num.cmp (a p) (b p) < 0 then 1 else 0
    (isF f.rs1 = true → isF f.rs2 = true → f.rm = 0 →
      exec (.feqS c f) s = putX (eq fp32) ∧ exec (.fltS c f) s = putX (lt fp32) ∧
      exec (.feqD c f) s = putX (eq fp64) ∧ exec (.fltD c f) s = putX (lt fp64)) ∧
    (f.rs2 = 0 → f.rm.toNat < 4 → isF f.rd = true → isF f.rs1 = true →
      exec (.fcvtSD c f) s = putF (fpResult fp32 f.rm.toNat (a fp64)) ∧
      exec (.fcvtDS c f) s = putF (fpResult fp64 f.rm.toNat (a fp32))) ∧
    (f.rs2 = 0 → f.rm.toNat < 4 → isF f.rd = true →
      exec (.fcvtSX c f) s = putF (fpResult fp32 f.rm.toNat (Machine.Num.ofInt (sc.getX f.rs1.toNat).toInt)) ∧
      exec (.fcvtDX c f) s = putF (fpResult fp64 f.rm.toNat (Machine.Num.ofInt (sc.getX f.rs1.toNat).toInt))) ∧
    (f.rs2 = 0 → f.rm.toNat < 4 → isF f.rs1 = true →
      exec (.fcvtXS c f) s = putX (w64 (intRound 64 f.rm.toNat 0 (a fp32)).1) ∧
      exec (.fcvtXD c f) s = putX (w64 (intRound 64 f.rm.toNat 0 (a fp64)).1)) ∧
    (f.rs2 = 0 → f.rm = 0 → isF f.rs1 = true → exec (.fmvXF c f) s = putX (sc.getF f.rs1.toNat)) ∧
    (f.rs2 = 0 → f.rm = 0 → isF f.rd = true → exec (.fmvFX c f) s = putF (sc.getX f.rs1.toNat))

/-- The rows of Table 5.3 that act on registers other than x and f. -/
def Obligations.CommandAndSpecialRegisters : Prop :=
  ∀ (c : Clu) (r : FmtR) (i : FmtI) (s : State), Fetches s (cluKey c) →
    let k := cluKey c
    let sc := s.sc k
    let t := fetched s k
    let n := i.imm.toNat
    let v := sc.getX r.rs1.toNat
    (r = ⟨0, 0, 0, 0, 0, 0⟩ → exec (.nop c r) s = .next (t.retire k sc)) ∧
    (r.rd = 0 → r.rs2 = 0 → r.rs3 = 0 → r.rm = 0 → r.rsv = 0 →
      exec (.cmdTag c r) s = .next (t.retire k { sc with cmdtag := BitVec.ofNat 64 (v.toNat % 2 ^ 32) }) ∧
      exec (.cmdWait c r) s = .next (t.retire k { sc with
        cmdwait := BitVec.ofNat 64 (v.toNat % 2 ^ 5 + v.toNat / 2 ^ 32 * 2 ^ 32) }) ∧
      exec (.cmdSig c r) s = .next (t.retire k { sc with cmdsig := BitVec.ofNat 64 (v.toNat % 2 ^ 5) })) ∧
    (n < 16 →
      (i.rs1 = 0 → exec (.ctrRd c i) s = .next (t.retire k (sc.setX i.rd.toNat (w64 (t.rd Reg.CTR_VALUE k n))))) ∧
      (i.rd = 0 →
        exec (.ctrWr c i) s = .next ((t.wr Reg.CTR_VALUE k (sc.getX i.rs1.toNat).toNat n).retire k sc) ∧
        exec (.ctrAdd c i) s =
          .next ((t.wr Reg.CTR_VALUE k (t.rd Reg.CTR_VALUE k n + (sc.getX i.rs1.toNat).toNat) n).retire k sc))) ∧
    ((n ∈ [1, 2, 3, 4, 5, 6] ∨ (n ∈ [0x11, 0x12, 0x13, 0x14, 0x15] ∧ sc.priv = true)) →
      (i.rs1 = 0 → ∃ w, sc.xreg n = some w ∧ exec (.xrd c i) s = .next (t.retire k (sc.setX i.rd.toNat w))) ∧
      (i.rd = 0 → exec (.xwr c i) s = .next (t.retire k (sc.setXreg n (sc.getX i.rs1.toNat)))))

/-- Table 5.4 with the whole next state. -/
def Obligations.BranchesAndJumps : Prop :=
  ∀ (c : Clu) (f : FmtB) (s : State), Fetches s (cluKey c) → f.rsv = 0 →
    let k := cluKey c
    let sc := s.sc k
    let t := fetched s k
    let x := sc.getX f.rs1.toNat
    let y := sc.getX f.rs2.toNat
    let far := BitVec.ofInt 64 (f.off.toInt * 8)
    let go (b : Bool) : Host.Outcome State Fault Refusal :=
      .next (t.setSc k { sc with pc := if b then sc.pc + far else sc.pc + 8, fullStall := false })
    (f.rd = 0 →
      exec (.beq c f) s = go (decide (x = y)) ∧ exec (.bne c f) s = go (decide (x ≠ y)) ∧
      exec (.blt c f) s = go (decide (x.toInt < y.toInt)) ∧ exec (.bge c f) s = go (decide (y.toInt ≤ x.toInt)) ∧
      exec (.bltu c f) s = go (decide (x.toNat < y.toNat)) ∧ exec (.bgeu c f) s = go (decide (y.toNat ≤ x.toNat))) ∧
    (f.rs1 = 0 → f.rs2 = 0 → exec (.jal c f) s =
      .next (t.setSc k { sc.setX f.rd.toNat (sc.pc + 8) with pc := sc.pc + far, fullStall := false })) ∧
    (f.rs2 = 0 → (x + BitVec.ofInt 64 f.off.toInt).toNat % 8 = 0 → exec (.jalr c f) s =
      .next (t.setSc k { sc.setX f.rd.toNat (sc.pc + 8) with pc := x + BitVec.ofInt 64 f.off.toInt, fullStall := false })) ∧
    (f.rs2 = 0 → f.rd = 0 → f.off.toNat < 16 →
      let a := t.rd Reg.CTR_VALUE k f.off.toNat
      exec (.waitc c f) s =
        .next (if (a + 2 ^ 32 - x.toNat % 2 ^ 32) % 2 ^ 32 < 2 ^ 31 then t.retire k sc
          else t.setSc k { sc with wait := some (.ctr f.off.toNat (x.toNat % 2 ^ 32)) })) ∧
    (f = ⟨0, 0, 0, 0, 0⟩ →
      (sc.inSH = true → exec (.retx c f) s =
        .next (t.setSc k { sc with pc := sc.sepc, priv := sc.prevPriv, inSH := false })) ∧
      (sc.inSH = false → sc.inVH = true → exec (.retx c f) s = .next (t.setSc k { sc with pc := sc.vepc, inVH := false })))

/-- x0. -/
def Obligations.RegisterZero : Prop :=
  ∀ (sc : SCore) (r q : Nat) (v : Word), sc.getX 0 = 0 ∧ sc.setX 0 v = sc ∧
    (r ≠ 0 → (sc.setX r v).getX r = v) ∧ (q ≠ r → (sc.setX r v).getX q = sc.getX q)

/-- Class S-MEM with SPACE = 0 (R128, R129): the address is RS1 + IMM. -/
def Obligations.LocalMemory : Prop :=
  ∀ (c : Clu) (f : FmtM) (s : State), Fetches s (cluKey c) → f.rsv = 0 → f.space = false →
    let k := cluKey c
    let core := coreOf k 4
    let sc := s.sc k
    let t := fetched s k
    let ea := (sc.getX f.rs1.toNat + BitVec.ofInt 64 f.imm.toInt).toNat
    let rd := f.rd.toNat
    let fit (n : Nat) : Prop := ea % n = 0 ∧ ea < 0x200000 ∧ (sc.priv = true ∨ ea < pail63At 4)
    let val (n : Nat) : Nat := t.ld (scrKey core ea) n
    let readOk (n : Nat) : Prop := (t.readScr core ea n 2).2 = true
    let load (n : Nat) (r : SCore) : Host.Outcome State Fault Refusal := .next ((t.readScr core ea n 2).1.retire k r)
    let store (n : Nat) (w : Word) : Host.Outcome State Fault Refusal :=
      .next ((t.writeScr core ea (toBytes (leBytes n w.toNat))).retire k sc)
    let amo (v : Nat) : Host.Outcome State Fault Refusal :=
      .next (((t.readScr core ea 8 2).1.writeScr core ea (toBytes (leBytes 8 v))).retire k (sc.setX rd (w64 (val 8))))
    (fit 1 → readOk 1 →
      exec (.lb c f) s = load 1 (sc.setX rd (BitVec.ofInt 64 (toSigned 8 (val 1)))) ∧
      exec (.lbu c f) s = load 1 (sc.setX rd (w64 (val 1)))) ∧
    (fit 2 → readOk 2 →
      exec (.lh c f) s = load 2 (sc.setX rd (BitVec.ofInt 64 (toSigned 16 (val 2)))) ∧
      exec (.lhu c f) s = load 2 (sc.setX rd (w64 (val 2)))) ∧
    (fit 4 → readOk 4 →
      exec (.lw c f) s = load 4 (sc.setX rd (BitVec.ofInt 64 (toSigned 32 (val 4)))) ∧
      exec (.lwu c f) s = load 4 (sc.setX rd (w64 (val 4))) ∧
      (rd < 16 → exec (.flw c f) s = load 4 (sc.setF rd (w64 (val 4))))) ∧
    (fit 8 → readOk 8 →
      exec (.ld c f) s = load 8 (sc.setX rd (w64 (val 8))) ∧
      (rd < 16 → exec (.fld c f) s = load 8 (sc.setF rd (w64 (val 8)))) ∧
      exec (.amoaddD c f) s = amo ((val 8 + (sc.getX rd).toNat) % 2 ^ 64) ∧ exec (.amoswapD c f) s = amo (sc.getX rd).toNat) ∧
    (fit 1 → exec (.sb c f) s = store 1 (sc.getX rd)) ∧ (fit 2 → exec (.sh c f) s = store 2 (sc.getX rd)) ∧
    (fit 4 → exec (.sw c f) s = store 4 (sc.getX rd) ∧ (rd < 16 → exec (.fsw c f) s = store 4 (sc.getF rd))) ∧
    (fit 8 → exec (.sd c f) s = store 8 (sc.getX rd) ∧ (rd < 16 → exec (.fsd c f) s = store 8 (sc.getF rd)))

/-- Where LD and SD trap (R128, R130): outside a service handler the trap only writes the S-core. -/
def Obligations.MemoryTraps : Prop :=
  ∀ (c : Clu) (f : FmtM) (s : State), Fetches s (cluKey c) → f.rsv = 0 →
    let k := cluKey c
    let sc := s.sc k
    let t := fetched s k
    let ea := sc.getX f.rs1.toNat + BitVec.ofInt 64 f.imm.toInt
    (ea.toNat % 8 ≠ 0 → exec (.ld c f) s = .next (t.trap k cAlign ea) ∧ exec (.sd c f) s = .next (t.trap k cAlign ea)) ∧
    (ea.toNat % 8 = 0 → f.space = false → (0x200000 ≤ ea.toNat ∨ (sc.priv = false ∧ pail63At 4 ≤ ea.toNat)) →
      exec (.ld c f) s = .next (t.trap k cBounds ea) ∧ exec (.sd c f) s = .next (t.trap k cBounds ea)) ∧
    (sc.inSH = false → (t.trap k cAlign ea).mem = s.mem ∧ (t.trap k cBounds ea).mem = s.mem)

/-- Remote accesses to T1 (R111, R251): one packet each; a store does not block, a load does. -/
def Obligations.RemoteMemory : Prop :=
  ∀ (c : Clu) (f : FmtM) (s : State), Fetches s (cluKey c) → f.rsv = 0 → f.space = true →
    let k := cluKey c
    let sc := s.sc k
    let t := fetched s k
    let ea := sc.getX f.rs1.toNat + BitVec.ofInt 64 f.imm.toInt
    let vat := if sc.priv then 0 else t.vatIdOf k
    ∀ (m off : Nat) (st : Bool), m < 64 → ea.toNat % 8 = 0 → t.resolve (t.vatIdOf k) sc.priv ea.toNat 8 st = some (m, .t1 off) →
      t.injHeld (ckTile k) (if sc.priv then 3 else 0) vat = false → (t.destOf (ea.toNat % 2 ^ 62 + 2 ^ 63)).2 < 64 →
      let stream := streamOf m (.t1 off) (t.destOf (ea.toNat % 2 ^ 62 + 2 ^ 63)).2 sc.priv
      let seq := mget 0 sc.seqs stream
      let a : RemAcc := { op := if st then opStore else opLoad, redop := 0, data := sc.getX f.rd.toNat, dst := stream, seq := seq, addr := ea,
                          isLoad := !st, rd := f.rd.toNat, size := 8, signed := !st, fp := false, priv := sc.priv, since := some t.now }
      t.mayEnter k (t.smemPkt k a) = true →
      let r := { sc with seqs := mset 0 sc.seqs stream ((seq + 1) % 2 ^ 16), accs := sc.accs ++ [a] }
      let u := t.injectFrom k (t.smemPkt k a)
      (st = true → exec (.sd c f) s = .next (u.retire k r)) ∧
      (st = false → exec (.ld c f) s = .next (u.setSc k { r with wait := some .load }))

/-- Class P (R136, R137, R159, R160) and the engine and scrubber events (R153, R156). -/
def Obligations.PailsAndEngine : Prop :=
  (∀ (c : Clu) (f : FmtP) (s : State), Fetches s (cluKey c) → f.slot.toNat ≤ 4 → f.rsv = 0 →
    let k := cluKey c
    let core := coreOf k f.slot.toNat
    let sc := s.sc k
    let t := fetched s k
    let n := f.pail.toNat
    let x := (sc.getX f.rs1.toNat).toNat
    let y := (sc.getX f.rs2.toNat).toNat
    (n ≠ 0 → n ≠ 63 → f.rs3 = 0 → f.sigCtr = 0 → f.sigEn = false → t.pailStalls core n = false →
      (x % 2 = 1 → pailRangeBad core sc.priv (t.pail core n) (pailOf x y) = false → pailFormatWrong x (pailOf x y) = false →
        exec (.pSet c f) s = .next ((t.setPail core n x y).retire k sc)) ∧
      (f.rs1 = 0 → f.rs2 = 0 → (sc.priv = true ∨ (t.pail core n).svc = false) →
        exec (.pFree c f) s = .next ((t.wr Reg.PAIL_W0_VALID core 0 n).retire k sc))) ∧
    ((sc.priv = true ∨ (n ≠ 0 ∧ n ≠ 63)) → (t.mse core).length < 2 →
      (mseRangeCause t core sc.priv [(n, x, true)] y = 0 →
        exec (.pFill c f) s = .next ((t.setMse core (t.mse core ++ [⟨false, n, n, 0, (t.pail core n).base + x, x, y,
          sc.getX f.rs3.toNat, f.sigCtr.toNat, f.sigEn, sc.priv⟩])).retire k sc)) ∧
      (f.rs3 = 0 → x < 2 ^ 54 → (sc.priv = true ∨ (x / 2 ^ 24 % 64 ≠ 0 ∧ x / 2 ^ 24 % 64 ≠ 63)) →
        mseRangeCause t core sc.priv [(n, x % 2 ^ 24, true), (x / 2 ^ 24 % 64, x / 2 ^ 30, false)] y = 0 →
        let src := (t.pail core (x / 2 ^ 24 % 64)).base + x / 2 ^ 30
        let dst := (t.pail core n).base + x % 2 ^ 24
        (src + y ≤ dst ∨ dst + y ≤ src) →
        exec (.pCopy c f) s = .next ((t.setMse core (t.mse core ++ [⟨true, x / 2 ^ 24 % 64, n, src, dst, x % 2 ^ 24, y, 0,
          f.sigCtr.toNat, f.sigEn, sc.priv⟩])).retire k sc)))) ∧
  (∀ (c : Core) (s : State), s.dieOn c.tile.val c.site.val = true →
    let core := coreKey c
    (∀ o rest, s.mse core = o :: rest → o.copy = false →
      let t := ((s.setMse core rest).writeFull core o.dst ((List.replicate (o.len / 8) (toBytes (leBytes 8 o.pat.toNat))).flatten)).wr
        Reg.MSE_STATUS_STOPPED_ECC core 0
      exec (.mseCompletion c) s = .next (if o.sigEn then t.signal (cluKey ⟨c.tile, c.site, c.cl⟩) o.sigCtr else t)) ∧
    (s.rd Reg.SCR_CTL_SCRUB_EN core = 1 → ∃ t, exec (.patrolScrub c) s = .next t ∧ t.mem = s.mem ∧
      (s.marks core 0 (scrSize (slotOf core)) 1 = [] → s.marks core 0 (scrSize (slotOf core)) 2 = [] →
        t = (s.bump Reg.SCR_ECC_CORRECTED core 0).bump Reg.SCR_STATS_SCRUB_PASSES core)) ∧
    (∀ w : BitVec 21, s.cmp.wback.contains (scrKey core 0 / 8 + w.toNat) = true → ∃ t, exec (.correctedWriteBack c w) s = .next t ∧
      t.eccAt (scrKey core 0 / 8 + w.toNat) = 0 ∧ t.mem = s.mem))

/-- Class F (R139, R140, R248, R252). -/
def Obligations.FabricOperations : Prop :=
  (∀ (c : Clu) (f : FmtF) (s : State) (kind : FKind) (opid : Nat), Fetches s (cluKey c) → f.rsv = 0 → f.route.toNat < 2 →
    (f.route = 0 → f.rr = 0) →
    let k := cluKey c
    let sc := s.sc k
    let t := fetched s k
    let remote := sc.getX f.rs1.toNat
    let loc := sc.getX f.rs2.toNat
    let len := (sc.getX f.rs3.toNat).toNat % 2 ^ 32
    let hi := (sc.getX f.rs3.toNat).toNat / 2 ^ 32
    let rr := (sc.getX f.rr.toNat).toNat
    let vat := if sc.priv then (if kind = .churn then hi / 2 ^ 23 % 256 else 0) else t.vatIdOf k
    let d := t.destOf (remote.toNat % 2 ^ 63)
    ((List.range 16).find? fun i => (t.fops k).all fun o => o.opid != i) = some opid →
    remote.toNat % 8 = 0 → loc.toNat % 8 = 0 → t.fopAddrOk k kind sc.priv remote.toNat loc.toNat len = true →
    (if kind = .churn then t.churnOk k sc.priv hi = true else hi = 0) →
    (f.route = 1 → t.routeOk (ckTile k) rr d.1 d.2 = true) →
    let total := if kind = .churn then (if t.chMode (ckTile k) vat = 2 then 1 else (len + 8159) / 8160) else (len + 8191) / 8192
    let o : FOp := ⟨opid, sc.nextF, kind, remote, loc, len, hi, if f.route = 1 then some rr else none, f.sigCtr.toNat, f.sigEn, vat,
      sc.priv, 0, total, [], [], 0,
      if t.injHeld (ckTile k) (if kind = .churn then 2 else if sc.priv then 3 else 0) vat then none else some t.now, [], none⟩
    exec (match kind with | .put => .fPut c f | .get => .fGet c f | .churn => .fChurn c f) s =
      .next (((((t.setFops k (t.fops k ++ [o])).wr Reg.DI_STATUS_OUTSTANDING k (t.rd Reg.DI_STATUS_OUTSTANDING k + 2 ^ opid)).retire k
        { sc with nextF := sc.nextF + 1 }).pump k))) ∧
  (∀ (c : Clu) (s : State), Fetches s (cluKey c) → (fetched s (cluKey c)).fops (cluKey c) = [] →
    exec (.fWait c ⟨0, 0, 0, 0, 0, false, 0, 0⟩) s = .next ((fetched s (cluKey c)).retire (cluKey c) (s.sc (cluKey c)))) ∧
  (∀ (c : Clu) (s : State), Fetches s (cluKey c) → (s.sc (cluKey c)).accs = [] →
    exec (.mfence c ⟨0, 0, false, 0, 0⟩) s = .next ((fetched s (cluKey c)).retire (cluKey c) (s.sc (cluKey c)))) ∧
  (∀ (c : Clu) (id : BitVec 4) (s : State) (o : FOp), ((s.fops (cluKey c)).find? fun o => o.opid == id.toNat) = some o →
    (o.sent = o.total → o.acked.length = o.total →
      let t := s.dropFop (cluKey c) id.toNat
      exec (.fOperationComplete c id) s = .next (if o.sigEn then t.signal (cluKey c) o.sigCtr else t)) ∧
    (∀ u, o.since = some u → s.rd Reg.DYN_TMO_OP_TIMEOUT c.tile.val * 900 ≤ o.ran + (s.now - u) →
      ∃ seq, exec (.opTimeout c (.fop id)) s = .next ((s.bump Reg.DI_STATS_TIMEOUTS (cluKey c)).failFop (cluKey c) o cEcc seq).pumpAll))

/-- F.IPAUSE to F.SARM and the events of R223 and R268. -/
def Obligations.ServiceFabric : Prop :=
  (∀ (c : Clu) (f : FmtF) (s : State), Fetches s (cluKey c) → (s.sc (cluKey c)).priv = true → f.rsv = 0 → f.route = 0 → f.rr = 0 →
    f.rs3 = 0 →
    let k := cluKey c
    let sc := s.sc k
    let t := fetched s k
    let x := sc.getX f.rs1.toNat
    (f.rs2 = 0 → f.sigCtr = 0 → f.sigEn = false →
      (∃ u, exec (.fIpause c f) s = .next u ∧ u.mem = s.mem ∧ u.fab.pauseAt = s.now ∧
        ∀ i < 36, u.rd Reg.DYN_CTL_INJ_PAUSE i = (t.rd Reg.DYN_CTL_INJ_PAUSE 0 ||| x.toNat % 16) % 16) ∧
      (exec (.fIresume c f) s = .next (((((t.wrDyn Reg.DYN_CTL_INJ_PAUSE (t.rd Reg.DYN_CTL_INJ_PAUSE 0 -
        (t.rd Reg.DYN_CTL_INJ_PAUSE 0 &&& x.toNat % 16))).retime).retire k sc).pumpAll))) ∧
      (f.rs1 = 0 → exec (.fEpoch c f) s = .next ((if t.fab.epochBusy
        then { t with fab := { t.fab with epochQueue := t.fab.epochQueue ++ [k] } }
        else ({ t with fab := { t.fab with epochBusy := true } }).wrDyn Reg.DYN_CTL_COMMIT_BUSY 1).retire k sc))) ∧
    (f.rs2 = 0 → (t.sload k x.toNat).2 = 0 →
      let u := (t.sload k x.toNat).1.retire k sc
      exec (.fSload c f) s = .next (if f.sigEn then u.signal k f.sigCtr.toNat else u)) ∧
    (f.sigCtr = 0 → f.sigEn = false → exec (.fSarm c f) s = .next ((t.setImages (t.sch.images.map fun i =>
      if i.vat = (sc.getX f.rs2.toNat).toNat % 256 ∧ i.st = .staged then { i with armAt := some (max x.toNat (t.frameNo + 2)) }
      else i)).retire k sc))) ∧
  (∀ s : State, s.fab.epochBusy = true →
    (s.pausedPkts = [] → exec .epochCommit s = .next s.commitTables) ∧
    (s.pausedPkts ≠ [] → s.fab.pauseAt + 45000 ≤ s.now → exec .epochDrainTimeout s =
      .next ((s.each s.pausedPkts fun s p => (s.bump Reg.DYN_DROP0_DRAIN_DROP p.at_).nackDrop p cEpoch).commitTables))) ∧
  (∀ s : State, s.clk.started = true → s.slotIx = 0 → ∀ i, s.sch.images = [i] → i.st = .staged → i.armAt = some s.frameNo →
    ∃ t, exec .scheduleArm s = .next t ∧ t.sch.images = [{ i with st := .armed, armAt := none }])

/-- Classes Y and E (R278 to R280, R360, R361). -/
def Obligations.FlagsAndSteps : Prop :=
  (∀ (c : Clu) (f : FmtI) (s : State) (v : Nat), Fetches s (cluKey c) →
    let k := cluKey c
    let sc := s.sc k
    let t := fetched s k
    let x := sc.getX f.rs1.toNat
    t.vatAtLevel k (f.imm.toNat / 2 ^ 40) = some v →
    let n := f.imm.toNat % 2 ^ 40
    let wait (u : State) (w : SWait) : Host.Outcome State Fault Refusal :=
      .next (u.setSc k { sc with wait := some w, deadline := if n = 0 then none else some (u.now + n) })
    (f.rd = 0 → sc.accs = [] →
      exec (.ySet c f) s = .next ((t.setFlags k v x true).retire k sc) ∧
      exec (.yClr c f) s = .next ((t.setFlags k v x false).retire k sc)) ∧
    (f.rs1 = 0 → n < 2 →
      exec (.yRd c f) s = .next (t.retire k (sc.setX f.rd.toNat (if n = 1 then t.andFlags v else t.orFlags v)))) ∧
    (f.rd = 0 →
      exec (.yWaitor c f) s = (if t.orFlags v &&& x ≠ 0 then .next (t.retire k sc) else wait t (.orFlags v x)) ∧
      exec (.yWaitand c f) s = (if t.andFlags v &&& x = x then .next (t.retire k sc) else wait t (.andFlags v x))) ∧
    (f.rd = 0 → f.rs1 = 0 → (t.arrive k v false).2 = mget 0 (t.arrive k v false).1.ren.bars v →
      exec (.yBar c f) s = wait (t.arrive k v false).1 (.barrier v (t.arrive k v false).2)) ∧
    (f.rs1 = 0 → t.rd Reg.LG_VAT_CLAIM 0 v ≠ 0 → (t.arrive k v true).2 = mget 0 (t.arrive k v true).1.ren.stepGen v →
      exec (.eStep c f) s = wait (t.arrive k v true).1 (.step v (t.arrive k v true).2 f.rd.toNat))) ∧
  (∀ (c : Clu) (f : FmtI) (s : State), Fetches s (cluKey c) →
    let k := cluKey c
    let sc := s.sc k
    let t := fetched s k
    let v := t.vatIdOf k
    let n := (sc.getX f.rs1.toNat).toNat
    (f.rd = 0 → f.imm = 0 → n ≠ 0 → n < 2 ^ 32 → n * 1000 ≤ t.pwr.budget → ((t.vat? v).map Vat.parent).getD 0 = 0 →
      exec (.eClaim c f) s = .next ((t.wr Reg.LG_VAT_CLAIM 0 n v).retire k sc)) ∧
    (f.rs1 = 0 → f.imm.toNat ≤ 3 → exec (.eRd c f) s = .next (t.retire k (sc.setX f.rd.toNat
      (if f.imm = 0 then w64 (t.rd Reg.LG_VAT_CLAIM 0 v) else if f.imm = 1 then w64 (t.rd Reg.LG_VAT_STEP_ENERGY 0 v)
       else if f.imm = 2 then w64 (t.rd Reg.LG_VAT_STEP 0 v) else BitVec.ofInt 64 t.left))))) ∧
  (∀ (s : State) (v : BitVec 8) (x : Vat), s.led? v.toNat = some x → x.run ≠ .held → s.allArrived v.toNat false = true →
    s.allArrived v.toNat true = false → (s.passBarrier v.toNat).allArrived v.toNat true = false →
    exec (.barrierCompletion v) s = .next (s.passBarrier v.toNat))

/-- Exception entry (R143, R144, R146) and class C. -/
def Obligations.Exceptions : Prop :=
  (∀ (c : Clu) (s : State) (e : Exc), let k := cluKey c; let sc := s.sc k
    sc.up = true → sc.held = false → sc.spilled = false → sc.stopped = false → sc.wait ≠ some .load → sc.wait ≠ some .start →
    sc.inSH = false → sc.nextExc = some e →
    let r := { sc with excs := sc.excs.erase e, wait := none, deadline := none, qdlv := if e.src < 4 then sc.qdlv ||| (1 <<< e.src) else sc.qdlv }
    exec (.exceptionEntry c) s = .next (s.setSc k (
      if svcCause e.cause = false ∧ sc.inVH = false ∧ e.priv = false ∧ sc.vtvec ≠ 0 then
        { r with vepc := sc.pc, vecause := w64 e.cause, veinfo := infoWord e.src e.sigCtr e.tag e.priv 0, veaddr := e.addr, inVH := true,
                 pc := sc.vtvec }
      else if svcCause e.cause = false ∧ sc.inVH = true then
        { r with sepc := sc.pc, secause := w64 cDouble, seinfo := infoWord e.src e.sigCtr e.tag e.priv e.cause, seaddr := e.addr,
                 inSH := true, prevPriv := sc.priv, priv := true, pc := sc.stvec }
      else
        { r with sepc := sc.pc, secause := w64 e.cause, seinfo := infoWord e.src e.sigCtr e.tag e.priv 0, seaddr := e.addr,
                 inSH := true, prevPriv := sc.priv, priv := true, pc := sc.stvec }))) ∧
  (∀ (c : Clu) (s : State), Fetches s (cluKey c) → (s.sc (cluKey c)).nextExc = none →
    exec (.exceptionEntry c) s = .next (if s.wordOk c then fetched s (cluKey c)
      else (fetched s (cluKey c)).trapNoAddr (cluKey c) cIllegal)) ∧
  (∀ (c : Clu) (f : FmtI) (s : State), Fetches s (cluKey c) → f.rd = 0 → f.rs1 = 0 → f.imm.toNat < 2 ^ 16 →
    (s.sc (cluKey c)).inSH = false →
    ∃ t, exec (.cSvc c f) s = .next t ∧ (t.sc (cluKey c)).pc = (s.sc (cluKey c)).stvec ∧ (t.sc (cluKey c)).sepc = (s.sc (cluKey c)).pc ∧
      (t.sc (cluKey c)).secause = 0x12 ∧ (t.sc (cluKey c)).priv = true ∧ (t.sc (cluKey c)).prevPriv = (s.sc (cluKey c)).priv ∧
      (t.sc (cluKey c)).inSH = true ∧ (t.sc (cluKey c)).seinfo = infoWord 4 0 f.imm.toNat (s.sc (cluKey c)).priv 0 ∧ t.mem = s.mem) ∧
  (∀ (c : Clu) (f : FmtR) (s : State), Fetches s (cluKey c) → f.rd = 0 → f.rs2 = 0 → f.rs3 = 0 → f.rm = 0 → f.rsv = 0 →
    let k := cluKey c
    let sc := s.sc k
    let t := fetched s k
    let x := sc.getX f.rs1.toNat
    (sc.priv = true → x.toNat % 8 = 0 →
      exec (.cEnter c f) s = .next (t.setSc k { sc with priv := false, pc := x, fullStall := false })) ∧
    (sc.priv = true → x.toNat < 2 ^ 20 → ∀ core, t.coreOk 0 true (x.toNat / 2 ^ 14) (x.toNat % 2 ^ 14) = true →
      x.toNat / 2 ^ 14 = t.ownMod → t.physCore true (x.toNat % 2 ^ 14) = some core →
      exec (.cFence c f) s = .next ((t.retire k sc).fence core)) ∧
    (sc.priv = false → exec (.cEnter c f) s = .next (t.trapNoAddr k cPriv) ∧ exec (.cFence c f) s = .next (t.trapNoAddr k cPriv))) ∧
  (∀ (c : Clu) (f : FmtI) (s : State), Fetches s (cluKey c) → f.rd = 0 → 0x11 ≤ f.imm.toNat → f.imm.toNat ≤ 0x15 →
    (s.sc (cluKey c)).priv = false → exec (.xwr c f) s = .next ((fetched s (cluKey c)).trapNoAddr (cluKey c) cPriv))

/-- WAIT_CONDITION_MET, WAIT_TIMEOUT, S_CORE_SPILL, S_CORE_RESUME. -/
def Obligations.WaitsAndSpill : Prop :=
  ∀ (c : Clu) (s : State), let k := cluKey c; let sc := s.sc k
    sc.up = true → sc.stopped = false →
    (sc.held = false → sc.spilled = false → ∀ i v, sc.wait = some (.ctr i v) →
      (s.rd Reg.CTR_VALUE k i + 2 ^ 32 - v % 2 ^ 32) % 2 ^ 32 < 2 ^ 31 →
      exec (.waitConditionMet c) s = .next (s.retire k { sc with wait := none, deadline := none })) ∧
    (sc.held = false → sc.spilled = false → sc.wait.isSome = true → ∀ d, sc.deadline = some d → d ≤ s.now →
      exec (.waitTimeout c) s = .next (s.trapNoAddr k cTimeout)) ∧
    (sc.spillReq = true → sc.inAmo = false → ∃ t, exec (.sCoreSpill c) s = .next t ∧ t.sc k = { sc with
        wait := if sc.wait = some .start then sc.wait else none, deadline := none, spillReq := false, spilled := true,
        accs := sc.accs.filter fun a => !a.isLoad }) ∧
    (sc.spilled = true → s.vatFrozen (s.vatIdOf k) = false →
      let a := scrKey (coreOf k 4) (pail63At 4)
      let r := s.readScr (coreOf k 4) (pail63At 4) 0x280 2
      r.2 = true → s.ld (a + 0x1F8) 8 = crc32c (ofBytes (s.ldBytes a 0x1F8)) + 2 ^ 32 →
      s.ld (a + 0x278) 4 = crc32c (ofBytes (s.ldBytes (a + 0x200) 0x78)) → sc.up = true →
      ∃ t, exec (.sCoreResume c) s = .next t ∧ (t.sc k).spilled = false ∧ (t.sc k).pc = w64 (s.ld (a + 0x180) 8) ∧
        (t.sc k).priv = bitOf (s.ld (a + 0x228) 8) 0 ∧ t.mem = s.mem)

/-- The queues (R113, R114, R116, R117). -/
def Obligations.CommandQueues : Prop :=
  (∀ (c : Clu) (isM : Bool) (op : BitVec 8) (f : FmtQ) (s : State), Fetches s (cluKey c) →
    ((if isM then mOps else vOps).contains op.toNat) = true → f.rsvA = 0 → f.rsvB = 0 →
    (isSig isM op.toNat = true → f.rs = 0 ∧ f.dpail = 0 ∧ f.doff = 0) →
    let k := cluKey c
    let qk := k * 4 + f.queue.toNat
    let sc := s.sc k
    let t := fetched s k
    let off := f.doff.toNat + (sc.getX f.rs.toNat).toNat
    isM = decide (f.queue.toNat < 2) → off % 64 = 0 →
    ((t.que qk).length < 32 → exec (.cmdEntryCreate c isM op f) s = .next ((t.setQue qk (t.que qk ++ [⟨isM, op.toNat, f.dpail.toNat,
      off, sc.cmdtag.toNat % 2 ^ 32, sc.cmdwait, sc.cmdsig, sc.priv, .waiting, 0, false, false, false, false, 0, []⟩])).retire k sc)) ∧
    (32 ≤ (t.que qk).length → sc.fullStall = false →
      exec (.cmdEntryCreate c isM op f) s = .next ((t.setSc k { sc with fullStall := true }).bump Reg.CQ_STATS_FULL_STALLS qk))) ∧
  (∀ (c : Clu) (q : Queue) (s : State) (e : QEntry) (rest : List QEntry), let k := cluKey c; let qk := k * 4 + q.val
    s.que qk = e :: rest →
    (e.st = .waiting → s.mayDispatch (coreOf k q.val) = true → s.waitMet k e = true →
      exec (.queueDispatch c q) s = .next (s.setQue qk ({ e with st := .running } :: rest))) ∧
    (e.st = .running → s.coreUp (coreOf k q.val) = true →
      let done := s.setQue qk ({ e with st := .ended 0, arith := 0 } :: rest)
      (e.isM = true → e.op = 2 → exec (.mSig c q) s = .next done) ∧ (e.isM = true → e.op = 3 → exec (.mLdw c q) s = .next done) ∧
      (e.isM = false → e.op = 1 → exec (.vSig c q) s = .next done)) ∧
    (∀ cause, e.st = .failed cause →
      let w := { e with st := .waiting, arith := 0, oob := false, resumed := false, restarted := false, noRec := false, fails := 0, excess := [] }
      exec (.retry c q) s = .next ((s.setQue qk (w :: rest)).released k q.val) ∧
      exec (.skip c q) s = .next ((s.setQue qk rest).released k q.val)) ∧
    (s.headFailed qk = false → exec (.retry c q) s = .next s ∧ exec (.skip c q) s = .next s) ∧
    (e.st ≠ .interrupted → ∃ t, exec (.flush c q) s = .next t ∧ t.que qk = [] ∧ t.mem = s.mem ∧
      (t.sc k).qdlv = (s.sc k).qdlv &&& ~~~((1 : BitVec 4) <<< q.val)))

/-- COMMAND_COMPLETION and COMMAND_FAILURE (R114, R117). -/
def Obligations.CompletionAndFailure : Prop :=
  ∀ (c : Clu) (q : Queue) (s : State) (e : QEntry) (rest : List QEntry), let k := cluKey c; let qk := k * 4 + q.val
    s.que qk = e :: rest →
    (e.st = .ended 0 →
      ∃ t, exec (.commandCompletion c q) s = .next t ∧ t.que qk = rest ∧
        (e.sig.getLsbD 4 = true → t.rd Reg.CTR_VALUE k (e.sig.toNat % 16) = (s.rd Reg.CTR_VALUE k (e.sig.toNat % 16) + 1) % 2 ^ 32) ∧
        (e.sig.getLsbD 4 = false → t.rd Reg.CTR_VALUE k (e.sig.toNat % 16) = s.rd Reg.CTR_VALUE k (e.sig.toNat % 16)) ∧
        t.rd Reg.CQ_LAST_TAG qk = e.tag % 2 ^ 32 ∧ t.rd Reg.CQ_LAST_CAUSE qk = 0) ∧
    (∀ cause, e.st = .ended cause → cause ≠ 0 → (s.sc k).up = true →
      ∃ t, exec (.commandFailure c q) s = .next t ∧ t.que qk = { e with st := .failed cause } :: rest ∧
        t.rd Reg.CQ_LAST_CAUSE qk = cause % 2 ^ 8 ∧ (t.sc k).pc = (s.sc k).pc ∧
        ∃ x, (t.sc k).excs = (s.sc k).excs ++ [x] ∧ x.cause = cause ∧ x.src = q.val ∧ x.tag = e.tag ∧ x.priv = e.priv)

/-- M_MMA (R68, R76). -/
def Obligations.MatrixFolds : Prop :=
  ∀ (c : Clu) (q : Queue) (n : Nat) (s : State) (e : QEntry), let k := cluKey c; let core := coreOf k q.val
    s.running k q.val true 1 = some e → (s.core core).spillReq = none →
    ((s.core core).run = none → (s.readDesc core e).2 = 0 →
      let t := (s.readDesc core e).1
      let d := t.descWords core e
      (t.mChecks core e d).1 = 0 → (mTwin d = true → (t.core (coreOf k 1)).twin = true ∨ t.twinFree k = true) →
      let u := if mTwin d then t.setCore (coreOf k 1) { t.core (coreOf k 1) with twin := true } else t
      (u.prepass core d).2.1 = 0 →
      exec (.mMma c q n) s = .next ((u.prepass core d).1.doFolds k q.val e d n (u.prepass core d).2.2)) ∧
    (∀ run, (s.core core).run = some run → run.prepass = true → s.hasMarks core = false → s.rd Reg.SCR_CTL_INJECT core = 0 →
      let all := mFolds (run.desc.map BitVec.toNat)
      (run.fold + n < all → ∃ t r, exec (.mMma c q n) s = .next t ∧ (t.core core).run = some r ∧ r.fold = run.fold + n ∧ r.desc = run.desc ∧
        r.anchor = run.anchor ∧ t.que (k * 4 + q.val) = s.que (k * 4 + q.val) ∧ t.vats = s.vats) ∧
      (n ≠ 0 → all ≤ run.fold + n → ∃ t flags, exec (.mMma c q n) s = .next t ∧
        t.que (k * 4 + q.val) = { e with st := .ended 0, arith := flags } :: (s.que (k * 4 + q.val)).tail ∧ t.vats = s.vats)) ∧
    (∀ run t r, (s.core core).run = some run → run.prepass = true → s.doFold core (run.desc.map BitVec.toNat) run = (t, some r) →
      mFolds (run.desc.map BitVec.toNat) ≤ r.fold →
      exec (.mMma c q (n + 1)) s = .next ((t.setCore core { t.core core with run := some r }).endWork k q.val e 0 r.arith))

/-- The stop requests and R87. -/
def Obligations.CoreStops : Prop :=
  ∀ (c : Core) (s : State), let core := coreKey c; let k := cluKey ⟨c.tile, c.site, c.cl⟩; let qk := k * 4 + c.slot.val
    (c.slot.val = 4 →
      (∀ r, (s.sc k).up = true → (s.sc k).stopped = false →
        exec (.spillRequest c r) s = .next (s.setSc k { s.sc k with spillReq := true })) ∧
      exec (.holdRequest c) s = .next (s.setSc k { s.sc k with held := true }) ∧
      exec (.holdLift c) s = .next (s.setSc k { s.sc k with held := false }) ∧
      (∃ t, exec (.abandon c) s = .next t ∧ t.sc k = {} ∧ t.fops k = [] ∧ t.mem = s.mem)) ∧
    (c.slot.val < 2 → (s.core (coreOf k 1)).twin = true →
      let both (f : CoreRun → CoreRun) : State :=
        (s.setCore (coreOf k 0) (f (s.core (coreOf k 0)))).setCore (coreOf k 1) (f (s.core (coreOf k 1)))
      exec (.holdRequest c) s = .next (both fun x => { x with held := true }) ∧
      exec (.holdLift c) s = .next (both fun x => { x with held := false })) ∧
    ((s.core (coreOf k 1)).twin = false → c.slot.val < 4 →
    (∀ r, (s.core core).spilled = false → (s.core core).spillReq = none →
      exec (.spillRequest c r) s = .next (s.setCore core { s.core core with spillReq := some r })) ∧
    exec (.holdRequest c) s = .next (s.setCore core { s.core core with held := true }) ∧
    exec (.holdLift c) s = .next (s.setCore core { s.core core with held := false }) ∧
    (∃ t, exec (.abandon c) s = .next t ∧ t.que qk = [] ∧ t.core core = {} ∧ t.mem = s.mem) ∧
    (c.slot.val < 2 → (s.core core).spillReq.isSome = true → s.que qk = [] →
      exec (.spillStopPoint c) s = .next (s.setCore core { s.core core with spillReq := none, spilled := true, run := none })) ∧
    (c.slot.val < 2 → (s.core core).spillReq.isSome = true → ∀ e rest run, s.que qk = e :: rest → e.st = .running → e.isM = true →
      e.op = 1 → (s.core core).run = some run → ∃ t x, exec (.spillStopPoint c) s = .next t ∧
        t.que qk = { e with st := .interrupted, excess := x } :: rest ∧ (t.core core).spilled = true ∧ (t.core core).run = none ∧
        bitOf (t.ld (scrKey core 0x900038) 8) 32 = true ∧ t.ld (scrKey core 0x900010) 4 = run.fold % 2 ^ 32) ∧
    (2 ≤ c.slot.val → (s.core core).spillReq.isSome = true → ∀ e rest, s.que qk = e :: rest → e.st = .running →
      isSig e.isM e.op = false → e.op ≠ 0x49 →
      exec (.vCoreSpill c) s = .next ((s.setCore core { s.core core with spillReq := none, spilled := true, run := none }).setQue qk
        ({ e with st := .interrupted } :: rest))) ∧
    (2 ≤ c.slot.val → ∀ e rest, s.que qk = e :: rest → e.st = .interrupted → s.mayDispatch core = true →
      exec (.spillResume c) s = .next (s.setQue qk ({ e with st := .running } :: rest))) ∧
    (c.slot.val < 2 → ∀ e rest, s.que qk = e :: rest → e.st = .interrupted → s.mayDispatch core = true → (s.readDesc core e).2 = 0 →
      ∃ t x, exec (.spillResume c) s = .next t ∧ t.que qk = x :: rest ∧ x.st = .running ∧ x.tag = e.tag ∧
        ((x.resumed = true ∧ (t.core core).run.isSome = true) ∨ (x.restarted = true ∧ (t.core core).run = none))) ∧
    (c.slot.val < 2 → ∀ col row e rest run, s.que qk = e :: rest → e.st = .running → e.isM = true → e.op = 1 → s.coreUp core = true →
      (s.core core).run = some run → s.rd Reg.MCHK_CTL_AUTO_RESTART core = 1 →
      (e.fails = 0 → ∃ t, exec (.arrayCheckFailure c .weightParity col row) s = .next t ∧
        t.que qk = { e with fails := 1, restarted := true, excess := [] } :: rest ∧ (t.core core).run = none ∧ t.flt.lossQueue = s.flt.lossQueue) ∧
      (e.fails ≠ 0 → ∃ t, exec (.arrayCheckFailure c .weightParity col row) s = .next t ∧
        t.que qk = { e with st := .ended cArray, arith := run.arith % 256 } :: rest ∧
        t.flt.lossQueue = s.flt.lossQueue ++ [(c.tile.val * 8 + c.site.val, 0)])))

/-- What each V-class command computes, by opcode (Table 5.9). -/
def Sys2Proof.vMeaning : List ((Clu → Queue → Instr) × Nat × (State → Nat → List Nat → State × VRes)) :=
  [(.vAdd, 0x10, fun s k d => s.vArith k d (fun x y _ => Machine.Num.add (vRnd d) x y) fun x y _ => x + y),
   (.vSub, 0x11, fun s k d => s.vArith k d (fun x y _ => Machine.Num.add (vRnd d) x y.neg) fun x y _ => x - y),
   (.vMul, 0x12, fun s k d => s.vArith k d (fun x y _ => Machine.Num.mul x y) fun x y _ => x * y),
   (.vMin, 0x13, fun s k d => s.vArith k d (fun x y _ => Machine.Num.min x y) fun x y _ => min x y),
   (.vMax, 0x14, fun s k d => s.vArith k d (fun x y _ => Machine.Num.max x y) fun x y _ => max x y),
   (.vFma, 0x15, fun s k d => s.vArith k d (fun x y w => Machine.Num.add (vRnd d) (Machine.Num.mul x y) w) fun x y w => x * y + w),
   (.vCmp, 0x16, fun s k d => s.vCmpRes k d), (.vAnd, 0x17, fun s k d => s.vBits k d fun _ x y => x &&& y),
   (.vOr, 0x18, fun s k d => s.vBits k d fun _ x y => x ||| y), (.vXor, 0x19, fun s k d => s.vBits k d fun _ x y => x ^^^ y),
   (.vShl, 0x1A, fun s k d => s.vBits k d vShl), (.vShr, 0x1B, fun s k d => s.vBits k d vShr),
   (.vCvt, 0x20, fun s k d => s.vCvtRes k d), (.vExp2, 0x28, fun s k d => s.vFunc1 k d Machine.Num.exp2),
   (.vLog2, 0x29, fun s k d => s.vFunc1 k d Machine.Num.log2), (.vRcp, 0x2A, fun s k d => s.vFunc1 k d Machine.Num.rcp),
   (.vRsqrt, 0x2B, fun s k d => s.vFunc1 k d Machine.Num.rsqrt),
   (.vRsum, 0x30, fun s k d => s.vReduce k d f32add (fun x y => x + y) negZero),
   (.vRmax, 0x31, fun s k d => s.vReduce k d Machine.Num.max max (.inf true)),
   (.vRmin, 0x32, fun s k d => s.vReduce k d Machine.Num.min min (.inf false)),
   (.smxStep, 0x38, fun s k d => s.smxStepRes k d), (.smxRescale, 0x39, fun s k d => s.smxRescaleRes k d),
   (.smxFinal, 0x3A, fun s k d => s.smxFinalRes k d), (.rope, 0x40, fun s k d => s.ropeRes k d),
   (.gather, 0x48, fun s k d => s.gatherRes k d), (.scatter, 0x49, fun s k d => s.scatterRes k d),
   (.topk, 0x4A, fun s k d => s.topkRes k d)]

/-- A V-class command is at work with a descriptor that passes its checks, and its operands are read without an uncorrectable
word (R96, R108): `d` are its words, `t` the state after the reads. -/
def Sys2Proof.VReads (s : State) (ck q op : Nat) (e : QEntry) (d : List Nat) (t : State) : Prop :=
  s.running ck q false op = some e ∧ (s.readDesc (coreOf ck q) e).2 = 0 ∧
  d = (s.readDesc (coreOf ck q) e).1.descWords (coreOf ck q) e ∧
  ((s.readDesc (coreOf ck q) e).1.vChecks (coreOf ck q) e d).1 = 0 ∧
  ∃ u, (s.readDesc (coreOf ck q) e).1.vReads (coreOf ck q) op d (preSlot op d) = (u, true) ∧ u.vPrescan (coreOf ck q) op d = 0 ∧
    u.vReads (coreOf ck q) op d (fun i => !preSlot op d i) = (t, true)

/-- The V-class commands. -/
def Obligations.VectorCommands : Prop :=
  (∀ p ∈ Sys2Proof.vMeaning, ∀ (c : Clu) (q : Queue) (s t : State) (e : QEntry) (d : List Nat),
    Sys2Proof.VReads s (cluKey c) q.val p.2.1 e d t →
    let r := p.2.2 t (coreOf (cluKey c) q.val) d
    let core := coreOf (cluKey c) q.val
    exec (p.1 c q) s = .next ((r.2.puts.foldl (fun s x => s.writeView core (s.pail core (vSlot d x.1).pail) x.2.1 x.2.2) r.1).endWork
      (cluKey c) q.val { e with oob := r.2.oob } 0 r.2.flags)) ∧
  (∀ p ∈ Sys2Proof.vMeaning, ∀ (c : Clu) (q : Queue) (s : State) (e : QEntry), let core := coreOf (cluKey c) q.val
    s.running (cluKey c) q.val false p.2.1 = some e → s.hasMarks core = false → (s.readDesc core e).2 = 0 →
    let t := (s.readDesc core e).1
    let d := t.descWords core e
    (t.vChecks core e d).1 = 0 → t.vPrescan core p.2.1 d = 0 →
    ∃ u flags oob, exec (p.1 c q) s = .next u ∧ u.vats = s.vats ∧ u.que (cluKey c * 4 + q.val) =
      { e with st := .ended 0, arith := flags, oob := oob } :: (s.que (cluKey c * 4 + q.val)).tail) ∧
  (∀ (c : Core) (s t : State) (e : QEntry), let core := coreKey c; let k := cluKey ⟨c.tile, c.site, c.cl⟩
    2 ≤ c.slot.val → c.slot.val < 4 → (s.que (k * 4 + c.slot.val)).head? = some e → e.st = .running → isSig e.isM e.op = false →
    s.coreUp core = true → s.descOk core e = true → (s.vChecks core e (s.descWords core e)).1 = 0 →
    let d := s.descWords core e
    (s.vReads core e.op d (preSlot e.op d) = (t, false) → exec (.vOperandEcc c) s = .next (t.endWork k c.slot.val e cEcc 0)) ∧
    (∀ u, s.vReads core e.op d (preSlot e.op d) = (u, true) → u.vReads core e.op d (fun i => !preSlot e.op d i) = (t, false) →
      exec (.vOperandEcc c) s = .next (t.vStop k c.slot.val e d)))

/-- The mover rows (R192, R195, R197, R198, R203). -/
def Obligations.TierMovers : Prop :=
  ∀ (t : Tile) (mv : Fin 4) (s : State), let mk := t.val * 4 + mv.val
    (∀ r ck u, s.mvRun? mk = none → s.pwr.lossAt = none →
      s.nextRing mk ((List.range 4).map fun i => (s.rd Reg.MV_STATUS_RING mk + 1 + i) % 4) = (u, some r) →
      let w := (u.wr Reg.MV_STATUS_RING mk r).wr Reg.MV_STATUS_BUSY mk 1
      let core := coreOf ck 4
      let svc := w.rd Reg.MV_BIND_SVC mk r == 1
      let p := w.pail core (w.rd Reg.MV_BIND_RING_PAIL mk r)
      let off := w.rd Reg.MV_CONSUMED_CONSUMED mk r % w.ringSize mk r * 64
      w.ringClu mk r = some ck → p.usable svc false = true → p.view = 0 → off + 64 ≤ p.size → (w.readScr core (p.base + off) 64 4).2 = true →
      let y := (w.readScr core (p.base + off) 64 4).1
      let d := (List.range 8).map fun i => y.ld (scrKey core (p.base + off + 8 * i)) 8
      let chk := y.mvCheck ck (y.rd Reg.MV_BIND_VAT mk r) svc d
      exec (.tierMoverDescriptorStart t mv) s = .next ((chk.1.wr Reg.MV_STATUS_REMAINING mk (if chk.2.1 = 0 then mvDn d * mvDrow d else 0)).setMv mk
        ⟨r, d.map w64, chk.2.1, 0, !chk.1.mvStatusOk ck svc d, false⟩)) ∧
    (∀ run ck u plan, s.mvRun? mk = some run → s.ringClu mk run.ring = some ck →
      let d := run.desc.map BitVec.toNat
      (run.cause = 0 → run.moved = false →
        s.mvCheck ck (s.rd Reg.MV_BIND_VAT mk run.ring) (s.rd Reg.MV_BIND_SVC mk run.ring == 1) d = (u, 0, plan) →
        (mvOp d = 0 → exec (.tierMoverCopy t mv) s = .next (u.mvMove mk run plan d)) ∧
        (mvOp d = 1 → exec (.transpose t mv) s = .next (u.mvMove mk run plan d)) ∧
        (mvOp d = 2 → exec (.kvRead t mv) s = .next (u.mvMove mk run plan d)) ∧
        (mvOp d = 3 → exec (.kvWrite t mv) s = .next (u.mvMove mk run plan d)) ∧
        (mvOp d = 4 → exec (.zero t mv) s = .next (u.mvMove mk run plan d)) ∧
        (∀ c ∈ ([(0, .tierMoverCopy), (1, .transpose), (2, .kvRead), (3, .kvWrite), (4, .zero)] : List (Nat × (Tile → Fin 4 → Instr))),
          mvOp d = c.1 → (mvKv d || !mvUses d 5) = true →
          let x := if c.1 = 4 then (u, List.replicate (mvRows d) (List.replicate (mvBytes d) 0), 0) else u.mvReadRows t.val plan d (mvRows d) 0
          x.2.2 = 0 → x.1.mvWriteStop t.val (mvWrites plan d [] x.2.1).1 = 0 →
          ∃ v r, exec (c.2 t mv) s = .next v ∧ v.mvRun? mk = some r ∧ r.moved = true ∧ r.cause = 0 ∧ r.ring = run.ring ∧
            r.desc = run.desc ∧ v.vats = u.vats)) ∧
      (run.moved = true → run.cause = 0 → run.statusBad = true →
        let z := ((s.lookRing mk run.ring).1.bumpW Reg.MV_CONSUMED_CONSUMED mk 1 run.ring).dropRing mk run.ring
        exec (.tierMoverDescriptorEnd t mv) s = .next (if dbits d 0 22 22 = 1 then z.signal ck (dbits d 0 26 23) else z)) ∧
      (run.moved = true → run.statusBad = false → ∃ z, exec (.tierMoverDescriptorEnd t mv) s = .next z ∧ z.mvRun? mk = none))

/-- TIER_GRANT_WRITE, T3_LINK_DOWN, T3_READ_TIMEOUT, NVME_INBOUND_DMA. -/
def Obligations.TierRegisters : Prop :=
  ∀ s : State,
    (∀ (vat : BitVec 8) (win : BitVec 4) (v : Word), vat ≠ 0 → let i := vat.toNat * 16 + win.toNat
      ∃ t, exec (.tierGrantWrite vat win v) s = .next t ∧ t.mem = s.mem ∧ t.rd Reg.GRANT_VALID 0 i = v.toNat % 2 ∧
        t.rd Reg.GRANT_WRITE 0 i = v.toNat / 2 % 2 ∧ t.rd Reg.GRANT_TIER 0 i = v.toNat / 4 % 4 ∧
        t.rd Reg.GRANT_BASE_2M 0 i = v.toNat / 16 % 2 ^ 31 ∧ t.rd Reg.GRANT_PAGES_M1 0 i = v.toNat / 2 ^ 35 % 2 ^ 22) ∧
    (∀ p : Fin 8, s.rd Reg.T3_STATUS_LINK_UP p.val = 1 → ∃ t, exec (.t3LinkDown p) s = .next t ∧
      t.rd Reg.T3_STATUS_LINK_UP p.val = 0 ∧ t.rd Reg.T3_STATUS_SPEED p.val = 0 ∧ t.rd Reg.T3_STATUS_WIDTH p.val = 0) ∧
    (∀ (port : Fin 8) pid p, s.pkt? pid = some p → s.t3Read p port.val = true → s.rd Reg.T3_STATUS_LINK_UP port.val ≠ 1 →
      p.sentAt + 45000 ≤ s.now →
      exec (.t3ReadTimeout port pid) s = .next ((s.bump Reg.T3_STATUS_POISON_RX port.val).nackDrop p cPoison)) ∧
    (∀ (port : Fin 8) (a : Word) (data : List Byte) off, s.rd Reg.T3_STATUS_LINK_UP port.val = 1 → s.tier.t3nvme.contains port.val = true →
      data ≠ [] → s.rd Reg.T3_IN_BASE_IN_BASE port.val ≤ a.toNat → a.toNat + data.length - 1 ≤ s.rd Reg.T3_IN_LIMIT_IN_LIMIT port.val →
      s.rd Reg.T3_IN_TARGET_IN_TARGET port.val + (a.toNat - s.rd Reg.T3_IN_BASE_IN_BASE port.val) = 2 ^ 52 + off →
      off + data.length ≤ t1Cap → s.tgtOk 0 true s.ownMod (.t1 off) data.length true = true →
      exec (.nvmeInboundDma port a (.write data)) s = .next (s.writeMem (.t1 off) data))

/-- The scheduled plane's transfers (R216 to R226). -/
def Obligations.ScheduledTransfers : Prop :=
  ∀ s : State,
    (∀ c : Core, let core := coreKey c
      s.schedRuns = true → s.rd Reg.INJ_STATUS_STOPPED core = 0 → s.injActive core = true → s.fenced core = false →
      s.dieOn (core / 256) (core / 32 % 8) = true → s.lsite (core / 256) (core / 32 % 8) ≠ 7 →
      exec (.scheduledInjection c) s = .next (((s.injList core).filter fun e =>
        injSlot e.1 == s.slotIx && s.frameNo % injPer e.1 == injPhase e.1).foldl (fun s e => s.injectOne core e) s)) ∧
    (∀ t : Tile, s.schedRuns = true → s.vlnk t.val = true → ∃ u, exec (.scheduledHop t) s = .next u ∧ u.mem = s.mem ∧
      u.sch.stage = mkeep (fun k => k / 256 != t.val) s.sch.stage ∧ u.regs = s.regs) ∧
    (∀ (t : Tile) (l g : BitVec 3) (hdr body copy : List Nat) (a : Arrival) (rest : List Arrival) (core : Nat),
      s.sch.arrivals = a :: rest → a.tile = t.val → a.lsite = l.toNat → a.lg = g.toNat → a.x.bad = false → a.x.torn = false →
      s.ldBytes a.x.from_ a.x.payload.length = a.x.payload →
      let u := { s with sch := { s.sch with arrivals := rest } }
      let got := a.x.taken (flipBits a.x.wire (wireBits hdr body copy))
      u.arrDrop a = none → u.arrCore a = some core →
      (got = none → exec (.scheduledDelivery t l g hdr body copy) s = .next (u.lostXfer a)) ∧
      (∀ x, got = some (x, false) → exec (.scheduledDelivery t l g hdr body copy) s = .next (u.askRepair a x core)) ∧
      (hdr = [] → body = [] → copy = [] → a.x.vat < 2 ^ 8 → a.x.src < 2 ^ 14 → a.x.dstPail < 2 ^ 6 → a.x.dstOff < 2 ^ 24 → a.x.payload.length ≤ 7608 →
        a.x.sigCtr < 2 ^ 4 → a.x.lg < 2 ^ 3 →
        let p := u.pail core a.x.dstPail
        p.valid = true → p.ro = false → p.svc = false → a.x.dstOff + a.x.payload.length ≤ p.size →
        let w := u.writeScr core (p.base + a.x.dstOff) a.x.payload
        exec (.scheduledDelivery t l g hdr body copy) s = .next (if a.x.sigEn then w.signal (cluOfCore core) a.x.sigCtr else w))) ∧
    (∀ rid r, (s.sch.repairs.find? fun r => r.rid == rid) = some r → r.a.x.injAt + 64 ≤ s.sch.slots →
      exec (.repairTimeout rid) s = .next ((s.dropRepair rid).lostXfer r.a)) ∧
    (∀ pid p, s.pkt? pid = some p → s.arrived p = true → s.inOrder p = true → p.held = false → p.headerOk = true →
      ∀ core, s.judgeCore p (p.daddr.toNat / 2 ^ 30 % 2 ^ 14) (fun _ => true) = (.go, core) → s.downOpen p (cluOfCore core) = true →
      ∀ u q, s.down p (cluOfCore core) = (u, some q) →
      let v := u.dropPkt pid
      (p.op = opRepairLate → ∀ r, v.repair? q = some r →
        exec (.repairLate pid) s = .next ((v.dropRepair r.rid).lostXfer r.a).pumpAll) ∧
      (p.op = opRepairData → let w := v.reply q q.at_ (some (cluOfCore core)) opAck 0 []
        ∀ r, w.repair? q = some r → w.arrDrop r.a = none → w.sch.slots ≤ r.a.x.injAt + 64 →
        exec (.repairData pid) s = .next ((w.deliver r.a true q.payload).dropRepair r.rid).pumpAll) ∧
      (p.op = opRepairReq →
        exec (.repairReq pid) s = .next (v.answerRepair q (leNat (ofBytes (q.payload.take 30))) core).pumpAll))

/-- The requests (R249, R251, R270). -/
def Obligations.Requests : Prop :=
  ∀ (s : State) (pid : Nat) (p : Pkt), s.pkt? pid = some p → s.arrived p = true → s.inOrder p = true → p.held = false →
    p.headerOk = true →
    let d := p.daddr.toNat
    (∀ n w pl u q, s.judge p d n w = (.go, pl) → s.toPlace p .go pl = (u, some q) → q.numbered = none →
      let t := u.dropPkt q.pid
      (p.op = opWrite → n = p.payload.length → w = true →
        exec (.write pid) s = .next ((t.writePlace pl q.payload).reply q q.at_ pl.owner opAck 0 []).pumpAll) ∧
      (p.op = opStore → n = p.payload.length → w = true →
        exec (.store pid) s = .next ((t.writePlace pl q.payload).reply q q.at_ pl.owner opAck 0 []).pumpAll) ∧
      (p.op = opReadReq → n = leNat (ofBytes (p.payload.drop 8)) % 2 ^ 14 → w = false → (t.readPlace pl n).2.2 = none →
        exec (.readReq pid) s = .next ((t.readPlace pl n).1.respond q pl.owner (leNat (ofBytes (q.payload.take 8)))
          (t.readPlace pl n).2.1).pumpAll) ∧
      (p.op = opLoad → n = p.len → w = false → (t.readPlace pl n).2.2 = none →
        exec (.load pid) s = .next ((t.readPlace pl n).1.reply q q.at_ pl.owner opLoadResp 0
          (toBytes (leBytes 8 (leNat (ofBytes (t.readPlace pl n).2.1))))).pumpAll) ∧
      (p.op = opAmo → n = p.payload.length → w = true → (t.readPlace pl 8).2.2 = none →
        let old := leNat (ofBytes (t.readPlace pl 8).2.1)
        let v := leNat (ofBytes q.payload)
        exec (.amo pid) s = .next (((t.readPlace pl 8).1.writePlace pl
          (toBytes (leBytes 8 (if q.redop = 0 then (old + v) % 2 ^ 64 else v)))).reply q q.at_ pl.owner opLoadResp 0
            (toBytes (leBytes 8 old))).pumpAll)) ∧
    (∀ a, s.toPlace p .go (.mem a) = (s, some p)) ∧
    (∀ core off, p.ring = true → s.toPlace p .go (.scr core off) = (s, some p)) ∧
    (p.op = opWrite → p.numbered = none → ∀ core off, s.judge p d p.payload.length true = (.fenced, .scr core off) →
      exec (.write pid) s = .next (((s.dropPkt p.pid).bump Reg.DYN_DROP1_FENCED_NACK p.at_).reply p p.at_ none opNack cFenced []).pumpAll) ∧
    (p.op = opStore → ∀ k core off u q, s.judge p d p.payload.length true = (.go, .scr core off) →
      s.toPlace p .go (.scr core off) = (u, some q) → q.numbered = some k → u.early q k = true →
      (u.fab.reorder.filter fun e => e.p.at_ == q.at_).length < 64 → let t := u.dropPkt q.pid
      exec (.store pid) s = .next (State.pumpAll { t with fab := { t.fab with reorder := t.fab.reorder ++ [⟨q, core, off⟩] } }))

/-- The replies (R249 to R251). -/
def Obligations.Replies : Prop :=
  ∀ (s : State) (pid : Nat) (p : Pkt), s.pkt? pid = some p →
    (s.arrived p = true → s.inOrder p = true → p.held = false → p.headerOk = true → p.retryAt = none →
      (∀ u q, s.toConsumer p = (u, some q) → q.crcOk = true →
        let t := u.dropPkt pid
        let k := q.from_
        (∀ o, q.owner = .fop → t.fopOf q = some o →
          (p.op = opAck → exec (.ack pid) s = .next (t.setFop k { o with acked := o.acked ++ [q.seq] }).pumpAll) ∧
          (p.op = opNack → k < 2 ^ 20 →
            exec (.nack pid) s = .next ((t.bump Reg.DI_STATS_NACKS k).failFop k o q.cause q.seq).pumpAll) ∧
          (p.op = opResend → o.resent.contains q.seq = true → exec (.resend pid) s = .next (t.failFop k o cEcc q.seq).pumpAll) ∧
          (p.op = opResend → o.resent.contains q.seq = false → exec (.resend pid) s =
            .next (t.setFop k { o with again := o.again ++ [q.seq], resent := o.resent ++ [q.seq] }).pumpAll)) ∧
        (q.owner = .fop → t.fopOf q = none → p.op = opAck →
          exec (.ack pid) s = .next (t.bump Reg.DYN_DROP2_LOST_REPLY q.at_).pumpAll) ∧
        (∀ x a, q.owner = .smem x → t.accOf q x = some a → a.op = opLoad → p.op = opLoadResp → t.fab.reorder = [] →
          (t.sc k).wait = some .load →
          let c := (t.dropAcc k a).sc k
          exec (.loadResp pid) s = .next ((t.dropAcc k a).retire k (({ op := opLoad, size := a.size, signed := a.signed, fp := a.fp } : MemOp).put
            { c with wait := none } a.rd (leNat (ofBytes q.payload)))).pumpAll) ∧
        (p.op = opRetry → q.owner ≠ .unit → exec (.retryPacket pid) s =
          .next (State.pumpAll { t with fab := { t.fab with net := t.fab.net ++ [{ q with retryAt := some (t.now + 900) }] } }))) ∧
      (p.clu = none → s.toConsumer p = (s, some p)) ∧
      (p.op = opReadResp → ∀ core off u q o, s.judge p p.daddr.toNat p.payload.length true = (.go, .scr core off) →
        s.toPlace p .go (.scr core off) = (u, some q) → q.owner = .fop → q.from_ < 2 ^ 20 → u.fopOf q = some o → q.from_ = cluOfCore core →
        let t := (u.dropPkt pid).writeScr core off q.payload
        exec (.readResp pid) s = .next (t.setFop q.from_ { o with acked := o.acked ++ [q.seq] }).pumpAll)) ∧
    (p.op = opRetry → p.owner = .fop → ∀ w o, p.retryAt = some w → w ≤ s.now → (s.dropPkt pid).fopOf p = some o →
      exec (.retryResendTimer pid) s = .next ((s.dropPkt pid).setFop p.from_ { o with again := o.again ++ [p.seq] }).pumpAll)

/-- Hops and losses of packets. -/
def Obligations.PacketHops : Prop :=
  ∀ (s : State) (pid : Nat) (p : Pkt), s.pkt? pid = some p →
    (p.free = true → s.nodeFor p = none →
      (p.rmode = true → s.inOrder p = true →
        (p.headerOk = true → ∀ c, c = routeFld p.route p.hop → c ≠ 0 → c ≠ 7 →
          exec (.packetHopSourceRoute pid) s = .next (if s.portUp p.at_ (c - 1) then s.move p (c - 1) 1
            else (s.bump Reg.DYN_DROP0_PATH_NACK p.at_).nackDrop p cPath).pumpAll) ∧
        (p.headerOk = false →
          exec (.packetHopSourceRoute pid) s = .next ((s.bump Reg.DYN_DROP0_HDR_DROP p.at_).dropPkt p.pid).pumpAll)) ∧
      (p.rmode = false → p.headerOk = true → p.dmod = s.ownMod → p.dtile ≠ p.at_ → p.out = none →
        (p.epoch ≠ s.epochAt p.at_ →
          exec (.packetHopBurboid pid) s = .next ((s.bump Reg.DYN_DROP0_EPOCH_NACK p.at_).nackDrop p cEpoch).pumpAll) ∧
        (p.epoch = s.epochAt p.at_ →
          exec (.packetHopBurboid pid) s = .next (match s.choose p.at_ p.dtile p.cls with
            | some port => s.move p port 0
            | none => (s.bump Reg.DYN_DROP0_PATH_NACK p.at_).nackDrop p cPath).pumpAll))) ∧
    (∀ port adv n, neighbour p.at_ port = some n → s.outOpen p port = true → s.turnOf p port = true → s.lnk.injNext = [] →
      p.out = none → p.pid = pid → let u := s.move p port adv
      u.mem = s.mem ∧ ∃ q, u.pkt? pid = some q ∧ q.at_ = n ∧ q.inPort = oppPort port ∧ q.hop = p.hop + adv ∧ q.payload = p.payload) ∧
    (p.at_ < 36 → p.retryAt = none → exec (.packetTruncation pid) s = .next ((s.bump Reg.DYN_DROP2_TRUNC p.at_).dropPkt pid)) ∧
    (s.arrived p = true → p.at_ = 0 → p.op = opLoad ∨ p.op = opReadReq ∨ p.op = opAmo → p.daddr.toNat / 2 ^ 63 % 2 = 1 →
      s.host.up = false → p.retryAt = none → p.sentAt + 45000 ≤ s.now → (∃ a, decodePa (p.daddr.toNat % 2 ^ 56) = some (.host a)) →
      exec (.hostReadTimeout pid) s = .next (s.nackDrop p cPoison))

/-- R258, rules 2 and 3. -/
def Obligations.ChosenOutputIsCloser : Prop :=
  ∀ (s : State) (t target cls port : Nat), s.choose t target cls = some port →
    bitOf (s.rd Reg.TILE_ACT_ENTRY t target) port = true ∧ s.portUp t port = true ∧
      (∃ n, neighbour t port = some n ∧ tileDist n target < tileDist t target ∧ (tileX target < tileX t → tileX n < tileX t)) ∧
      ∀ q ∈ s.candidates t target, s.queued t port cls ≤ s.queued t q cls

/-- R243 to R245: the header's layout and both CRCs. -/
def Obligations.HeaderRoundTrip : Prop :=
  ∀ (p : Pkt) (hop : Nat), p.cls < 2 ^ 2 → p.op < 2 ^ 5 → p.epoch < 2 ^ 2 → p.hop < 2 ^ 5 → p.vat < 2 ^ 8 → p.len < 2 ^ 14 → p.route < 2 ^ 60 →
    p.dmod < 2 ^ 6 → p.dtile < 2 ^ 6 → p.src < 2 ^ 20 → p.seq < 2 ^ 16 → p.opid < 2 ^ 4 → p.redop < 2 ^ 3 → p.skim < 2 ^ 14 →
    p.cause < 2 ^ 8 → hop < 2 ^ 5 →
    let q := { p with hop := hop }
    let r := wirePkt q.header p.payload (trailerOf p.header p.payload)
    q.header < 2 ^ 256 ∧ r = { blankPkt with cls := p.cls, op := p.op, epoch := p.epoch, rmode := p.rmode, hop := hop,
                                             vat := p.vat, len := p.len, route := p.route, daddr := p.daddr, dmod := p.dmod,
                                             dtile := p.dtile, src := p.src, seq := p.seq, opid := p.opid, redop := p.redop,
                                             skim := p.skim, cause := p.cause, payload := p.payload, hdrOk := true, crcOk := true }


/-- LANE_GROUP_RETIREMENT, WHEY_SLOT_PRBS, CONTROL_PAIR_FAILURE. -/
def Obligations.LaneErrors : Prop :=
  ∀ (s : State) (t : Tile) (l : Fin 11) (g : BitVec 3), let i := linkInst t.val l.val
    let d := dirKey t.val l.val true
    let grp := d * 8 + g.toNat
    (4 ≤ l.val → s.lnk.due.contains grp = true → s.retiredMask t.val l.val true = 0 → s.lnk.injBad = [] →
      let u := (s.setLnk { s.lnk with due := s.lnk.due.filter (· != grp) }).markGroup t.val l.val g.toNat true
      u.rd Reg.LK_STATUS_GRP_RETIRED_RX i = 2 ^ g.toNat ∧ u.rd Reg.LK_STATUS_WIDTH_RX i = 7 ∧ u.rd Reg.LK_GROUP_RETIRED i g.toNat = 1 ∧
      exec (.laneGroupRetirement t l true g) s = .next
        ((((u.setLnk { u.lnk with grpHist := u.lnk.grpHist ++ [grp] }).retireUp t.val (l.val - 4) g.toNat).showRetired t.val l.val).saveStored)) ∧
    (∀ (e : LinkEnd) (lane errs : Nat), s.clk.started = false ∨ isWhey s.slotIx = false →
      exec (.wheySlotPrbs e g lane errs) s = .next s) ∧
    (∀ (p : Fin 7) (lane errs : Nat), s.clk.started = true → isWhey s.slotIx = true →
      let j := linkInst t.val (4 + p.val)
      let key := (dirKey t.val (4 + p.val) false * 8 + g.toNat) * 2048 + lane
      s.rd Reg.LK_STATUS_STATE j = 2 → bitOf (s.retiredMask t.val (4 + p.val) false) g.toNat = false →
      lane < groupLanes (4 + p.val) → mget 0 s.lnk.injLane key = 0 →
      let r := s.laneErrors key (s.rd Reg.LK_CFG_LANE_THRESH j) (s.rd Reg.LK_CFG_WINDOW_LOG2 j) errs
      r.2 = false → exec (.wheySlotPrbs (.die t p) g lane errs) s = .next r.1) ∧
    (∀ (q : Fin 4) (ch errs : Nat), s.clk.started = true → isWhey s.slotIx = true → let rx := xpInst t.val q.val
      q.val % 2 = 1 → ch < 32 → s.rd Reg.XP_STATUS_STATE rx = 2 → s.inTakeover (q.val == 3) = false →
      mget 0 s.lnk.injLane (xpLane rx ch) = 0 → s.lnk.chanDue.contains (rx * 32 + ch) = false →
      let r := s.laneErrors (xpLane rx ch) 8 10 errs
      exec (.wheySlotPrbs (.express t q) g ch errs) s = .next
        (if r.2 then r.1.setLnk { r.1.lnk with chanDue := s.lnk.chanDue ++ [rx * 32 + ch] } else r.1)) ∧
    (∀ (p : Fin 32) (lane errs : Nat), s.clk.started = true → isWhey s.slotIx = true → s.reachUp p.val = true → lane < 8 →
      mget 0 s.lnk.injLane (reachLane p.val lane) = 0 →
      exec (.wheySlotPrbs (.reach p) g lane errs) s = .next (s.bumpW Reg.RP_FEC_CORRECTED p.val errs)) ∧
    (∀ lane errs : Nat, s.clk.started = true → isWhey s.slotIx = true → s.rd Reg.LK_STATUS_STATE i = 2 →
      bitOf (s.rd Reg.LK_STATUS_GRP_RETIRED_RX i) g.toNat = false → lane < dataLanes l.val → let key := grp * 2048 + lane
      mget 0 s.lnk.injLane key = 0 →
      let r := s.laneErrors key (s.rd Reg.LK_CFG_LANE_THRESH i) (s.rd Reg.LK_CFG_WINDOW_LOG2 i) errs
      (r.2 = false → exec (.wheySlotPrbs (.link t l) g lane errs) s = .next r.1) ∧
      (r.2 = true → (s.lnk.bad ++ s.lnk.injBad).contains key = false →
        (∀ x, s.freeSpare d g.toNat = some x → ∃ u, exec (.wheySlotPrbs (.link t l) g lane errs) s = .next u ∧
          u.lnk.bad = s.lnk.bad ++ [key] ∧ mget 0 u.lnk.spares key = x + 1 ∧ u.lnk.due = s.lnk.due ∧
          u.rd Reg.LK_GROUP_LAST_LANE i g.toNat = lane % 2 ^ Reg.LK_GROUP_LAST_LANE.w) ∧
        (s.freeSpare d g.toNat = none → ∃ u, exec (.wheySlotPrbs (.link t l) g lane errs) s = .next u ∧
          u.lnk.due.contains grp = true ∧ mget 0 u.lnk.spares key = 0))) ∧
    (4 ≤ l.val → s.rd Reg.LK_STATUS_STATE i = 2 → mget 0 s.lnk.ctlBad d = 0 →
      exec (.controlPairFailure t l true) s = .next
        ((s.setLnk { s.lnk with ctlBad := mset 0 s.lnk.ctlBad d 1 }).wr Reg.LK_STATUS_CTL_DEGRADED i 1))

/-- FLIT_RECEIVE, REPLAY_REQUEST, FLIT_ACK, CREDIT_RETURN, CLASS_ON_OFF, DYN_BUF_WRITE, DYN_TMO_WRITE. -/
def Obligations.FlitsAndBuffers : Prop :=
  ∀ s : State,
    (∀ (e : LinkEnd) (g : BitVec 3) (seq : Nat) (cls : BitVec 2) (crc : BitVec 32) (data : List Byte), s.lnk.injNext = [] →
      data.length = 252 → crc.toNat = crc32c (ofBytes data) →
      let k := endKey e
      let r := s.rx k
      (seq = r.expect → exec (.flitReceive e g seq cls crc data) s = .next
        ((let u := s.setRx k ⟨(seq + 1) % (linkCaps k).2.2.2, false⟩
          match e with
          | .reach p => if s.reachUp p.val then u.takeFlit p.val cls.toNat (flitBytes data crc) else u
          | _ => u).pumpAll)) ∧
      (seq ≠ r.expect → exec (.flitReceive e g seq cls crc data) s = .next (s.setRx k ⟨r.expect, true⟩).pumpAll)) ∧
    (∀ (t : Tile) (q : Fin 4) (p : Fin 32) (g : BitVec 3) (seq : Nat) (cls : BitVec 2) (crc : BitVec 32) (data : List Byte), s.lnk.injNext = [] →
      data.length = 252 → crc.toNat ≠ crc32c (ofBytes data) → let x := endKey (.express t q)
      exec (.flitReceive (.express t q) g seq cls crc data) s = .next
        (((s.bump Reg.XP_ERR_CRC_ERR (xpInst t.val q.val)).setRx x ⟨(s.rx x).expect, true⟩).pumpAll) ∧
      exec (.flitReceive (.reach p) g seq cls crc data) s = .next
        (((s.bump Reg.RP_ERR_CRC_ERR p.val).setRx (reachKey p.val) ⟨(s.rx (reachKey p.val)).expect, true⟩).pumpAll)) ∧
    (∀ (e : LinkEnd) (seq : Nat), (s.tx (endKey e)).holds seq = true → exec (.replayRequest e seq) s = .next
      (match e with
       | .link t l => s.bumpW Reg.LK_ERR_REPLAYS (linkInst t.val l.val)
       | .die _ _ => s
       | .express t q => s.bumpW Reg.XP_ERR_REPLAYS (xpInst t.val q.val)
       | .reach p => s.bumpW Reg.RP_ERR_REPLAYS p.val)) ∧
    (∀ (e : LinkEnd) (a b : List (Nat × List Byte)) (seq : Nat) (f : List Byte), (s.tx (endKey e)).held = a ++ (seq, f) :: b →
      (∀ x ∈ a, x.1 ≠ seq) → exec (.flitAck e seq) s = .next (s.setTx (endKey e) { s.tx (endKey e) with held := b }).pumpAll) ∧
    (∀ (e : LinkEnd) (cls : BitVec 2), let x := s.tx (endKey e)
      exec (.creditReturn e cls true) s = .next (s.setTx (endKey e) { x with pool := x.pool - 1 }).pumpAll ∧
      exec (.creditReturn e cls false) s =
        .next (s.setTx (endKey e) { x with share := x.share.set cls.toNat (x.share.getD cls.toNat 0 - 1) }).pumpAll) ∧
    (∀ (t : Tile) (v : Word), let n := v.toNat % 2 ^ 17
      (100 ≤ n → n ≤ 100000 → exec (.dynTmoWrite t v) s = .next (s.wr Reg.DYN_TMO_OP_TIMEOUT t.val n)) ∧
      (n < 100 ∨ 100000 < n → exec (.dynTmoWrite t v) s = .next (s.wr Reg.DYN_BUF_CFG_CLAMP t.val 1))) ∧
    (∀ (t : Tile) (v : Word) (a b c d : Nat), a = v.toNat % 128 → b = v.toNat / 2 ^ 8 % 128 → c = v.toNat / 2 ^ 16 % 128 →
      d = v.toNat / 2 ^ 24 % 128 → 4 ≤ a → 4 ≤ b → 4 ≤ c → 4 ≤ d → a ≤ 64 → b ≤ 64 → c ≤ 64 → d ≤ 64 → a + b + c + d ≤ 128 →
      ∃ u, exec (.dynBufWrite t v) s = .next u ∧ u.rd Reg.DYN_BUF_BUF_REQ t.val = a ∧ u.rd Reg.DYN_BUF_BUF_RSP t.val = b ∧
        u.rd Reg.DYN_BUF_BUF_CHN t.val = c ∧ u.rd Reg.DYN_BUF_BUF_SVC t.val = d) ∧
    (∀ (t : Tile) (port : BitVec 4) (cls : BitVec 2), (port.toNat < 6 ∨ (8 ≤ port.toNat ∧ port.toNat < 14)) → s.fab.clsOff = [] →
      let free := s.inSize t.val port.toNat cls.toNat - s.heldFlits t.val port.toNat cls.toNat * 256
      exec (.classOnOff (.base t port) cls false) s = .next
        (if free ≤ 5120 then { s with fab := { s.fab with clsOff := [(offKey t.val port.toNat cls.toNat, s.now + 1)] } } else s).pumpAll) ∧
    (∀ (p : Fin 32) (cls : BitVec 2), s.fab.clsOff = [] →
      exec (.classOnOff (.far p) cls true) s = .next
        (({ s with fab := { s.fab with clsOff := [(farKey p.val cls.toNat, s.now + 1)] } } : State).pumpAll))

/-- TRAINING_ATTEMPT, EXPRESS_RETRAIN, CARTRIDGE_FAULT, CARTRIDGE_RELEASE, CARTRIDGE_INSERT, INTERLOCK_OPEN. -/
def Obligations.TrainingAndLight : Prop :=
  ∀ s : State,
    (∀ (t : Tile) (l : Fin 11) (p : TrainIn), s.mayTrain t.val l.val = true → p.peer = none → let i := linkInst t.val l.val
      let n := mget 0 s.lnk.tries i + 1
      (n < 3 → ∃ u, exec (.trainingAttempt t l p) s = .next u ∧ u.rd Reg.LK_STATUS_ATTEMPT i = n ∧ u.rd Reg.LK_STATUS_STATE i = 1 ∧
        mget 0 u.lnk.tries i = n) ∧
      (n = 3 → l.val < 4 → s.sch.images = [] → ∃ u, exec (.trainingAttempt t l p) s = .next u ∧ u.rd Reg.LK_STATUS_STATE i = 3 ∧
        u.rd Reg.LK_STATUS_WIDTH_RX i = 0 ∧ u.rd Reg.LK_STATUS_GRP_RETIRED_TX i = 255 ∧ mget 0 u.lnk.tries i = 0)) ∧
    (∀ (t : Tile) (l : Fin 11) (p : TrainIn) (q : Proposal), s.mayTrain t.val l.val = true → l.val < 4 → p.peer = some q →
      propGood q (groupLanes l.val) = true → p.flitsOk = true → let i := linkInst t.val l.val
      let own := s.proposal t.val l.val (mget 0 s.lnk.tries i + 1) p.ownBad p.ownReset
      propAgrees own q = true →
      ∃ u, exec (.trainingAttempt t l p) s = .next u ∧ u.rd Reg.LK_STATUS_STATE i = 2 ∧
        u.rd Reg.LK_STATUS_WIDTH_RX i = 8 - (setBits (255 - own.groupsRx.toNat)).length ∧
        u.rd Reg.LK_STATUS_GRP_RETIRED_RX i = maskOf (setBits (255 - own.groupsRx.toNat)) ∧
        u.rd Reg.LK_STATUS_GRP_RETIRED_TX i = maskOf (setBits (255 - own.groupsTx.toNat)) ∧ mget 0 u.lnk.tries i = 0) ∧
    (∀ (t : Tile) (col : Bool) (tx rx : BitVec 32) (n : Nat), neighbour t.val (if col then 5 else 4) = some n →
      let b := if col then 2 else 0
      s.rd Reg.XP_STATUS_STATE (xpInst t.val b) = 1 → s.vlnk t.val = true → s.vlnk n = true →
      ∃ u, exec (.expressRetrain t col tx rx) s = .next u ∧
        u.rd Reg.XP_STATUS_STATE (xpInst t.val b) = (if 16 ≤ popcount tx.toNat 32 ∧ 16 ≤ popcount rx.toNat 32 then 2 else 3) ∧
        u.rd Reg.XP_CHAN_LIVE (xpInst t.val b) = tx.toNat ∧ u.rd Reg.XP_CHAN_LIVE (xpInst t.val (b + 1)) = rx.toNat) ∧
    (∀ c : Fin 4, let q := partner c.val
      let hand (st : Nat) : State :=
        let u := (((s.setCart c.val st 0).setCart q 3 100).bump Reg.LS_CART_TAKEOVERS 0 1 q)
        u.setLnk { u.lnk with takeover := mset 0 u.lnk.takeover (c.val / 2) (u.now + 1) }
      (s.rd Reg.LS_CART_STATE 0 c.val = 2 → s.rd Reg.LS_CART_STATE 0 q = 2 →
        exec (.cartridgeFault c) s = .next ((hand 5).faultRec { type := evLaser, d0 := c.val }) ∧
        (bitOf (s.rd Reg.LS_CTL_RELEASE 0) c.val = false → exec (.cartridgeRelease c) s = .next (hand 4)) ∧
        (s.lnk.bays.contains c.val = true → ∃ u, exec (.interlockOpen c) s = .next u ∧ u.lnk.bays.contains c.val = false ∧
          u.rd Reg.LS_CART_INTERLOCK 0 c.val = 0 ∧ u.rd Reg.LS_CART_STATE 0 c.val = 0 ∧ u.rd Reg.LS_CART_STATE 0 q = 3 ∧
          u.rd Reg.LS_CART_OUTPUT 0 q = 100)) ∧
      (∀ serial : BitVec 32, s.lnk.bays.contains c.val = false → 2 ≤ s.rd Reg.BU_STATUS_STATE 0 →
        (∃ u, exec (.cartridgeInsert c ⟨serial, false⟩) s = .next u ∧ u.rd Reg.LS_CART_SERIAL 0 c.val = serial.toNat ∧ u.free = s.free + 3 ∧
          u.rd Reg.LS_CART_STATE 0 c.val = 1 ∧ u.rd Reg.LS_CART_INTERLOCK 0 c.val = 1) ∧
        (s.rd Reg.LS_CART_STATE 0 q = 3 →
          ∃ u, exec (.cartridgeInsert c ⟨serial, true⟩) s = .next u ∧ u.rd Reg.LS_CART_SERIAL 0 c.val = serial.toNat ∧ u.free = s.free + 3 ∧
            u.rd Reg.LS_CART_STATE 0 c.val = 2 ∧ u.rd Reg.LS_CART_OUTPUT 0 c.val = 60 ∧ u.rd Reg.LS_CART_STATE 0 q = 2 ∧
            u.rd Reg.LS_CART_OUTPUT 0 q = 60)))

/-- REACH_TRAINING, REACH_RETIREMENT, REACH_ENABLE, INJECTION_ARM, INJECTION_EVENT. -/
def Obligations.ReachAndInjection : Prop :=
  ∀ s : State,
    (∀ (p : Fin 32) (x : ReachIn), s.host.inSystem = true → s.rd Reg.RP_CTL_ENABLE p.val ≠ 0 → s.rd Reg.RP_STATUS_STATE p.val = 1 →
      s.vlnk (reachHost p.val) = true → x.peer = true →
      (s.wellCabled p.val x = true → mget 0 s.lnk.mergedG (reachKey p.val) = 0 → x.ownGood = x.peerGood → reachWidth x.ownGood ≠ 0 →
        x.flitsOk = true →
        ∃ u, exec (.reachTraining p x) s = .next u ∧ u.rd Reg.RP_STATUS_STATE p.val = (if reachWidth x.ownGood = 8 then 2 else 3) ∧
          u.rd Reg.RP_STATUS_PEER_MODULE p.val = x.peerModule.toNat ∧ u.rd Reg.RP_STATUS_PEER_PORT p.val = x.peerPort.toNat) ∧
      (x.peerPort.toNat ≠ reachPeer p.val → ∃ u, exec (.reachTraining p x) s = .next u ∧ u.rd Reg.RP_STATUS_STATE p.val = 5 ∧
        u.rd Reg.RP_STATUS_PEER_PORT p.val = x.peerPort.toNat)) ∧
    (∀ (p : Fin 32) (symbols corrected uncorr flits : Nat), s.reachUp p.val = true →
      let u := (s.bump Reg.RP_FEC_UNCORR p.val uncorr).bumpW Reg.RP_FEC_CORRECTED p.val corrected
      let v := if flits = 0 then u
        else (u.bump Reg.RP_ERR_CRC_ERR p.val flits).setRx (reachKey p.val) { u.rx (reachKey p.val) with discarding := true }
      (16 ≤ uncorr → exec (.reachRetirement p (.fec symbols corrected uncorr flits)) s = .next
        ((((v.dropAsm p.val).wr Reg.RP_STATUS_STATE p.val 4).bump Reg.RP_ERR_DOWN_EVENTS p.val).faultRec
          { type := evReachDown, tile := reachHost p.val, d0 := p.val })) ∧
      (uncorr < 16 → 100000 * corrected ≤ 24 * symbols →
        exec (.reachRetirement p (.fec symbols corrected uncorr flits)) s = .next v)) ∧
    (∀ p : Fin 32, s.host.inSystem = true → s.reachUp p.val = false → 5 ≤ s.rd Reg.BU_STATUS_STATE 0 →
      exec (.reachEnable p) s = .next (((s.wr Reg.RP_CTL_ENABLE p.val 1).wr Reg.RP_STATUS_STATE p.val 1).wr Reg.RP_STATUS_ATTEMPT p.val 0)) ∧
    (∀ (t : Tile) (v : Word), s.injWritable = false → exec (.injectionArm t v) s = .next (s.wr Reg.LINJ_STATUS_REFUSED t.val 1)) ∧
    (∀ (t : Tile) (v : Word), let n := v.toNat / 2 ^ 27 % 2 ^ 16
      s.injWritable = true → 1 ≤ v.toNat % 16 → v.toNat % 16 ≤ 8 → v.toNat / 2 ^ 43 % 2 ^ 16 ≠ 0 → n ≠ 0 →
      ∃ u, exec (.injectionArm t v) s = .next u ∧ u.mem = s.mem ∧ u.rd Reg.LINJ_STATUS_ACTIVE t.val = 1 ∧ mget 0 u.lnk.injLeft t.val = n ∧
        u.rd Reg.LINJ_CTL_KIND t.val = v.toNat % 16 ∧ u.rd Reg.LINJ_CTL_PERIOD t.val = v.toNat / 2 ^ 43 % 2 ^ 16) ∧
    (∀ (t : Tile) (k : Nat), let target := s.rd Reg.LINJ_CTL_TARGET t.val
      s.rd Reg.LINJ_STATUS_ACTIVE t.val ≠ 0 → mget 0 s.lnk.injLeft t.val = k + 1 → mget 0 s.lnk.injLast t.val = 0 →
      injFits (s.rd Reg.LINJ_CTL_KIND t.val) target = true → s.rd Reg.LINJ_CTL_KIND t.val ≠ 4 →
      ∃ u, exec (.injectionEvent t) s = .next u ∧ u.mem = s.mem ∧ mget 0 u.lnk.injLeft t.val = k ∧
        u.rd Reg.LINJ_STATUS_ACTIVE t.val = (if k = 0 then 0 else 1) ∧
        u.rd Reg.LINJ_STATUS_INJECTED t.val = (s.rd Reg.LINJ_STATUS_INJECTED t.val + 1) % 2 ^ Reg.LINJ_STATUS_INJECTED.w ∧
        u.lnk.injNext = s.lnk.injNext ++ [((injAt t.val target (s.rd Reg.LINJ_CTL_PORT t.val)).1,
                                           (injAt t.val target (s.rd Reg.LINJ_CTL_PORT t.val)).2, s.rd Reg.LINJ_CTL_KIND t.val)]) ∧
    (∀ (t : Tile), let target := s.rd Reg.LINJ_CTL_TARGET t.val
      s.rd Reg.LINJ_STATUS_ACTIVE t.val ≠ 0 → mget 0 s.lnk.injLeft t.val ≠ 0 → mget 0 s.lnk.injLast t.val = 0 →
      s.rd Reg.LINJ_CTL_KIND t.val = 4 →
      ∃ u, exec (.injectionEvent t) s = .next u ∧ u.lnk.injNext = s.lnk.injNext ∧
        u.lnk.injLane = mset 0 s.lnk.injLane (injLaneKey t.val target (s.rd Reg.LINJ_CTL_PORT t.val) (s.rd Reg.LINJ_CTL_GROUP t.val)
          (s.rd Reg.LINJ_CTL_LANE t.val)) 3)

/-- CHURN_STAGE, NODE_HOLD_EXPIRY, CHURN_SINK_APPLY, WINDOW_DEADLINE, WINDOW_TAIL_LIMIT, CH_VAT_WRITE, CH_NODE_WRITE. -/
def Obligations.ChurnNodesAndSinks : Prop :=
  ∀ s : State,
    (∀ pid p n, s.pkt? pid = some p → p.op = opChurn → p.at_ < 36 → p.retryAt = none → p.held = false → p.headerOk = true →
      p.crcOk = true → s.nodeFor p = some n → s.rd Reg.CH_NODE_SKIM_NODE p.at_ n = 0 → 2 ≤ s.rd Reg.CH_NODE_EXPECT p.at_ n →
      s.ren.staged = [] → p.payload.length ≤ 2 ^ 22 →
      let b := chBlock p.payload
      let part : Part := ⟨partPort p, p.src, w64 b.mask, b.count, b.scale, b.fmt, b.uncomb, b.ovf, p.rmode, p.route, p.hop, p.skim,
        p.seq, p.opid, p.payload.drop 32⟩
      exec (.churnStage pid) s = .next
        ((s.setStaged p.at_ [⟨p.at_, n, p.vat, b.tree, b.step, p.daddr, p.dmod, p.dtile, [part], 1, s.now, none⟩]).ackDrop p).pumpAll) ∧
    (∀ (t : Tile) (node : BitVec 6) (g : Staged), s.ren.staged = [g] → g.t = t.val → g.node = node.toNat → g.sent = none →
      s.rd Reg.CH_NODE_SKIM_NODE t.val node.toNat = 0 →
      let h := s.rd Reg.CH_NODE_HOLD t.val node.toNat
      (g.since + (if h = 0 then 90000000 else 9000 * h) ≤ s.now → exec (.nodeHoldExpiry t node) s = .next (s.forwardStaged g)) ∧
      (s.now < g.since + (if h = 0 then 90000000 else 9000 * h) → exec (.nodeHoldExpiry t node) s = .next s)) ∧
    (∀ pid p k la core d q u v, s.pkt? pid = some p → p.op = opChurn → p.retryAt = none → p.held = false → s.arrived p = true →
      s.nodeFor p = none → p.headerOk = true →
      let b := chBlock p.payload
      let a := pailAddr p.daddr.toNat
      let elems := p.payload.drop 32
      let log (c : Nat) : Option Nat := (s.sinkChunk p.at_ k a (fmtMode b.fmt) elems.length).bind fun i => s.sinkLog p.at_ k c i
      let off := (s.pail core a.pail).base + a.off
      s.sinkOf p.at_ p.vat b.tree a.id = some k → log core = some la →
      s.judgeCore p a.id (fun c => (s.pail c a.pail).takes false true a.off elems.length && (log c).isSome) = (.go, core) →
      s.downOpen p (cluOfCore core) = true → s.down p (cluOfCore core) = (d, some q) → q.at_ = p.at_ → q.payload = p.payload →
      d.rd Reg.CH_SINK_SKIM_EN p.at_ k = 0 → d.win? p.at_ (64 + k) = none → d.ren.closed = [] →
      let w : Window := ⟨p.at_, 64 + k, q.vat, b.tree, b.step, d.now, 0, w64 b.mask, 0, 0, b.scale, fmtMode b.fmt, false⟩
      State.readScr { d with ren := { d.ren with wins := d.ren.wins ++ [w] } } core la 16 4 = (u, true) →
      u.readScr core off elems.length 4 = (v, true) → v.win? p.at_ (64 + k) = some w →
      exec (.churnSinkApply pid) s = .next (((v.sinkApply core off la w b elems).ackDrop q).trySink w).pumpAll) ∧
    (∀ (t : Tile) (node : BitVec 6) (w : Window) (g : Staged), s.win? t.val node.toNat = some w → w.passed = false → w.past s.now 1 = true →
      (s.stagedAt t.val node.toNat fun g => g.step == w.step) = [g] →
      exec (.windowDeadline t (.node node)) s = .next ((s.setWin { w with passed := true }).forwardStaged g)) ∧
    (∀ (t : Tile) (node : BitVec 6) (w : Window), s.win? t.val node.toNat = some w → w.past s.now 2 = true → s.ren.staged = [] →
      ∃ u, exec (.windowTailLimit t (.node node)) s = .next u ∧ u.win? t.val node.toNat = none ∧
        mget 0 u.ren.closed (ptKey t.val node.toNat) = w.step + 1 ∧ u.mem = s.mem ∧ u.fab = s.fab) ∧
    (∀ (vat : BitVec 8) (v : Word), let mode := v.toNat % 4
      let skim := v.toNat / 4 % 2 ^ 14
      (mode ≠ 3 → skim ≤ 10000 → ∃ u, exec (.chVatWrite vat v) s = .next u ∧ ∀ t : Tile,
        u.rd Reg.CH_VAT_MODE t.val vat.toNat = mode ∧ u.rd Reg.CH_VAT_SKIM t.val vat.toNat = skim) ∧
      (mode = 3 ∨ 10000 < skim → exec (.chVatWrite vat v) s = .next (s.wr Reg.CH_STAGE_CFG_CLAMP 0 1))) ∧
    (∀ (t : Tile) (node : BitVec 6) (v : Word), let n := node.toNat
      (v.toNat / 2 ^ 17 % 16 = 0 → exec (.chNodeWrite t node v) s = .next (s.wr Reg.CH_STAGE_CFG_CLAMP t.val 1)) ∧
      (v.toNat / 2 ^ 17 % 16 ≠ 0 → ∃ u, exec (.chNodeWrite t node v) s = .next u ∧ u.rd Reg.CH_NODE_VALID t.val n = v.toNat % 2 ∧
        u.rd Reg.CH_NODE_VAT t.val n = v.toNat / 2 % 256 ∧ u.rd Reg.CH_NODE_TREE t.val n = v.toNat / 2 ^ 9 % 256 ∧
        u.rd Reg.CH_NODE_EXPECT t.val n = v.toNat / 2 ^ 17 % 16 ∧ u.rd Reg.CH_NODE_SKIM_NODE t.val n = v.toNat / 2 ^ 21 % 2 ∧
        u.rd Reg.CH_NODE_HOLD t.val n = v.toNat / 2 ^ 22 % 2 ^ 14))

/-- EXP_LOCAL_WRITE, SEAL. -/
def Obligations.ExponentLanes : Prop :=
  ∀ (s : State) (m lane : BitVec 6), m.toNat = s.ownMod →
    (∀ exp tag : BitVec 16, ∃ u, exec (.expLocalWrite m lane exp tag) s = .next u ∧ u.mem = s.mem ∧
      u.rd Reg.EXP_LOCAL_EXP 0 lane.toNat = exp.toNat ∧ u.rd Reg.EXP_LOCAL_TAG 0 lane.toNat = tag.toNat ∧
      mget 0 u.ren.expMod (lane.toNat * 64 + m.toNat) = exp.toNat * 65536 + tag.toNat + 1 ∧
      ((s.seal? lane.toNat tag.toNat).isSome = true → u.ren.seals = s.ren.seals)) ∧
    (∀ tag, tag = s.rd Reg.EXP_LOCAL_TAG 0 lane.toNat →
      (s.laneVat lane.toNat ≠ none → s.seal? lane.toNat tag = none → ∃ u, exec (.seal m lane) s = .next u ∧
        u.seal? lane.toNat tag = some ⟨tag, s.laneExp lane.toNat tag, s.laneTagged lane.toNat tag, s.laneFull lane.toNat tag⟩ ∧
        u.regs = (s.wr Reg.EXP_LOCAL_SEAL 0 1 lane.toNat).regs) ∧
      ((s.seal? lane.toNat tag).isSome = true → exec (.seal m lane) s = .next (s.wr Reg.EXP_LOCAL_SEAL 0 1 lane.toNat))) ∧
    (∀ e : Seal, s.seal? lane.toNat (s.rd Reg.EXP_LOCAL_TAG 0 lane.toNat) = some e →
      s.expGlobal lane.toNat = e.exp + e.tag * 2 ^ 16 + b2n e.full * 2 ^ 32 + e.included.length * 2 ^ 33 + 2 ^ 40 +
        b2n (e.included.contains s.ownMod) * 2 ^ 41)

/-- REFERENCE_SWITCH, REFERENCE_BOTH_FAIL, PLL_LOSS_OF_LOCK, PLL_RETURN, NO_CLOCK_SOURCE, STRETCH_EVENT, MARGIN_WARNING, VLOG_TRIM,
DIV_REQ. -/
def Obligations.ClocksAndMargins : Prop :=
  ∀ s : State,
    (4 ≤ s.rd Reg.BU_STATUS_STATE 0 →
      exec .referenceSwitch s = .next ((s.wr Reg.TM_STATUS_REF_SEL 0 (1 - s.rd Reg.TM_STATUS_REF_SEL 0)).bump Reg.TM_EVENTS_REF_SWITCHES 0) ∧
      (s.pwr.lossAt = none → exec .referenceBothFail s = .next s.declareLoss ∧ s.declareLoss.boot.stored.cleanPower = false)) ∧
    (∀ t : Tile, s.clk.started = true → s.vlnk t.val = true →
      (s.rd Reg.CK_STATUS_SOURCE t.val = 0 → s.rd Reg.CK_STATUS_PLL_LOCK t.val = 1 → s.clk.unlocks = [] → s.clk.pllOut = [] → s.clk.pllBack = [] →
        let c : State := { s with clk := { s.clk with unlocks := mset [] [] t.val [s.now] } }
        let v := (c.wr Reg.CK_STATUS_PLL_LOCK t.val 0).bump Reg.CK_EVENTS_UNLOCKS t.val
        (v.pickSource t.val = none → exec (.pllLossOfLock t) s = .next v) ∧
        ((v.pickSource t.val).isSome = true → exec (.pllLossOfLock t) s = .next
          ((State.askHold { v with clk := { v.clk with pllOut := [t.val] } } t.val).faultRec { type := evClockFallback, tile := t.val }))) ∧
      (s.rd Reg.CK_STATUS_SOURCE t.val ≠ 0 → s.rd Reg.CK_STATUS_PLL_RETIRED t.val = 0 → s.clk.pllBack = [] → s.clk.unlocks = [] → 90000 ≤ s.now →
        exec (.pllReturn t) s = .next
          (State.askHold (State.wr { s with clk := { s.clk with pllBack := [t.val] } } Reg.CK_STATUS_PLL_LOCK t.val 1) t.val)) ∧
      (s.rd Reg.CK_STATUS_PLL_LOCK t.val = 0 → s.pickSource t.val = none → exec (.noClockSource t) s = .next (s.tileDown t.val 4 0 evVlnkLost)) ∧
      (∀ r : PathReport, r.site = 7 → r.path.val < 8 → r.broken = false → s.rd Reg.CK_SITE_REPLICA_BAD t.val 7 = 0 →
        let n := stretchSize (s.rd Reg.CK_CTL_STRETCH_TH t.val) r.slack.toNat
        ∃ u, exec (.stretchEvent t [r]) s = .next u ∧ u.mem = s.mem ∧ u.rd Reg.CK_STATUS_MARGIN t.val = r.slack.toNat ∧
          u.rd Reg.CK_SITE_MIN_MARGIN t.val 7 = min (s.rd Reg.CK_SITE_MIN_MARGIN t.val 7) r.slack.toNat ∧
          (n = 0 → u.rd Reg.SCH_STRETCH_S_SLOT t.val = s.rd Reg.SCH_STRETCH_S_SLOT t.val) ∧
          (n ≠ 0 → mget 0 s.sch.events t.val < 3 → u.rd Reg.SCH_STRETCH_S_SLOT t.val = (s.rd Reg.SCH_STRETCH_S_SLOT t.val + n) % 16 ∧
            mget 0 u.sch.events t.val = mget 0 s.sch.events t.val + 1)) ∧
      (∀ low stretches, s.rd Reg.CK_STATUS_MARGIN_WARN t.val = 0 → (1800 < low ∨ 256 < stretches) →
        ∃ u, exec (.marginWarning t low stretches) s = .next u ∧ u.rd Reg.CK_STATUS_MARGIN_WARN t.val = 1 ∧
          u.rd Reg.CK_EVENTS_WARNINGS t.val = min (s.rd Reg.CK_EVENTS_WARNINGS t.val + 1) 65535 ∧ mget 0 u.clk.warnSince t.val = s.now + 1) ∧
      (∀ set : BitVec 2, ∃ u, exec (.divReq t set) s = .next u ∧ u.rd Reg.CK_CTL_DIV_REQ t.val = set.toNat ∧
        (s.divBlocked t.val = true → u.rd Reg.CK_STATUS_CHANGING t.val = 1 ∧ mget 0 u.clk.divWait t.val = set.toNat + 1) ∧
        (s.divBlocked t.val = false → u.rd Reg.CK_STATUS_CHANGING t.val = 0 ∧ u.rd Reg.CK_STATUS_SETTING t.val = set.toNat ∧
          u.rd Reg.PW_DOM_SETPOINT t.val 0 = min 850 (vlogNominal set.toNat + s.rd Reg.CK_STATUS_VTRIM t.val) ∧
          u.rd Reg.PW_DOM_SETPOINT t.val 1 = vmemNominal set.toNat))) ∧
    (∀ (t : Tile) (w : Nat), isWhey s.slotIx = true → mget 0 s.clk.warnSince t.val = w + 1 → w + 900000 ≤ s.now → s.rd Reg.CK_STATUS_VTRIM t.val < 30 →
      ∃ u, exec (.vlogTrim t) s = .next u ∧ u.rd Reg.CK_STATUS_VTRIM t.val = s.rd Reg.CK_STATUS_VTRIM t.val + 5 ∧ u.mem = s.mem)

/-- SLOT_BOUNDARY, HELD_SLOT, SKEW_TRIM, SKEW_ALARM, TIME_EXCHANGE, TIME_MASTER_CHANGE, TIME_HOLDOVER. -/
def Obligations.SlotsSkewAndTime : Prop :=
  ∀ s : State,
    (s.clk.started = true → s.sch.evWait = [] → s.clk.divWait = [] → s.flt.migrs = [] → s.boot.rstWait = none → s.host.disables = [] →
      s.lnk.chanDue = [] → s.sch.injDue = [] →
      (s.sch.inHeld = false → ∃ u, exec .slotBoundary s = .next u ∧ u.mem = s.mem ∧
        (s.sch.holdAt ≠ some (s.sch.slots + 1) → u.sch.slots = s.sch.slots + 1 ∧ u.sch.inHeld = false) ∧
        (s.sch.holdAt = some (s.sch.slots + 1) → u.sch.slots = s.sch.slots ∧ u.sch.inHeld = true ∧ u.sch.holdAt = none) ∧
        (isWhey s.slotIx = false → u.sch.stage = s.sch.stageIn ∧ u.sch.stageIn = []) ∧
        ∀ t : Tile, let n := s.rd Reg.SCH_STRETCH_DEFICIT t.val + s.rd Reg.SCH_STRETCH_S_SLOT t.val
          u.rd Reg.SCH_STRETCH_DEFICIT t.val = (n - 4 * min 2 (n / 4)) % 64 ∧ u.rd Reg.SCH_STRETCH_S_SLOT t.val = 0) ∧
      (s.sch.inHeld = true → s.clk.pllOut = [] → s.clk.pllBack = [] → ∃ u, exec .heldSlot s = .next u ∧ u.mem = s.mem ∧
        u.sch.slots = s.sch.slots + 1 ∧ u.sch.inHeld = false ∧ ∀ t : Tile, u.rd Reg.SCH_STRETCH_DEFICIT t.val = 0)) ∧
    (∀ (t : Tile) (e : Fin 4), s.edgeLive t.val e.val = true →
      (∀ m : Int, isWhey s.slotIx = false → -127 ≤ m → m ≤ 127 →
        exec (.skewTrim t e m) s = .next (s.wr Reg.CK_SKEW_SKEW t.val (ofSigned 8 m) e.val)) ∧
      (∀ m : Int, isWhey s.slotIx = true → -127 ≤ m → m ≤ 127 →
        let l := clampInt 120 (toSigned 8 (s.rd Reg.CK_SKEW_TRIM t.val e.val) - clampInt 4 m)
        ∃ u, exec (.skewTrim t e m) s = .next u ∧ toSigned 8 (u.rd Reg.CK_SKEW_SKEW t.val e.val) = m ∧
          toSigned 8 (u.rd Reg.CK_SKEW_TRIM t.val e.val) = l ∧
          (-35 ≤ m → m ≤ 35 → u.rd Reg.CK_SKEW_SKEW_ALARM t.val e.val = 0)) ∧
      (35 < toSigned 8 (s.rd Reg.CK_SKEW_SKEW t.val e.val) → toSigned 8 (s.rd Reg.CK_SKEW_TRIM t.val e.val) = -120 →
        mget 0 s.clk.skewSince (t.val * 4 + e.val) = 0 →
        ∃ u, exec (.skewAlarm t e false) s = .next u ∧ u.rd Reg.CK_SKEW_SKEW_ALARM t.val e.val = 1 ∧
          u.rd Reg.CK_SKEW_ALARMS t.val e.val = min (s.rd Reg.CK_SKEW_ALARMS t.val e.val + 1) 65535 ∧
          mget 0 u.clk.skewSince (t.val * 4 + e.val) = s.now + 1)) ∧
    (s.hasParent = true → ∀ (p : Nat) (offset rate : Int), s.parentPort = some p → -2 ^ 31 ≤ offset → offset < 2 ^ 31 → -100000 ≤ rate →
      rate ≤ 100000 → ∃ u, exec (.timeExchange offset rate) s = .next u ∧ u.rd Reg.TM_STATUS_HOLDOVER 0 = 0 ∧
        toSigned 32 (u.rd Reg.TM_SERVO_RATE 0) = rate ∧
        (s.clk.synced = true → u.now = s.now ∧ toSigned 32 (u.rd Reg.TM_SERVO_OFFSET 0) = offset ∧
          (u.rd Reg.TM_STATUS_LOCKED 0 = 1 ↔ -2000 ≤ offset ∧ offset ≤ 2000)) ∧
        (s.clk.synced = false → s.rd Reg.BU_STATUS_STATE 0 ≠ 12 → u.now = ((s.now : Int) + offset * 9 / 10000).toNat % 2 ^ 64 ∧
          u.clk.synced = true ∧ u.rd Reg.TM_SERVO_OFFSET 0 = 0 ∧ u.rd Reg.TM_STATUS_LOCKED 0 = 1)) ∧
    (s.hasParent = true → s.parentPort = none → s.rd Reg.TM_STATUS_HOLDOVER 0 = 0 →
      exec .timeHoldover s =
        .next (((s.wr Reg.TM_STATUS_HOLDOVER 0 1).wr Reg.TM_STATUS_LOCKED 0 0).bump Reg.TM_EVENTS_HOLDOVERS 0)) ∧
    (∀ up : List Nat, s.host.inSystem = true → s.ownMod < 64 → (∀ m ∈ up, s.ownMod ≤ m) →
      ∃ u, exec (.timeMasterChange up) s = .next u ∧ u.now = s.now ∧ u.rd Reg.TM_STATUS_MASTER_MODULE 0 = s.ownMod ∧
        u.rd Reg.TM_STATUS_MASTER 0 = 1 ∧ u.rd Reg.TM_STATUS_LOCKED 0 = 1)

/-- ADMISSION_EVALUATION, METER_TICK, CAP_W_WRITE, ENERGY_WINDOW_START, THROTTLE_FRAME, OVER_CLAIM, MODULE_THROTTLE, TILE_LIMITER,
POWER_FORECAST. -/
def Obligations.EnergyLedger : Prop :=
  ∀ s : State,
    (∀ w : BitVec 15, (4000 ≤ w.toNat → w.toNat ≤ 17500 → ∃ u, exec (.capWWrite w) s = .next u ∧ u.rd Reg.LG_CAP_CAP_W 0 = w.toNat ∧
        u.pwr.budget = s.rd Reg.LG_USED_USED 0 + min w.toNat 16000 * s.windowLeft ∧ u.mem = s.mem) ∧
      (w.toNat < 4000 ∨ 17500 < w.toNat → exec (.capWWrite w) s = .next (s.wr Reg.LG_CAP_CFG_CLAMP 0 1))) ∧
    (s.pwr.winStart + 900000000 ≤ s.now → s.pwr.admitQ = [] → (∀ v ∈ s.vats, v.granted = false) → ∃ u, exec .energyWindowStart s = .next u ∧
      u.rd Reg.LG_WIN_WINDOW 0 = (s.rd Reg.LG_WIN_WINDOW 0 + 1) % 2 ^ 32 ∧ u.rd Reg.LG_USED_USED 0 = 0 ∧ u.pwr.budget = s.capBudget ∧
      u.pwr.winStart = s.pwr.winStart + 900000000 ∧ u.pwr.overheadLast = some s.pwr.overhead) ∧
    (∀ id v, s.pwr.admitQ = [id] → s.vat? id = some v → (∀ w ∈ s.vats, w.granted = false) →
      ((s.rd Reg.LG_VAT_CLAIM 0 id * 1000 : Int) ≤ s.left →
        exec .admissionEvaluation s = .next (State.openStep { s with pwr := { s.pwr with admitQ := [] } } v)) ∧
      (s.left < (s.rd Reg.LG_VAT_CLAIM 0 id * 1000 : Int) → v.waitingSince = none →
        exec .admissionEvaluation s = .next ((s.setVat { v with waitingSince := some s.now }).bump Reg.LG_MOD_DEFERRALS 0))) ∧
    (∀ x : EnergySample, s.cellOn x.tile.val = true → x.dies.length = 7 → x.dies.sum ≤ x.cell → ∃ u, exec (.meterTick [x]) s = .next u ∧
      u.mem = s.mem ∧ u.rd Reg.PW_ENERGY_ENERGY x.tile.val = (s.rd Reg.PW_ENERGY_ENERGY x.tile.val + x.cell) % 2 ^ 64 ∧
      u.rd Reg.LG_USED_USED 0 = min (s.rd Reg.LG_USED_USED 0 + x.cell) (2 ^ 48 - 1) ∧
      u.pwr.overheadTicks = s.pwr.overheadTicks + 1 ∧ ((∀ e ∈ x.dies, e = 0) → u.pwr.overhead = s.pwr.overhead + x.cell)) ∧
    (∃ u, exec .throttleFrame s = .next u ∧ u.mem = s.mem ∧
      (s.pwr.throttled = [] → ∀ v ∈ s.ledVats, s.sch.slots / 256 % 8 < s.levelOf v → ∀ c ∈ s.engines [v.id], (u.core c).held = true) ∧
      ((∀ v ∈ s.ledVats, s.levelOf v ≤ s.sch.slots / 256 % 8) → ∀ c ∈ s.pwr.throttled, (u.core c).held = false)) ∧
    (∀ (id : BitVec 8) (v : Vat), s.led? id.toNat = some v →
      (s.rd Reg.LG_VAT_OVER 0 id.toNat = 0 → ∀ t, v.overSince = some t → t + 9000000 ≤ s.now →
        ∃ u, exec (.overClaim id) s = .next u ∧ u.rd Reg.LG_VAT_OVER 0 id.toNat = 1 ∧ (u.led? id.toNat).map Vat.level = some 2 ∧
          u.rd Reg.LG_VAT_THROTTLES 0 id.toNat = min (s.rd Reg.LG_VAT_THROTTLES 0 id.toNat + 1) 65535) ∧
      (s.rd Reg.LG_VAT_OVER 0 id.toNat ≠ 0 → v.raisedAt + 900000 ≤ s.now →
        ∃ u, exec (.overClaim id) s = .next u ∧ (u.led? id.toNat).map Vat.level = some (min 7 (v.level + 1)))) ∧
    (∀ p500 p10 vin iin : Nat, let lim := (s.readInput vin iin).powerLimit
      ∃ u, exec (.moduleThrottle (p500, p10) (vin, iin)) s = .next u ∧ u.rd Reg.LG_MOD_P500 0 = min p500 65535 ∧
      u.rd Reg.IN_STATUS_VIN 0 = min vin 65535 ∧ u.rd Reg.IN_STATUS_IIN 0 = min iin 4095 ∧
      (17500 < p10 → u.rd Reg.LG_MOD_MOD_LEVEL 0 = 7) ∧
      (p10 ≤ 17500 → lim < p500 → s.rd Reg.LG_MOD_MOD_LEVEL 0 = 0 → u.rd Reg.LG_MOD_MOD_LEVEL 0 = 4) ∧
      (p10 ≤ 17500 → 100 * p500 < 95 * lim → ∀ l, s.rd Reg.LG_MOD_MOD_LEVEL 0 = l + 1 → l < 7 → s.pwr.modAt + 900000 ≤ s.now →
        u.rd Reg.LG_MOD_MOD_LEVEL 0 = l)) ∧
    (∀ (t : Tile) (inst p10 p1 : Nat), ∃ u, exec (.tileLimiter t inst p10 p1) s = .next u ∧ u.mem = s.mem ∧
      u.rd Reg.PW_POWER_P1MS t.val = min p1 65535 ∧
      (s.pwr.limiting = [] → (900 < inst ∨ 600 < p10) → u.pwr.limiting = [t.val] ∧ u.rd Reg.PW_STATUS_LIMITING t.val = 1 ∧
        u.rd Reg.PW_POWER_LIMIT_EVENTS t.val = min (s.rd Reg.PW_POWER_LIMIT_EVENTS t.val + 1) 65535) ∧
      (s.pwr.limiting = [t.val] → s.pwr.hot = [] → p1 < 570 → u.pwr.limiting = [] ∧ u.rd Reg.PW_STATUS_LIMITING t.val = 0)) ∧
    exec .powerForecast s = .next (s.wr Reg.TR_FCST_P_FCST 0
      (min (((s.ledVats.filter fun v => v.stepOpen && v.parent == 0).map Vat.lastPower).sum + s.overheadRate / 10 ^ 6) 65535))

/-- BUSBAR_MATE, ENABLE_PIN_MATE, ENABLE_PIN_BREAK, PRECHARGE, PRECHARGE_TIMEOUT, COOLANT_WAIT_END, INPUT_DIP, INPUT_LOSS,
INPUT_LOSS_CELL_OFF, INPUT_RETURN, OVERCURRENT_TRIP, OVERVOLTAGE_TRIP, OVERVOLTAGE_RECOVERY. -/
def Obligations.InputAndFuse : Prop :=
  ∀ s : State,
    (s.pwr.pin = false → ∃ u, exec .busbarMate s = .next u ∧ u.pwr.mated = true ∧ u.pwr.inputGone = false ∧ u.tray.cutAt = none ∧
      u.rd Reg.IN_STATUS_EFUSE 0 = 0 ∧ u.rd Reg.RM_STATUS_PHASE 0 = 0 ∧ u.rd Reg.RM_STATUS_LATCH_OPEN 0 = 0 ∧ u.rd Reg.TR_CMP_LOCKOUT 0 = 0) ∧
    (s.pwr.mated = true → exec .enablePinMate s = .next { s with pwr := { s.pwr with pin := true } } ∧
      exec .inputReturn s = .next { s with pwr := { s.pwr with inputGone := false } }) ∧
    (s.pwr.pin = true → s.fuseLive = true → s.rd Reg.RM_STATUS_LATCH_OPEN 0 = 1 → ∃ u, exec .enablePinBreak s = .next u ∧
      u.pwr.pin = false ∧ u.pwr.lossAt = s.pwr.lossAt ∧ u.rd Reg.IN_STATUS_EFUSE 0 = 0 ∧
      u.rd Reg.IN_EVENTS_TRIPS 0 = min (s.rd Reg.IN_EVENTS_TRIPS 0 + 1) 65535) ∧
    (s.mayPrecharge = true → ∀ vin vbulk flow inlet : Nat,
      (vbulk + 2000 < vin → ∃ u, exec (.precharge vin vbulk flow inlet) s = .next u ∧ u.rd Reg.IN_STATUS_EFUSE 0 = 1 ∧
        u.rd Reg.BU_STATUS_STATE 0 = 1 ∧ u.pwr.precharge = some s.age) ∧
      (vin ≤ vbulk + 2000 → ∃ u, exec (.precharge vin vbulk flow inlet) s = .next u ∧ u.rd Reg.IN_STATUS_EFUSE 0 = 2 ∧ u.pwr.precharge = none ∧
        (u.rd Reg.IN_STATUS_COOLANT_WAIT 0 = 0 ↔ 240 ≤ flow ∧ 200 ≤ inlet ∧ inlet ≤ 450))) ∧
    (∀ t, s.pwr.precharge = some t → t + 135000000 ≤ s.age → ∃ u, exec .prechargeTimeout s = .next u ∧ u.rd Reg.IN_STATUS_EFUSE 0 = 3 ∧
      u.rd Reg.IN_STATUS_LAST_TRIP 0 = 3 ∧ u.vats = [] ∧ u.pwr.precharge = none) ∧
    (s.rd Reg.IN_STATUS_COOLANT_WAIT 0 = 1 → ∀ flow inlet : Nat, 240 ≤ flow → 200 ≤ inlet → inlet ≤ 450 →
      ∃ u, exec (.coolantWaitEnd flow inlet) s = .next u ∧ u.rd Reg.IN_STATUS_COOLANT_WAIT 0 = 0 ∧ u.boot.enteredAt = s.age) ∧
    (s.fuseLive = true → exec .inputDip s = .next (s.bump Reg.IN_EVENTS_DIPS 0) ∧
      (∃ u, exec .overcurrentTrip s = .next u ∧ u.rd Reg.IN_STATUS_EFUSE 0 = 3 ∧ u.rd Reg.IN_STATUS_LAST_TRIP 0 = 1 ∧ u.vats = [] ∧
        u.boot.stored.cleanPower = false) ∧
      (∃ u, exec .overvoltageTrip s = .next u ∧ u.rd Reg.IN_STATUS_EFUSE 0 = 0 ∧ u.rd Reg.IN_STATUS_LAST_TRIP 0 = 2 ∧
        u.pwr.ovAt = some s.age) ∧
      (s.pwr.lossAt = none → ∀ u : State, u = { s with pwr := { s.pwr with inputGone := true, ovAt := none } } →
        exec .inputLoss s = .next ((u.bump Reg.IN_EVENTS_LOSSES 0).wr Reg.IN_STATUS_LAST_TRIP 0 4).declareLoss)) ∧
    (∀ t, s.pwr.ovAt = some t → t + 90000000 ≤ s.age → s.pwr.pin = true → s.pwr.inputGone = false → s.pwr.lossAt = none →
      s.rd Reg.IN_STATUS_EFUSE 0 = 0 → s.tray.cutAt = none → s.rd Reg.TR_CMP_LOCKOUT 0 = 0 → s.rd Reg.RM_STATUS_PHASE 0 = 0 →
      ∃ u, exec .overvoltageRecovery s = .next u ∧ u.rd Reg.IN_STATUS_EFUSE 0 = 1 ∧ u.pwr.ovAt = none ∧ u.pwr.precharge = some s.age) ∧
    (∀ t, s.pwr.lossAt = some t → t + 522000 ≤ s.age → ∃ u, exec .inputLossCellOff s = .next u ∧ u.rd Reg.IN_STATUS_EFUSE 0 = 0 ∧
      u.vats = [] ∧ u.cmp = {} ∧ u.fab = {} ∧ u.pwr.lossAt = none ∧ u.rd Reg.BU_STATUS_STATE 0 = 0)

/-- CELL_SHORT, VLNK_LOSS, VLNK_FEED_LOSS, SENSOR_EXCLUSION, HEARTBEAT, HEARTBEAT_LOSS, REMOVE_REQUEST, DRAIN_DONE, DRAIN_TIMEOUT,
LATCH_RELEASE, DISCHARGE_FAILURE. -/
def Obligations.CellsAndRemoval : Prop :=
  ∀ s : State,
    (∀ (t : Tile) (under : Bool), s.cellOn t.val = true →
      let d := (((s.wr Reg.PW_STATUS_CELL t.val 3).wr Reg.PW_STATUS_TRIP t.val (if under then 2 else 1)).wr Reg.PW_STATUS_FEED_OWN t.val 0).diesDark
        t.val
      let r := ((d.1.recEach d.2 { type := evRailShort, tile := t.val }).powerDirty).dropFeeds t.val
      (r.1.rd Reg.PW_STATUS_FEED_ALT t.val = 1 → exec (.cellShort t under) s =
        .next (State.downAll 36 r.2 (r.1.wr Reg.PW_STATUS_VLNK_RED t.val 1))) ∧
      (r.1.rd Reg.PW_STATUS_FEED_ALT t.val ≠ 1 → exec (.cellShort t under) s = .next (State.downAll 36 (t.val :: r.2) r.1))) ∧
    (∀ t : Tile, s.vlnk t.val = false → exec (.heartbeat t) s = .next s ∧ exec (.heartbeatLoss t) s = .next s) ∧
    (∀ t : Tile, s.vlnk t.val = true →
      (∀ under : Bool, exec (.vlnkLoss t under) s = .next (s.tileDown t.val 4 (if under then 4 else 3) evVlnkLost)) ∧
      (s.rd Reg.PW_STATUS_FEED_ALT t.val = 1 →
        exec (.vlnkFeedLoss t true) s = .next ((s.wr Reg.PW_STATUS_FEED_OWN t.val 0).wr Reg.PW_STATUS_VLNK_RED t.val 1)) ∧
      (s.rd Reg.PW_STATUS_FEED_OWN t.val = 1 →
        exec (.vlnkFeedLoss t false) s = .next ((s.wr Reg.PW_STATUS_FEED_ALT t.val 0).wr Reg.PW_STATUS_VLNK_RED t.val 1)) ∧
      (s.rd Reg.PW_STATUS_FEED_ALT t.val = 0 → exec (.vlnkFeedLoss t true) s = .next
        (((s.wr Reg.PW_STATUS_FEED_OWN t.val 0).wr Reg.PW_STATUS_VLNK_RED t.val 1).tileDown t.val 4 4 evVlnkLost)) ∧
      exec (.heartbeat t) s = .next { s with flt := { s.flt with beats := mset 0 s.flt.beats t.val (s.now + 1) } } ∧
      (∀ b, s.cellOn t.val = true → s.vlnk (altFeed t.val) = true → mget 0 s.flt.beats t.val = b + 1 → b + 90000 ≤ s.now →
        exec (.heartbeatLoss t) s = .next (s.tileDown t.val 4 0 evTileCtlLost)) ∧
      (∀ b, mget 0 s.flt.beats t.val = b + 1 → s.now < b + 90000 → exec (.heartbeatLoss t) s = .next s)) ∧
    (∀ (t : Tile) (dom : Fin 5) (mv : List Nat), s.cellOn t.val = true → mv.length = 64 →
      let n := (mv.filter fun x => decide (2 * x + 160 < median2 mv)).length
      ∀ v : State, v = ((s.wr Reg.PW_DOM_MIN_MV t.val ((mv.filter fun x => !decide (2 * x + 160 < median2 mv)).foldl min 4095) dom.val).wr
          Reg.PW_DOM_MIN_SENSOR t.val (mv.findIdx (· == (mv.filter fun x => !decide (2 * x + 160 < median2 mv)).foldl min 4095)) dom.val).wr
          Reg.PW_DOM_EXCLUDED t.val n dom.val →
        (n ≤ 8 ∨ s.rd Reg.PW_STATUS_SENSOR_BAD t.val ≠ 0 → exec (.sensorExclusion t dom mv) s = .next v) ∧
        (8 < n → s.rd Reg.PW_STATUS_SENSOR_BAD t.val = 0 → exec (.sensorExclusion t dom mv) s =
          .next ((v.wr Reg.PW_STATUS_SENSOR_BAD t.val 1).faultRec { type := evSensorBad, tile := t.val, d0 := dom.val }))) ∧
    (s.rd Reg.RM_STATUS_PHASE 0 = 0 → s.pwr.mated = true →
      (s.fuseLive = false → ∃ u, exec .removeRequest s = .next u ∧ u.mem = s.mem ∧ u.rd Reg.RM_CTL_REQUEST 0 = 1 ∧
        u.rd Reg.RM_STATUS_PHASE 0 = 3 ∧ u.pwr.dischargeAt = some (s.pwr.dischargeAt.getD s.age)) ∧
      (s.fuseLive = true → s.rd Reg.BU_STATUS_STATE 0 ≠ 12 →
        exec .removeRequest s = .next ((s.wr Reg.RM_CTL_REQUEST 0 1).wr Reg.RM_CTL_DRAIN_DONE 0 0).shutDown) ∧
      (s.fuseLive = true → s.rd Reg.BU_STATUS_STATE 0 = 12 → s.vats ≠ [] → s.host.cmds = [] → ∃ u, exec .removeRequest s = .next u ∧
        u.rd Reg.RM_CTL_REQUEST 0 = 1 ∧ u.rd Reg.RM_CTL_DRAIN_DONE 0 = 0 ∧ u.rd Reg.RM_STATUS_PHASE 0 = 1 ∧ u.pwr.drainAt = some s.age ∧
        u.vats = s.vats)) ∧
    (s.rd Reg.RM_STATUS_PHASE 0 ≠ 1 → exec .drainDone s = .next (s.wr Reg.RM_CTL_DRAIN_DONE 0 1)) ∧
    (s.rd Reg.RM_STATUS_PHASE 0 = 1 → ∃ u, exec .drainDone s = .next u ∧ u.rd Reg.IN_STATUS_EFUSE 0 = 0 ∧ u.vats = [] ∧
      u.rd Reg.RM_STATUS_PHASE 0 = 3 ∧ u.tray.savedAt = s.age) ∧
    (∀ t, s.pwr.drainAt = some t → s.rd Reg.RM_STATUS_PHASE 0 = 1 → t + 900000000 * s.rd Reg.RM_CTL_DRAIN_TIMEOUT 0 ≤ s.age →
      (s.rd Reg.RM_CTL_FORCE 0 = 1 → exec .drainTimeout s =
        .next ((State.releaseVats { s with pwr := { s.pwr with drainAt := none } } (s.vats.map Vat.id)).shutDown)) ∧
      (s.rd Reg.RM_CTL_FORCE 0 = 0 → ∃ u, exec .drainTimeout s = .next u ∧ u.rd Reg.RM_STATUS_PHASE 0 = 5 ∧ u.rd Reg.RM_CTL_REQUEST 0 = 0 ∧
        u.pwr.drainAt = none ∧ u.vats = s.vats)) ∧
    (∀ vbulk : Nat, vbulk ≤ 12900 → s.rd Reg.RM_STATUS_PHASE 0 = 3 → s.pwr.inputGone = false → ∃ u, exec (.latchRelease vbulk) s = .next u ∧
      u.rd Reg.RM_STATUS_PHASE 0 = 4 ∧ u.rd Reg.RM_STATUS_LATCH_OPEN 0 = 1 ∧ u.rd Reg.IN_STATUS_VBULK 0 = vbulk ∧ u.pwr.dischargeAt = none) ∧
    (∀ vbulk t : Nat, 12900 < vbulk → s.pwr.dischargeAt = some t → t + 1800000000 ≤ s.age →
      exec (.dischargeFailure vbulk) s = .next ((s.wr Reg.IN_STATUS_VBULK 0 vbulk).wr Reg.RM_STATUS_PHASE 0 6))

/-- POWER_UP_RESERVATION, RESERVATION_GRANT, RESERVATION_TIMEOUT, RAMP_CHECK_POLL, RAMP_FAILURE. -/
def Obligations.DiePowerUp : Prop :=
  ∀ (s : State) (t : Tile),
    (∀ (p : PSite) (why : Nat), s.wantsPower t.val p.val = some why → exec (.powerUpReservation t p) s =
      .next { s with pwr := { s.pwr with ups := s.pwr.ups ++ [⟨t.val, p.val, s.now, none, none, why⟩] } }) ∧
    (∀ u : PowerUp, s.pwr.ups = [u] → u.tile = t.val →
      (u.checkAt = none → s.rd Reg.PW_POWER_P1MS t.val ≤ 510 → s.rd Reg.CK_STATUS_CHANGING t.val = 0 → ∀ v : State, v = s.setSiteSt t.val u.site (if u.why = 0 then 4 else 3) →
        (v.rampCheck t.val = true → exec (.reservationGrant t) s =
          .next (State.ramp { v with pwr := { v.pwr with ups := [{ u with checkAt := some s.now, rampAt := some s.now }] } } t.val 0 false)) ∧
        (v.rampCheck t.val = false → exec (.reservationGrant t) s =
          .next { v with pwr := { v.pwr with ups := [{ u with checkAt := some s.now }] } })) ∧
      (∀ c, u.checkAt = some c → u.rampAt = none → let waited := (s.now - c) / 900
        (s.rampCheck t.val = true → exec (.rampCheckPoll t) s =
          .next (State.ramp { s with pwr := { s.pwr with ups := [{ u with rampAt := some s.now }] } } t.val (min waited 5000) false)) ∧
        (s.rampCheck t.val = false → 5000 ≤ waited → exec (.rampCheckPoll t) s =
          .next (State.ramp { s with pwr := { s.pwr with ups := [{ u with rampAt := some s.now }] } } t.val 5000 true)) ∧
        (s.rampCheck t.val = false → waited < 5000 → exec (.rampCheckPoll t) s = .next s)) ∧
      (∀ m, u.checkAt = none → u.since + 4500000 ≤ s.now → s.flt.migrs = [m] → m.tile = t.val → m.fresh = u.site →
        exec (.reservationTimeout t) s = .next ((s.dropUp t.val u.site).failMigr m 1)) ∧
      (u.rampAt.isSome = true → s.flt.migrs = [] → s.flt.tests = [] → exec (.rampFailure t) s =
        .next (((s.dropUp t.val u.site).dropTest t.val u.site).condemn t.val u.site).saveStored))

/-- MIGRATE, MIGRATE_PREEMPT, MIGRATE_DRAIN_TIMEOUT, DIE_LOSS, SUBSTITUTE, SUBSTITUTE_FAILED, BIST_COMPLETE, TEST_DRY,
DRY_SITE_ROTATION, SCRATCH_UE_REPORT, VF_DISABLE, VAT_ID_DRAIN_TIMEOUT. -/
def Obligations.DiesAndSites : Prop :=
  ∀ (s : State) (t : Tile),
    (∀ l : BitVec 3, l.toNat < 6 → s.psite t.val l.toNat ≠ 7 → s.siteBusy t.val = false → let dry := s.rd Reg.SITE_MAP_DRY t.val
      let old := s.psite t.val l.toNat
      let enter (fresh ph : Nat) (vs : List Nat) : State :=
        { s with flt := { s.flt with migrs := s.flt.migrs ++ [⟨t.val, l.toNat, old, fresh, vs, ph, s.now, true, false⟩] } }
      (dry ≠ 7 → s.siteSt t.val dry = 2 → exec (.migrate t l) s = .next (enter dry 0 []) ∧ (enter dry 0 []).siteBusy t.val = true) ∧
      (dry = 7 → exec (.migrate t l) s = .next (s.endSite t.val 1) ∧ (∀ out, exec (.substitute t l out) s = .next (s.endSite t.val 1)) ∧
        let vs := s.holders t.val l.toNat
        let w := enter 7 1 vs
        exec (.migratePreempt t l) s =
          .next ((w.each vs fun u v => u.pauseVat v .servicePause true).pauseSvc (w.svcClus t.val l.toNat))) ∧
      (∀ out, dry ≠ 7 → s.siteSt t.val dry = 2 → exec (.substitute t l out) s = .next (s.loseMapped t.val old l.toNat 6 true out))) ∧
    (∀ (l : BitVec 3) (out : SubstOut), s.siteBusy t.val = true → exec (.migrate t l) s = .next (s.endSite t.val 1) ∧
      exec (.migratePreempt t l) s = .next (s.endSite t.val 1) ∧ exec (.substitute t l out) s = .next (s.endSite t.val 1)) ∧
    (∀ m : Migr, s.flt.migrs = [m] → m.tile = t.val → m.ph = 1 → s.drained m = false → m.since + 45000 ≤ s.now →
      exec (.migrateDrainTimeout t) s = .next (s.failMigr m 1)) ∧
    (∀ (p : PSite) (out : SubstOut), s.siteSt t.val p.val = 1 → s.flt.substs = [] → s.lsite t.val p.val ≠ 7 → s.flt.lossQueue = [] →
      exec (.dieLoss t p .router out) s = .next (s.loseMapped t.val p.val (s.lsite t.val p.val) 1 false out)) ∧
    (∀ x : Subst, s.flt.substs = [x] → x.tile = t.val → x.byCmd = false →
      let v := ((((State.setSiteSt { s with flt := { s.flt with substs := [] } } t.val x.fresh 6).closeDieLink t.val x.fresh).wr
        Reg.SITE_MAP_DRY t.val 7).remap t.val x.lsite 7).dropReset (coresOfDie t.val x.fresh)
      exec (.substituteFailed t) s = .next (((v.recEach x.vats { type := evSubstFailed, tile := t.val, psite := x.fresh, lsite := x.lsite }).oldDie
        t.val x.old x.retest).saveStored)) ∧
    (∀ (p : PSite) (r : BistResult) (since : Nat), s.flt.tests = [⟨t.val, p.val, 3, since⟩] → s.siteSt t.val p.val = 3 →
      let v := (s.recordTest t.val p.val r).addHistory (dieLinkKeys t.val p.val 16384 r.badLanes) (dieLinkKeys t.val p.val 8 r.badGroups)
      exec (.bistComplete t p r) s =
        .next ((if r.pass && !v.tooNarrow t.val (4 + p.val) then v.toDry t.val p.val else v.condemn t.val p.val).saveStored)) ∧
    (s.siteBusy t.val = false → s.flt.tests = [] → let dry := s.rd Reg.SITE_MAP_DRY t.val
      (dry ≠ 7 → s.siteSt t.val dry = 2 → exec (.testDry t) s = .next (s.addTest ⟨t.val, dry, 3, s.now⟩)) ∧
      (dry = 7 → exec (.testDry t) s = .next ((s.wr Reg.FT_TEST_DONE t.val 1).wr Reg.FT_TEST_RESULT t.val 2)) ∧
      (dry ≠ 7 → s.siteSt t.val dry = 2 → s.flt.migrs = [] → mget 0 s.svc.rotateSeen t.val = 0 → let l := mget 0 s.svc.rotated t.val
        exec (.drySiteRotation t) s = .next (State.doMigrate { s with svc := { s.svc with
          rotated := mset 0 s.svc.rotated t.val ((l + 1) % 6), rotateSeen := mset 0 s.svc.rotateSeen t.val (s.now + 1) } } t.val l false))) ∧
    (∀ (c : Core) (word : BitVec 21) (src : BitVec 3), let p := c.site.val
      let w := coreKey c * 2 ^ 21 + word.toNat
      s.dieOn c.tile.val p = true → s.flt.ues = [] → s.cmp.ueNew = [(w, src.toNat)] →
      exec (.scratchUeReport c word src false) s = .next (State.faultRec { s with
          cmp := { s.cmp with ueNew := [] }, flt := { s.flt with ues := [(dieKey c.tile.val p, w, s.now)] } }
        { type := evScratchUe, tile := c.tile.val, psite := p, lsite := s.lsite c.tile.val p, cluster := c.cl.val, slot := c.slot.val,
          d0 := 0, d1 := 1 })) ∧
    (∀ vf : BitVec 6, vf ≠ 0 → let r := s.resetFn (vf.toNat + 1)
      let id := mget 0 s.host.vfVat vf.toNat
      let q : State := { r with host := { r.host with disables := [vf.toNat] } }
      (r.vat? id = none → exec (.vfDisable vf) s = .next r) ∧
      (∀ v, r.vat? id = some v → v.killing = none → r.host.disables = [] →
        exec (.vfDisable vf) s = .next (if r.clk.started then q else q.disableVf vf.toNat))) ∧
    (∀ (id : BitVec 8) (v : Vat) (k : Nat), s.vat? id.toNat = some v → v.killing = some k →
      (s.underWay (s.subtree id.toNat) = false ∨ k + 4500000 ≤ s.now) →
      exec (.vatIdDrainTimeout id) s = .next (s.endDisable (s.topOf id.toNat)))

/-- SVC_BOOT to MEM_TRAIN, READY, BRINGUP_STATE_TIMEOUT. -/
def Obligations.BringUp : Prop :=
  ∀ s : State, s.rd Reg.BU_STATUS_FAILED 0 = 0 → s.pwr.lossAt = none →
    (∀ (b : BootIn) (y : State), s.buSt = 1 → s.rd Reg.IN_STATUS_EFUSE 0 = 2 → s.rd Reg.IN_STATUS_COOLANT_WAIT 0 = 0 → s.mgmt.eraseDue = false →
      s.tray.cutDue = false → ∀ v w x : State, v = ((s.coldRegs).wr Reg.BU_STATUS_FALLBACK 0 0).enterBu 2 →
      w = { v with boot := { v.boot with svc := verdicts v.boot.svc b.svcA b.svcB, cul := verdicts v.boot.cul b.culA b.culB } } →
      x = { w with boot := { w.boot with svcInUse := (pickSlot w.boot.svc w.svcOk).getD w.boot.svcInUse } } →
      (x.each x.baysIn State.cartOn).chooseCulture = (y, true) → exec (.svcBoot b) s = .next y) ∧
    (∀ dies : List DiePower, s.buSt = 2 → s.rd Reg.LC_STATUS_STATE 0 ≠ 4 → ∃ u, exec (.tilePower dies) s = .next u ∧ u.mem = s.mem ∧
      u.buSt = 3 ∧ u.boot.baseUp = List.range 36 ∧ u.boot.present = (dies.map fun d => dieKey d.tile.val d.site.val).dedup ∧
      ∀ t : Tile, u.vlnk t.val = true ∧ u.cellOn t.val = true) ∧
    (s.buSt = 3 → s.boot.baseUp ≠ [] → ∃ u, exec .clockFwd s = .next u ∧ u.buSt = 4 ∧ u.rd Reg.CK_STATUS_SOURCE 0 = 0 ∧
      u.rd Reg.CK_STATUS_PLL_LOCK 0 = 1) ∧
    (s.buSt = 4 → s.host.inSystem = false → ∃ u, exec .linkTrain s = .next u ∧ u.buSt = 5 ∧
      ∀ (t : Tile) (e : Fin 4) (n : Nat), neighbour t.val e.val = some n → s.vlnk t.val = true → s.vlnk n = true →
        u.rd Reg.LK_STATUS_STATE (linkInst t.val e.val) = 1) ∧
    (∀ r : SelfTestIn, s.buSt = 5 → s.linksTrain = false → r.baseFail = [] →
      let live := s.boot.present.filter fun k => !s.boot.condemned.contains k
      ∃ u, exec (.selfTest r) s = .next u ∧ u.buSt = 6 ∧ u.boot.digest = r.digest ∧ u.boot.enteredAt = s.age ∧
        u.boot.condemned = s.boot.condemned ++ live.filter r.bistFail.contains) ∧
    (∀ r : NeighbourIn, s.buSt = 6 →
      (r.accuse1 = [] → r.accuse2 = [] → ∃ u, exec (.neighbourTest r) s = .next u ∧ u.buSt = 7 ∧ u.boot.testedAt = s.age ∧
        u.boot.condemned = s.boot.condemned) ∧
      (∀ c : Core, r.accuse1 = [.scratch c] → r.accuse2 = [.scratch c] → let k := dieKey c.tile.val c.site.val
        s.boot.present.contains k = true → s.boot.condemned = [] → s.boot.fuseBad.contains k = true →
        ∃ u, exec (.neighbourTest r) s = .next u ∧ u.buSt = 7 ∧ u.boot.condemned = [k])) ∧
    (s.buSt = 7 → ∀ v w : State, v = ((s.enterBu 8).each ((List.range 36).filter s.vlnk) State.reconcile).saveStored →
      w = { v with boot := { v.boot with stored := { v.boot.stored with
        valid := true, digest := v.boot.digest, testedAt := v.boot.testedAt, training := false } }
                   mgmt := { v.mgmt with fuseDigest := v.boot.digest } } →
      (w.cellOn 0 = true → w.psite 0 0 ≠ 7 → exec .mapReconcile s = .next w) ∧
      (w.psite 0 0 = 7 → exec .mapReconcile s = .next (w.wr Reg.BU_STATUS_FAILED 0 1))) ∧
    (s.buSt = 8 → ∃ u, exec .clockMesh s = .next u ∧ u.buSt = 9 ∧ u.clk.started = true ∧ u.sch.slots = 0 ∧ u.now = 0 ∧
      ∀ t : Tile, s.vlnk t.val = true → u.rd Reg.CK_STATUS_SOURCE t.val = 0 ∧ u.rd Reg.CK_STATUS_PLL_LOCK t.val = 1) ∧
    (∀ r : MemTrainIn, s.buSt = 9 → s.boot.warm = 0 → ∃ u, exec (.memTrain r) s = .next u ∧ u.boot.stored.training = true ∧
      (∀ off < 2 ^ 52, u.byte (t1Key off) = 0) ∧ ∀ (t : Tile), ∀ off < 2 ^ 37, u.byte (t2Key t.val off) = 0) ∧
    (s.buSt = 11 → s.culKeys.all s.culDone = true → s.vat0Up = true → s.dieActive 0 (s.psite 0 0) = true → s.host.inSystem = false →
      ∃ u, exec .ready s = .next u ∧ u.mem = s.mem ∧ u.buSt = 12 ∧ u.host.up = true ∧ u.host.readyAt = s.age ∧ u.boot.warm = 0 ∧
        u.rd Reg.FN_SYS_FORMED 0 = 1 ∧ u.rd Reg.FN_SYS_LEAD 0 = 0) ∧
    (2 ≤ s.buSt → s.buSt ≤ 11 → s.boot.warm = 0 → s.boot.enteredAt + 900000 * stateBound s.buSt 0 < s.age →
      exec .bringupStateTimeout s = .next (s.wr Reg.BU_STATUS_FAILED 0 1))

/-- CULTURE, CHUNK, MISSING_BITMAP_OR, CHUNK_FETCH, CULTURE_CONFIRM_DEADLINE, CULTURE_RELOAD. -/
def Obligations.CultureBroadcast : Prop :=
  ∀ s : State, s.rd Reg.BU_STATUS_FAILED 0 = 0 → s.pwr.lossAt = none →
    (∀ v y z : State, s.buSt = 10 → s.rd Reg.LC_STATUS_STATE 0 ≠ 0 → s.chooseCulture = (v, true) →
      ∀ img, img = (v.boot.cul.getD (v.rd Reg.CUL_STATUS_SLOT 0) {}).data → y = ((v.enterBu 11).writeTier svcT1 img).writeTier svcT2 img →
      z = ((y.wr Reg.CUL_STATUS_ROUNDS 0 0).wr Reg.CUL_STATUS_FETCHED 0 0).wr Reg.CUL_STATUS_FENCED 0 0 →
      exec .culture s = .next { z with boot := { z.boot with image := img, bits := [], confirmed := [], reload := [], sentAt := z.now,
                                                             passEnd := z.now + 24 * imageChunks img } }) ∧
    (s.buSt = 11 →
      (∀ (t : Tile) (i : BitVec 12), let k := baseKey t.val
        exec (.chunk (.base t) i false) s = .next s ∧
        (i.toNat < s.culN → s.culKeys.contains k = true → s.culDone k = false → s.needs k i.toNat = true → s.hasChunk k i.toNat = false →
          exec (.chunk (.base t) i true) s = .next (s.takeChunk k i.toNat))) ∧
      (∀ gone, gone = ((List.range s.culN).filter fun i => s.culKeys.any fun k => !s.culDone k && s.needs k i && !s.hasChunk k i) →
        gone ≠ [] → s.boot.passEnd + 9000 ≤ s.now → s.rd Reg.CUL_STATUS_ROUNDS 0 < 3 → ∃ u, exec .missingBitmapOr s = .next u ∧ u.mem = s.mem ∧
          u.rd Reg.CUL_STATUS_ROUNDS 0 = s.rd Reg.CUL_STATUS_ROUNDS 0 + 1 ∧ u.boot.passEnd = s.now + 24 * gone.length) ∧
      (∀ (t : Tile) (tgt : Fin 6) (i : Nat), s.rd Reg.CUL_STATUS_ROUNDS 0 = 3 → s.boot.passEnd + 9000 ≤ s.now →
        s.culKeys.contains (baseKey t.val) = true → s.culDone (baseKey t.val) = false → s.missing (baseKey t.val) = [i] →
        exec (.chunkFetch (.base t) tgt) s = .next (s.fetchChunk (baseKey t.val) i)) ∧
      (∀ core, s.boot.sentAt + 45000000 ≤ s.now → (s.culKeys.filter fun k => !s.culDone k) = [core] → core < 2 ^ 20 →
        exec .cultureConfirmDeadline s = .next (((s.unconfirmed core).bump Reg.CUL_STATUS_FENCED 0).reportLoss
          (dieKey (core / 256) (core / 32 % 8) / 8) (dieKey (core / 256) (core / 32 % 8) % 8) 4))) ∧
    (∀ (c : Core) (u : State) (e : Nat), 11 ≤ s.buSt → s.boot.reload.contains (coreKey c) = true →
      s.dieActive (coreKey c / 256) (coreKey c / 32 % 8) = true → s.loadCulture (coreKey c) = (u, some e) → u.boot.rst = none →
      exec (.cultureReload c) s = .next (((u.confirm (coreKey c) e).awaitStart (coreKey c)).leaveReset (coreKey c)))

/-- CORE_RESET, DIE_COMPUTE_RESET, TILE_COMPUTE_RESET, PANEL_COMPUTE_RESET, WARM_MODULE_RESET, COLD_RESET, LINK_RESUME, MAP_RESTORE,
MEM_RESTORE, WARM_FALLBACK. -/
def Obligations.Resets : Prop :=
  ∀ s : State, s.pwr.lossAt = none →
    (s.buSt = 12 → s.boot.rst = none → s.boot.rstWait = none →
      (∀ c : Core, s.dieActive (coreKey c / 256) (coreKey c / 32 % 8) = true → s.siteBusy (coreKey c / 256) = false →
        exec (.coreReset c) s = .next (s.runReset 1 [coreKey c])) ∧
      (∀ (t : Tile) (p : PSite), s.dieActive t.val p.val = true → s.siteBusy t.val = false →
        exec (.dieComputeReset t p) s = .next (s.runReset 2 (coresOfDie t.val p.val))) ∧
      (∀ t : Tile, s.tileCores t.val ≠ [] → s.siteBusy t.val = false → exec (.tileComputeReset t) s = .next (s.runReset 3 (s.tileCores t.val))) ∧
      (s.moduleCores ≠ [] → (∀ t : Tile, s.siteBusy t.val = false) → exec .panelComputeReset s = .next (s.runReset 4 s.moduleCores)) ∧
      (s.warmCheck = 0 → exec .warmModuleReset s = .next s.warmEntry) ∧
      (∀ k, s.warmCheck = k + 1 → exec .warmModuleReset s = .next (s.coldStart 5 (k + 1)))) ∧
    (2 ≤ s.buSt → s.buSt ≠ 12 → ∀ c : Core, exec (.coreReset c) s = .next ((s.wr Reg.RST_STATUS_DONE 0 1).wr Reg.RST_STATUS_RESULT 0 1)) ∧
    (2 ≤ s.buSt → ∃ u, exec .coldReset s = .next u ∧ u.buSt = 3 ∧ u.vats = [] ∧ u.cmp = {} ∧ u.fab = {} ∧ u.now = 0 ∧
      u.rd Reg.RST_STATUS_BUSY 0 = 1 ∧ u.rd Reg.RST_STATUS_SCOPE 0 = 6) ∧
    (s.rd Reg.BU_STATUS_FAILED 0 = 0 →
      (∀ l : List Nat, s.buSt = 13 → s.boot.warm = 1 → ∃ u, exec (.linkResume l) s = .next u ∧ u.mem = s.mem ∧ u.boot.warm = 2 ∧
        ∀ i < 576, s.rd Reg.LK_STATUS_STATE i = 4 →
          u.rd Reg.LK_STATUS_STATE i = if (linkEnds (i / 16) (i % 16)).any l.contains then 1 else 2) ∧
      (∀ d : Nat, s.buSt = 13 → s.boot.warm = 2 → s.linksTrain = false →
        (d = s.boot.stored.digest → ∀ v, v = s.enterBu 14 →
          exec (.mapRestore d) s = .next { v with regs := mmerge v.boot.stored.maps (mkeep (fun k => !isMapKey k) v.regs) }) ∧
        (d ≠ s.boot.stored.digest → exec (.mapRestore d) s = .next (s.coldStart 5 3))) ∧
      (∀ r : MemTrainIn, s.buSt = 9 → s.boot.warm ≠ 0 → r.stackFail = [] → r.pkgFail = [] →
        exec (.memRestore r) s = .next ((s.enterBu 15).trainPorts r.ports) ∧ ((s.enterBu 15).trainPorts r.ports).mem = s.mem) ∧
      (∀ code : BitVec 3, s.inWarm = true → 1 ≤ code.toNat → code.toNat ≤ 5 →
        exec (.warmFallback code) s = .next (s.coldStart 5 code.toNat)))

/-- REGISTER_WRITE, CSR_DATA_ACCESS, QUEUE_ENABLE, QUEUE_DISABLE, SQ_TAIL_DOORBELL, CQ_HEAD_DOORBELL, PF_FLR. -/
def Obligations.RegistersAndQueues : Prop :=
  ∀ s : State,
    (∀ (v : Word) (w : Nat), s.vlnk 0 = true → v.toNat % 2 ^ 16 = w → 4000 ≤ w → w ≤ 17500 →
      exec (.registerWrite .csr (0xE * 2 ^ 52 + 7 * 2 ^ 28 + 0x11 * 2 ^ 20) v) s = exec (.capWWrite (BitVec.ofNat 15 w)) s) ∧
    (∀ v : Word, s.vlnk 0 = true → exec (.registerWrite .csr (0xE * 2 ^ 52 + 7 * 2 ^ 28 + 0x14 * 2 ^ 20) v) s = .next s) ∧
    (∀ (t : Tile) (v : Word), s.vlnk t.val = true → s.rd Reg.LINJ_STATUS_REFUSED t.val = 1 → v.toNat / 2 ^ 33 % 2 = 1 →
      ∃ u, exec (.registerWrite .csr (0xE * 2 ^ 52 + t.val * 2 ^ 32 + 7 * 2 ^ 28 + 0x0F * 2 ^ 20 + 8) v) s = .next u ∧ u.mem = s.mem ∧
        u.rd Reg.LINJ_STATUS_REFUSED t.val = 0 ∧ u.rd Reg.LINJ_STATUS_INJECTED t.val = s.rd Reg.LINJ_STATUS_INJECTED t.val) ∧
    (s.host.up = true → ∀ v : Word,
      (s.rd Reg.CSR_ADDR_ADDR 0 % 8 ≠ 0 → ∀ write, exec (.csrDataAccess write v) s = .next ((s.wr Reg.CSR_STAT_ERR 0 1).wr Reg.CSR_DATA_DATA 0 0)) ∧
      (s.rd Reg.CSR_ADDR_ADDR 0 = 0xE * 2 ^ 52 + 7 * 2 ^ 28 + 0x14 * 2 ^ 20 → s.host.inSystem = false → s.vlnk 0 = true →
        exec (.csrDataAccess false v) s = .next (s.wr Reg.CSR_DATA_DATA 0 (s.now % 2 ^ 64)))) ∧
    (∀ (fn : BitVec 7) (q : BitVec 5), s.queueAt fn.toNat q.toNat = true → let i := qInst fn.toNat q.toNat
      (s.qOn fn.toNat q.toNat = false →
        (s.queueCheck fn.toNat q.toNat = 0 → ∃ u, exec (.queueEnable fn q) s = .next u ∧ u.mem = s.mem ∧ u.rd Reg.Q_STATUS_ENABLED i = 1 ∧
          u.rd Reg.Q_STATUS_HALTED i = 0 ∧ u.rd Reg.Q_STATUS_SQ_HEAD i = 0 ∧ u.rd Reg.Q_STATUS_CQ_TAIL i = 0) ∧
        (s.queueCheck fn.toNat q.toNat ≠ 0 → ∃ u, exec (.queueEnable fn q) s = .next u ∧ u.mem = s.mem ∧ u.rd Reg.Q_STATUS_HALTED i = 1 ∧
          u.rd Reg.Q_STATUS_ERR i = s.queueCheck fn.toNat q.toNat ∧ u.rd Reg.Q_STATUS_ENABLED i = s.rd Reg.Q_STATUS_ENABLED i)) ∧
      (s.host.cmds = [] → s.host.held = [] → ∃ u, exec (.queueDisable fn q) s = .next u ∧ u.mem = s.mem ∧ u.rd Reg.Q_STATUS_ENABLED i = 0 ∧
        u.rd Reg.Q_CFG_ENABLE i = 0) ∧
      (s.qOn fn.toNat q.toNat = true → s.rd Reg.Q_STATUS_HALTED i = 0 → s.rd Reg.Q_CFG_ENABLE i = 1 →
        let size := 2 ^ s.rd Reg.Q_CFG_SQ_LOG2 i
        let head := s.rd Reg.Q_STATUS_SQ_HEAD i
        (∀ tail, size ≤ tail → exec (.sqTailDoorbell fn q tail) s = .next ((s.wr Reg.Q_STATUS_HALTED i 1).wr Reg.Q_STATUS_ERR i 4)) ∧
        (2 ≤ size → head < size → let a := s.rd Reg.Q_SQ_BASE_SQ_BASE i * 4096 + 64 * head
          exec (.sqTailDoorbell fn q ((head + 1) % size)) s = .next (if s.hostBad a 64 then s.haltQueue fn.toNat q.toNat 5
            else (s.wr Reg.Q_STATUS_SQ_HEAD i ((head + 1) % size)).takeEntry fn.toNat q.toNat
              ((List.range 8).map fun w => s.ld (hostKey (a + 8 * w)) 8))) ∧
        (∀ h, h < 2 ^ s.rd Reg.Q_CFG_CQ_LOG2 i → s.host.held = [] →
          exec (.cqHeadDoorbell fn q h) s = .next { s with host := { s.host with cqHead := mset 0 s.host.cqHead i h } }))) ∧
    (∃ u, exec (.pfFlr false) s = .next u ∧ u.host.events = [] ∧ u.rd Reg.FN_EVT_PENDING 0 = 0 ∧ u.mem = s.mem ∧ ∀ c ∈ u.host.cmds, c.fn ≠ 0)

/-- A fetched host command that may start (R467). -/
def Sys2Proof.CanStart (s : State) (id op : Nat) (c : HCmd) : Prop :=
  (s.host.cmds.find? fun d => d.id == id) = some c ∧ c.opcode = op ∧ s.mayStart c = true

/-- The state with a command started. -/
def Sys2Proof.startedCmd (s : State) (id : Nat) : State :=
  { s with host := { s.host with cmds := s.host.cmds.map fun (d : HCmd) => if d.id = id then { d with started := true } else d } }

/-- VAT_CREATE, VAT_RELEASE, VF_BIND, WINDOW_GRANT, RESET, LOG_READ, EVENT_WAIT. -/
def Obligations.AdminCommands : Prop :=
  ∀ (s : State) (id : Nat) (c : HCmd), let t := startedCmd s id
    (CanStart s id 0x01 c → ∀ (l : List (Tile × Fin 5)) (q : State), q = t.reserve l → ∀ w0 w1 w2, c.opd 2 = 24 →
      q.hostWords (c.opd 1) 3 = [w0, w1, w2] → w0 < 2 ^ 32 → w1 < 2 ^ 32 → bitsOf w0 31 16 = 1 →
      bitsOf w0 15 8 = 0 → bitsOf w0 7 0 ≠ 0 → q.vats = [] → bitsOf w2 5 0 = q.ownMod → q.isModule q.ownMod = true →
      q.placeBad 0 [w2] = false → q.claimRefused 0 w1 = false →
      exec (.vatCreate ⟨id, l⟩) s = .next (if q.hostBad (c.opd 1) 24 then q.endCmd c stIoError 0
        else (q.placeVat (bitsOf w0 7 0) 0 w1 (maskClus (bitsOf w2 11 6) (bitsOf w2 35 12)) [] [q.ownMod]).endCmd c stOk (bitsOf w0 7 0))) ∧
    (CanStart s id 0x02 c → t.vat? (c.opd 1) ≠ none → exec (.vatRelease id) s = .next ((t.releaseVats [c.opd 1]).endCmd c stOk 0)) ∧
    (CanStart s id 0x03 c → ∀ vf vat, vf = bitsOf (c.opd 1) 5 0 → vat = bitsOf (c.opd 1) 15 8 → vf ≠ 0 → t.topLevel vat = true →
      t.vfBound vat = false → exec (.vfBind id) s =
        .next (State.endCmd { t with host := { t.host with vfVat := mset 0 t.host.vfVat vf vat } } c stOk 0)) ∧
    (CanStart s id 0x04 c → ∀ vat, vat = bitsOf (c.opd 1) 7 0 → t.topLevel vat = true → c.opd 2 < 2 ^ 57 → grantsSvc (c.opd 2) = false →
      exec (.windowGrant id) s = .next ((t.doGrantWrite vat (bitsOf (c.opd 1) 11 8) (c.opd 2)).endCmd c stOk 0)) ∧
    (CanStart s id 0x05 c → c.opd 1 = 5 → s.buSt = 12 → exec (.reset id) s = .next t.doWarmReset) ∧
    (CanStart s id 0x06 c → ∀ n, n = bitsOf (c.opd 1) 31 19 → bitsOf (c.opd 1) 1 0 ≠ 3 → 1 ≤ n → n ≤ 4096 → s.host.up = true →
      ∀ l, l = ((t.logArea (bitsOf (c.opd 1) 1 0)).drop (bitsOf (c.opd 1) 18 2)).take n →
      exec (.logRead id) s =
        .next ((t.hostWrite (c.opd 2) (toBytes (l.flatten.flatMap fun x => leBytes 8 x.toNat))).endCmd c stOk l.length)) ∧
    (CanStart s id 0x07 c →
      (∀ e r, s.host.events = e :: r → exec (.eventWait id) s =
        .next ((State.wr { t with host := { t.host with events := r } } Reg.FN_EVT_PENDING 0 r.length).endCmd c stOk e.toNat)) ∧
      (s.host.events = [] → (t.host.cmds.filter fun c => c.started && c.opcode == 7).length ≤ 8 → exec (.eventWait id) s = .next t))

/-- COPY, START, PAUSE, RESUME, LOAD_DATA, CHECKPOINT, RESTORE, RUN_STEPS, SERVE, SEQ_RELEASE, STEP_LOOP_STEP, BATCH_ROUND. -/
def Obligations.VatCommands : Prop :=
  ∀ (s : State) (id : Nat) (c : HCmd) (v : Vat), let t := startedCmd s id
    (t.vat? (t.queueVat c.fn c.q) = some v →
      (CanStart s id 0x20 c → ∀ l len, len = c.opd 3 % 2 ^ 32 → len % 8 = 0 →
        (bitOf (c.opd 3) 63 = false → t.vatLoc v.id (c.opd 2) len true = (0, l) →
          exec (.copy id) s = .next (if t.hostBad (c.opd 1) len then t.endCmd c stIoError 0
            else (t.mvWrite l (t.ldBytes (hostKey (c.opd 1)) len)).endCmd c stOk len)) ∧
        (bitOf (c.opd 3) 63 = true → t.vatLoc v.id (c.opd 2) len false = (0, l) → s.host.up = true →
          ∀ (u : State) (bs : List Byte), t.mvRead l len = (u, bs, 0) →
          exec (.copy id) s = .next ((u.hostWrite (c.opd 1) bs).endCmd c stOk len))) ∧
      (CanStart s id 0x21 c → c.opd 1 % 8 = 0 → t.vats = [v] → v.run = .stopped → v.killing = none → v.parent = 0 → t.vatConfirmed v.id = true →
        exec (.start id) s = .next ((t.startVat v.id (c.opd 1)).1.endCmd c stOk 0) ∧
          ((t.startVat v.id (c.opd 1)).1.vat? v.id).map Vat.run = some .running) ∧
      (CanStart s id 0x28 c → v.run = .running → exec (.pause id) s = .next ((t.pauseVat v.id .servicePause false).endCmd c stOk 0)) ∧
      (CanStart s id 0x29 c → v.run = .paused → v.svcPaused = false → t.vatConfirmed v.id = true →
        exec (.resume id) s = .next ((t.runVat v.id).endCmd c stOk 0)) ∧
      (CanStart s id 0x23 c → ∀ l, t.regionList v.id (c.opd 1) (c.opd 2) true true = (0, l) → exec (.loadData id) s =
        .next (if t.hostBad (c.opd 1) (32 * c.opd 2) || l.any (fun r => t.targetBad r.target r.src r.len) then t.endCmd c stIoError 0
          else ((t.each l fun s r => (s.targetRead r.target r.src r.len).1.mvWrite r.loc (s.targetRead r.target r.src r.len).2).svcSet v.id
            (flagBit 62)).endCmd c stOk (l.map Region.len).sum)) ∧
      (CanStart s id 0x24 c →
        (v.run = .running → v.stepOpen = true → exec (.checkpoint id) s =
          .next { t with svc := { t.svc with ckptWait := t.svc.ckptWait ++ [c.id] } }) ∧
        (v.stepOpen = false → ∀ u st n, t.takeCkpt v.id (c.opd 1) (c.opd 2) (c.opd 3) (c.opd 4) = (u, (st, n)) →
          exec (.checkpoint id) s = .next (u.endCmd c st n))) ∧
      (CanStart s id 0x25 c → v.run = .stopped ∨ v.run = .paused → (t.svc.steps.any fun r => r.vat == v.id) = false →
        t.targetOk (c.opd 3) = true →
        ∀ rs l u img, t.regionList v.id (c.opd 1) (c.opd 2) true false = (0, rs) →
        l = (rs.map fun x => (x.loc, x.len)) ++ (t.vatRecs v.id).map (fun e => (MLoc.scr e.1 e.2, 64)) →
        t.targetRead (c.opd 3) (c.opd 4) (64 + (l.map Prod.snd).sum) = (u, img) →
        ldList img 0 8 = 1 → ldList img 8 8 = v.id → ldList img 24 8 = c.opd 2 → ldList img 32 8 = (l.map Prod.snd).sum →
        ldList img 40 8 = crc32c (ofBytes (img.drop 64)) →
        exec (.restore id) s = .next (if t.hostBad (c.opd 1) (32 * c.opd 2) || t.targetBad (c.opd 3) (c.opd 4) (64 + (l.map Prod.snd).sum)
          then t.endCmd c stIoError 0 else (l.foldl (fun (r : State × List Byte) x => (r.1.mvWrite x.1 (r.2.take x.2), r.2.drop x.2))
          (u, img.drop 64)).1.endCmd c stOk (64 + (l.map Prod.snd).sum))) ∧
      (CanStart s id 0x22 c → (t.svc.steps.any fun r => r.vat == v.id) = false → v.run = .running ∨ v.run = .paused →
        c.opd 1 ≠ 0 →
        ∀ d a, d = t.hostWords (c.opd 2) 8 → d.getD 0 0 < 2 ^ 16 → d.getD 1 0 < 2 ^ 56 → d.getD 2 0 < 2 ^ 24 → d.getD 3 0 < 2 ^ 32 →
        t.vatLoc v.id (d.getD 1 0 % 2 ^ 56 + t.ownMod * 2 ^ 56) (16 * max 1 (d.getD 0 0)) false = (0, .t1 a) →
        exec (.runSteps id) s = .next (if t.hostBad (c.opd 2) 64 then t.endCmd c stIoError 0
          else { t with svc := { t.svc with steps := t.svc.steps ++ [⟨v.id, c.id, c.opd 1, 0, 0, d.map w64, false, false, 0, 0, 0, 0⟩] } })) ∧
      (CanStart s id 0x26 c → v.run ≠ .held → t.batchAt v.id ≠ none → t.seq? v.id (bitsOf ((t.hostWords (c.opd 1) 8).getD 0 0) 31 0) = none →
        ∀ w0 w1 w2 w3 w4, t.hostWords (c.opd 1) 8 = [w0, w1, w2, w3, w4, 0, 0, 0] → w0 < 2 ^ 56 → w2 < 2 ^ 24 → w2 ≠ 0 → w4 < 2 ^ 32 →
        bitsOf w0 55 32 ≠ 0 → bitsOf w0 55 32 + w2 ≤ 16777216 → ∀ r : Req, r = ⟨v.id, c.id, w0 % 2 ^ 32, t.ldBytes (hostKey w1) (4 * bitsOf w0 55 32), w2, w64 w3, w4, 0, none, true⟩ →
        exec (.serve id) s = .next (if t.hostBad (c.opd 1) 64 || t.hostBad w1 (4 * bitsOf w0 55 32) then t.endCmd c stIoError 0
          else { t with svc := { t.svc with reqs := t.svc.reqs ++ [r] } })) ∧
      (CanStart s id 0x27 c → t.svc.reqs = [] → ∀ x, t.seq? v.id (c.opd 1) = some x → exec (.seqRelease id) s =
        .next (State.endCmd { t with svc := { t.svc with seqs := t.svc.seqs.filter fun y => !(y.vat == v.id && y.seqId == c.opd 1) } }
          c stOk x.pages))) ∧
    (∀ vat : BitVec 8, s.vat? vat.toNat = some v → v.run = .running →
      (∀ r : StepRun, (s.svc.steps.find? fun r => r.vat == vat.toNat) = some r → ∀ step, step = s.rd Reg.LG_VAT_STEP 0 vat.toNat →
        (r.svcCalled = false ∨ r.reduced = true → exec (.stepLoopStep vat) s = .next s.pumpAll) ∧
        (r.svcCalled = true → r.reduced = false → ∀ (q : State) (l : List Shard), s.shards r v = (q, l) →
          (r.phase = 0 → l = [] → ∀ e : State, e = q.openExchange r v step (s.chMode 0 vat.toNat) [] → exec (.stepLoopStep vat) s =
            .next ((e.setStepRun { r with phase := 0, since := e.now, sent := 0, svcCalled := false, reduced := true,
                                          incomplete := r.incomplete + b2n (e.stepIncomplete vat.toNat step) }).svcSet vat.toNat (flagBit 63)).pumpAll) ∧
          (r.phase = 1 → s.chMode 0 vat.toNat = 1 → l ≠ [] → ∀ w : State, q.sealExps r step (q.lanesOf vat.toNat) = (w, false) →
            exec (.stepLoopStep vat) s = .next w.pumpAll) ∧
          (r.phase = 2 → (∀ (ck : Nat) (x : Shard) (w : State), q.loopClu = some ck → l.drop r.sent = [x] →
              q.contribute ck vat.toNat step (s.chMode 0 vat.toNat) (q.lanesOf vat.toNat) x = some w → l.any (w.shardOpen vat.toNat step) = true →
              exec (.stepLoopStep vat) s = .next (w.setStepRun { r with sent := r.sent + 1 }).pumpAll) ∧
            (l.length = r.sent → (l.any (q.shardOpen vat.toNat step) = true → exec (.stepLoopStep vat) s = .next (q.setStepRun r).pumpAll) ∧
              (l.any (q.shardOpen vat.toNat step) = false → ∀ e : State, e = q.each l (fun s x => s.takeShard vat.toNat step x) →
                exec (.stepLoopStep vat) s = .next ((e.setStepRun { r with phase := 0, sent := 0, svcCalled := false, reduced := true,
                                                                           incomplete := r.incomplete + b2n (q.stepIncomplete vat.toNat step) }).svcSet vat.toNat (flagBit 63)).pumpAll))))) ∧
      (∀ base size n, s.batchAt vat.toNat = some (base, size) → mget 0 s.svc.rounds vat.toNat = 2 * n →
        exec (.batchRound vat) s = .next ((s.admitReqs vat.toNat).startRound vat.toNat base size n)))

/-- HOST_LINK_DOWN, HOST_LINK_UP, MODULE_ANNOUNCE, FORMATION_END, MODULE_JOIN, MODULE_LOST, LEAD_LOST, LEAD_REFORM_TIMEOUT. -/
def Obligations.SystemOfModules : Prop :=
  ∀ s : State,
    (s.host.up = true → exec .hostLinkDown s = .next { s with host := { s.host with up := false } }) ∧
    (s.isLead = true → s.buSt = 12 → exec .hostLinkUp s = .next { s with host := { s.host with up := true } }) ∧
    (s.host.inSystem = true →
      (∀ m : BitVec 6, m.toNat ≠ s.ownMod → m.toNat < 16 * s.host.depthZ →
        (s.rd Reg.FN_SYS_FORMED 0 = 0 → ∃ u, exec (.moduleAnnounce m) s = .next u ∧ u.host.announced = (s.host.announced ++ [m.toNat]).dedup ∧
          u.host.upMods = (s.host.upMods ++ [m.toNat]).dedup ∧ u.regs = s.regs) ∧
        (s.rd Reg.FN_SYS_FORMED 0 = 1 → s.host.upMods.contains m.toNat = false → ∀ v : State,
          v = { s with host := { s.host with upMods := s.host.upMods ++ [m.toNat], announced := (s.host.announced ++ [m.toNat]).dedup } } →
          exec (.moduleJoin m) s = .next ((v.bumpW Reg.FN_SYS_MODULES 0).event (2 + m.toNat * 2 ^ 16)))) ∧
      (∀ (cabled : List Nat) (lead : Nat), s.buSt = 12 → s.rd Reg.FN_SYS_FORMED 0 = 0 → s.host.leadLostAt = none →
        s.host.announced.length = 16 * s.host.depthZ → (cabled.filter s.host.announced.contains).min? = some lead →
        (cabled.contains s.ownMod = false ∨ lead = s.ownMod) → lead < 64 → ∃ u, exec (.formationEnd ⟨cabled, none⟩) s = .next u ∧
          u.rd Reg.FN_SYS_LEAD 0 = lead ∧ u.rd Reg.FN_SYS_FORMED 0 = 1 ∧ u.host.up = (lead == s.ownMod) ∧
          u.rd Reg.FN_SYS_MODULES 0 = 16 * s.host.depthZ % 128) ∧
      (∀ (cabled : List Nat) (m : BitVec 6), s.buSt = 12 → s.rd Reg.FN_SYS_FORMED 0 = 0 → s.host.leadLostAt = none → m.toNat ≠ s.ownMod →
        cabled.contains s.ownMod = false → ∃ u, exec (.formationEnd ⟨cabled, some m⟩) s = .next u ∧ u.rd Reg.FN_SYS_LEAD 0 = m.toNat ∧
          u.rd Reg.FN_SYS_FORMED 0 = 1 ∧ u.host.up = false ∧ u.rd Reg.FN_SYS_MODULES 0 = s.host.announced.length % 128) ∧
      (s.rd Reg.FN_SYS_FORMED 0 = 1 → s.rd Reg.FN_SYS_LEAD 0 ≠ s.ownMod → s.vats = [] → ∃ u, exec .leadLost s = .next u ∧
        u.rd Reg.FN_SYS_FORMED 0 = 0 ∧ u.host.leadLostAt = some s.age ∧ u.host.announced = s.host.announced.filter (· != s.rd Reg.FN_SYS_LEAD 0))) ∧
    (∀ m : BitVec 6, s.host.upMods.contains m.toNat = true → s.vats = [] → ∀ v : State,
      v = { s with host := { s.host with upMods := s.host.upMods.filter (· != m.toNat), announced := s.host.announced.filter (· != m.toNat) } } →
      exec (.moduleLost m) s = .next (((v.wr Reg.FN_SYS_MODULES 0 (s.rd Reg.FN_SYS_MODULES 0 - 1)).faultRec
        { type := evModuleLost, d0 := m.toNat }).event (3 + m.toNat * 2 ^ 16))) ∧
    (∀ t, s.host.leadLostAt = some t → t + 54000000000 ≤ s.age →
      exec .leadReformTimeout s = .next (s.releaseVats ((s.vats.filter fun v => v.parent == 0).map Vat.id)))

/-- READ_SENSORS, SET_POWER_CAP, SET_TORUS_POSITION, FIRMWARE_UPDATE, ATTESTATION, READ_FIELD_LOG, CONGESTION_RECORD. -/
def Obligations.Management : Prop :=
  ∀ s : State,
    (2 ≤ s.buSt →
      (∀ ifc, exec (.readSensors ifc (.sensor 0x10)) s = .next (s.answer [s.rd Reg.IN_STATUS_VIN 0])) ∧
      (∀ ifc w, 4000 ≤ w → w ≤ 17500 → ∃ u, exec (.setPowerCap ifc w) s = .next u ∧ u.rd Reg.LG_CAP_CAP_W 0 = w ∧ u.mem = s.mem) ∧
      (∀ (x y z : BitVec 2) (depth : BitVec 3), 1 ≤ depth.toNat → depth.toNat ≤ 4 → z.toNat < depth.toNat →
        ∃ u, exec (.setTorusPosition .redfish x y z depth) s = .next u ∧ u.host = s.host ∧ u.rd Reg.TORUS_X 0 = x.toNat ∧
          u.rd Reg.TORUS_Y 0 = y.toNat ∧ u.rd Reg.TORUS_Z 0 = z.toNat ∧ u.rd Reg.TORUS_DEPTH 0 = depth.toNat ∧ u.rd Reg.TORUS_VALID 0 = 1) ∧
      (∀ ifc (p : UpdateIn), p.culture = false → ∀ i, i = 1 - s.boot.svcInUse →
        (p.interrupted = true → exec (.firmwareUpdate ifc p) s = .next { s with boot := { s.boot with svc := s.boot.svc.set i {} } }) ∧
        (p.interrupted = false → ∀ (x : Slot) (u : State), x = ⟨true, p.data, p.svn.toNat, p.keyIndex.toNat, p.release.toNat, sigsBoth p.sigs⟩ →
          u = { s with boot := { s.boot with svc := s.boot.svc.set i x } } →
          exec (.firmwareUpdate ifc p) s = .next (u.answer [if u.svcOk i then 1 else 0]))) ∧
      (s.rd Reg.LC_STATUS_STATE 0 ≠ 0 → ∃ u, exec (.attestation .mctp (.getMeasurements 3)) s = .next u ∧ u.regs = s.regs ∧
        u.mgmt.answers.take (s.mgmt.answers.length + 6) = s.mgmt.answers ++ (List.range 6).map fun n => w64 (s.rd Reg.CUL_DIGEST_DIGEST 0 n)) ∧
      (∀ (area : BitVec 2) (idx : Nat), exec (.readFieldLog .redfish area idx) s =
        .next (s.answer (((s.logArea area.toNat).getD idx []).map BitVec.toNat)))) ∧
    (s.clk.started = true → s.rd Reg.CM_CTL_ENABLE 0 = 1 → s.now / 900000 = s.cong.at_ + 1 → ∃ u, exec .congestionRecord s = .next u ∧
      u.cong.at_ = s.cong.at_ + 1 ∧ u.cong.seq = s.cong.seq + 1 ∧
      u.rd Reg.CM_HEAD_HEAD 0 = (s.rd Reg.CM_HEAD_HEAD 0 + 1) % 2 ^ Reg.CM_HEAD_HEAD.w)

/-- SHIP, RETURN, SCRAP, OWNER_CLAIM, OWNER_KEY_REPLACE, COMMIT_SVN, KEY_REVOCATION, REGRADE, GET_NONCE, TOKEN_INSTALL, REVOKE_TOKEN,
TOKEN_LAPSE. -/
def Obligations.LifeCycle : Prop :=
  ∀ s : State,
    (∀ sig : Sigs, sigsBoth sig = true → 2 ≤ s.buSt →
      (s.rd Reg.LC_STATUS_STATE 0 = 1 → ∃ u, exec (.ship .redfish sig) s = .next u ∧ u.rd Reg.LC_STATUS_STATE 0 = 2 ∧ u.mgmt.token = none) ∧
      (s.rd Reg.LC_STATUS_STATE 0 = 3 → s.pwr.lossAt = none → ∃ u, exec (.scrap .redfish false sig) s = .next u ∧
        u.rd Reg.LC_STATUS_STATE 0 = 4 ∧ u.rd Reg.LC_STATUS_OWNED 0 = 0 ∧ u.mgmt.ownerKey = none ∧ u.vats = []) ∧
      (s.rd Reg.LC_STATUS_STATE 0 = 2 → s.mgmt.ownerKey ≠ none →
        (s.vats = [] → s.pwr.lossAt = none → exec (.returnCmd .redfish sig) s = .next ((s.toLife 3).eraseOwner.coldStart 6 0)) ∧
        (∀ key, ∃ u, exec (.ownerKeyReplace .redfish key sig) s = .next u ∧ u.mgmt.ownerKey = some key ∧ u.mgmt.token = none) ∧
        (∀ v, v = (s.boot.svc.getD s.boot.svcInUse {}).svn → s.mgmt.svcMin < v → s.rd Reg.LC_SVN_SVN_STEPS_SVC 0 < 32 →
          ∃ u, exec (.commitSvn .redfish false sig) s = .next u ∧ u.mgmt.svcMin = v ∧
            u.rd Reg.LC_SVN_SVN_STEPS_SVC 0 = s.rd Reg.LC_SVN_SVN_STEPS_SVC 0 + 1) ∧
        (∀ body : BitVec 384, s.tokenOk body.toNat = true → ∃ u, exec (.tokenInstall .redfish body sig) s = .next u ∧ u.mgmt.token = some body ∧
          u.mgmt.nonce = none ∧ u.mgmt.tokenEnd = s.age + 900000000 * bitsOf body.toNat 272 256 ∧ u.rd Reg.LC_STATUS_TOKEN_ACTIVE 0 = 1 ∧
          u.rd Reg.LC_STATUS_LINK_INJECT 0 = bitsOf body.toNat 4 4)) ∧
      (∀ signer slot : BitVec 2, let r := s.rd Reg.LC_SVN_KEY_REVOKED 0
        bitOf r signer.toNat = false → bitOf r slot.toNat = false → ((List.range 4).filter fun k => !bitOf r k) ≠ [slot.toNat] →
        exec (.keyRevocation .redfish signer slot sig) s = .next (s.wr Reg.LC_SVN_KEY_REVOKED 0 (r + 2 ^ slot.toNat))) ∧
      (∀ (t : Tile) (p : PSite) (g : Grade), s.rd Reg.LC_STATUS_STATE 0 = 3 → mget 0 s.mgmt.grades (dieKey t.val p.val) = 0 → g.crcOk = true →
        ∃ u, exec (.regrade .redfish t p g sig) s = .next u ∧ u.regs = s.regs ∧
          mget 0 u.mgmt.grades (dieKey t.val p.val) = 6 + (if g.bad then 1 else 0) ∧
          u.lnk.bad = s.lnk.bad.filter fun x => !g.clearLanes.contains x)) ∧
    (∀ key : Nat, 2 ≤ s.buSt → s.rd Reg.LC_STATUS_STATE 0 = 2 → s.mgmt.ownerKey = none → s.rd Reg.TR_FP_PRESENCE_OPEN 0 = 1 →
      s.age < s.mgmt.presenceEnd → exec (.ownerClaim .redfish key) s =
        .next (State.wr { s with mgmt := { s.mgmt with ownerKey := some key } } Reg.LC_STATUS_OWNED 0 1)) ∧
    (2 ≤ s.buSt → ∃ u, exec (.getNonce .redfish) s = .next u ∧ u.free = s.free + 2 ∧ u.mgmt.nonce.map Prod.snd = some (s.age + 540000000000) ∧
      u.mgmt.answers.length = s.mgmt.answers.length + 2) ∧
    (s.mgmt.token ≠ none →
      (2 ≤ s.buSt → ∃ u, exec (.revokeToken .redfish) s = .next u ∧ u.mgmt.token = none ∧ u.rd Reg.LC_STATUS_TOKEN_ACTIVE 0 = 0) ∧
      (s.mgmt.tokenEnd ≤ s.age → ∃ u, exec .tokenLapse s = .next u ∧ u.mgmt.token = none ∧ u.rd Reg.LC_STATUS_TOKEN_ACTIVE 0 = 0))

/-- THERMAL_SAMPLE, LIFE_COUNTER_SAVE, THERMAL_FORECAST, DIE_TEMP_THROTTLE, SENSOR_DISAGREEMENT, COMPARATOR_TRIP, COMPARATOR_RESTART,
BUTTON_RELEASE, PRESENCE_WINDOW_EXPIRY. -/
def Obligations.ThermalAndTray : Prop :=
  ∀ s : State,
    (∀ (x : TempSample) (live : List Nat) (top : Nat), s.vlnk x.tile.val = true →
      live = ((List.range x.readings.length).filter fun i => decide (28 ≤ i) || s.dieOn x.tile.val (i / 4)) → live ≠ [] →
      top = live.foldl (fun m i => max m (x.readings.getD i 0)) 0 → ∃ u, exec (.thermalSample [x]) s = .next u ∧ u.mem = s.mem ∧
        u.rd Reg.TL_TEMP_TEMP x.tile.val = min top 255 ∧ u.rd Reg.TL_TEMP_PEAK x.tile.val = max (min top 255) (s.rd Reg.TL_TEMP_PEAK x.tile.val) % 256) ∧
    (2 ≤ s.buSt → s.tray.savedAt + 540000000000 ≤ s.age → ∃ u, exec .lifeCounterSave s = .next u ∧ u.tray.savedAt = s.age ∧
      u.tray.savedResidue = s.tray.residue ∧ u.mem = s.mem) ∧
    (2 ≤ s.buSt → ∀ inlet outlet flow : Nat, 0 < flow → flow < 2 ^ 10 → inlet < 2 ^ 12 → outlet < 2 ^ 12 →
      ∃ u, exec (.thermalForecast inlet outlet flow) s = .next u ∧ u.rd Reg.TR_COOL_INLET 0 = inlet ∧ u.rd Reg.TR_COOL_OUTLET 0 = outlet ∧
        u.rd Reg.TR_COOL_FLOW 0 = flow ∧ u.rd Reg.TR_FCST_OUT_FCST 0 = min 4095 (inlet + 1000 * s.rd Reg.TR_FCST_P_FCST 0 / (593 * flow)) ∧
        u.rd Reg.TR_FCST_THERM_LIMIT_W 0 = min 65535 (593 * flow * (10 * s.rd Reg.TR_CTL_OUT_LIMIT 0 - inlet) / 1000)) ∧
    (∀ (t : Tile) (temp : Nat), s.cellOn t.val = true →
      (100 ≤ temp → s.pwr.hot = [] → ∃ u, exec (.dieTempThrottle t temp) s = .next u ∧ u.pwr.hot = [t.val] ∧
        u.rd Reg.PW_STATUS_LIMITING t.val = 1 ∧ u.rd Reg.PW_POWER_LIMIT_EVENTS t.val = min (s.rd Reg.PW_POWER_LIMIT_EVENTS t.val + 1) 65535) ∧
      (temp < 95 → s.pwr.hot = [t.val] → s.pwr.limiting = [] → ∃ u, exec (.dieTempThrottle t temp) s = .next u ∧ u.pwr.hot = [] ∧
        u.rd Reg.PW_STATUS_LIMITING t.val = 0)) ∧
    (2 ≤ s.buSt → exec (.sensorDisagreement true) s = .next (s.faultRec { type := evSensorBad, d0 := 0xC02 }) ∧
      exec (.sensorDisagreement false) s = .next (s.faultRec { type := evSensorBad, d0 := 0xC01 })) ∧
    (s.fuseLive = true → ∃ u, exec (.comparatorTrip false true true) s = .next u ∧ u.rd Reg.IN_STATUS_EFUSE 0 = 0 ∧
      u.rd Reg.TR_CMP_LAST_CUT 0 = 2 ∧ u.tray.cutAt = some s.age ∧ u.vats = []) ∧
    (∀ (t outlet : Nat), s.tray.cutAt = some t → t + 54000000000 ≤ s.age → outlet < 550 →
      (∀ u : State, u = { s with tray := { s.tray with cutAt := none } } → 3 ≤ s.restarts →
        exec (.comparatorRestart outlet true) s = .next (u.wr Reg.TR_CMP_LOCKOUT 0 1)) ∧
      (s.restarts < 3 → s.pwr.pin = true → s.pwr.inputGone = false → s.pwr.ovAt = none → s.pwr.lossAt = none → s.rd Reg.IN_STATUS_EFUSE 0 = 0 →
        s.rd Reg.TR_CMP_LOCKOUT 0 = 0 → s.rd Reg.RM_STATUS_PHASE 0 = 0 → ∃ u, exec (.comparatorRestart outlet true) s = .next u ∧
          u.rd Reg.IN_STATUS_EFUSE 0 = 1 ∧ u.tray.cutAt = none ∧ u.pwr.precharge = some s.age)) ∧
    (s.pwr.mated = true → ∀ ms : Nat,
      (50 ≤ ms → ms < 5000 → exec (.buttonRelease ms) s = exec .removeRequest s) ∧
      (5000 ≤ ms → ∃ u, exec (.buttonRelease ms) s = .next u ∧ u.mem = s.mem ∧ u.rd Reg.TR_FP_PRESENCE_OPEN 0 = 1 ∧
        u.mgmt.presenceEnd = s.age + 54000000000)) ∧
    (s.rd Reg.TR_FP_PRESENCE_OPEN 0 = 1 → s.mgmt.presenceEnd ≤ s.age → exec .presenceWindowExpiry s = .next (s.wr Reg.TR_FP_PRESENCE_OPEN 0 0))

/-- R158 with Table 6.3. -/
def Obligations.FixedPails : Prop :=
  (∀ (s : State) (core : Nat), slotOf core < 5 →
    let m (a b c : Nat) : Nat := if slotOf core < 2 then a else if slotOf core < 4 then b else c
    s.pail core 0 = ⟨true, true, false, 0, 0, 0x000 * 4096, (m 0x9FF 0x4FF 0x1FF + 1) * 4096, 0⟩ ∧
    s.pail core 63 = ⟨true, true, false, 0, 0, m 0x900 0x4F0 0x1F0 * 4096, (m 0x0FF 0x00F 0x00F + 1) * 4096, 0⟩) ∧
  (∀ (c : Clu) (f : FmtP) (s : State), Fetches s (cluKey c) → f.slot.toNat ≤ 4 → f.rs3 = 0 → f.sigCtr = 0 → f.sigEn = false → f.rsv = 0 →
    (f.pail = 0 ∨ f.pail = 63) →
    let cause := if (s.sc (cluKey c)).priv then 0x04 else 0x02
    exec (.pSet c f) s = .next ((fetched s (cluKey c)).trapNoAddr (cluKey c) cause) ∧
    (f.rs1 = 0 → f.rs2 = 0 → exec (.pFree c f) s = .next ((fetched s (cluKey c)).trapNoAddr (cluKey c) cause)))

/-- R181, for T1: mark 1 of the poison map is a poisoned line. -/
def Obligations.PoisonedLines : Prop :=
  ∀ (s : State) (off lk : Nat), lk = t1Key off / 64 → off < t1Cap → mwf 0 s.tier.poison = true → mget 0 s.tier.poison lk = 1 →
    (∀ a len, 0 < len → a + len ≤ t1Cap → t1Key a / 64 ≤ lk → lk ≤ (t1Key a + len - 1) / 64 → (s.readMem (.t1 a) len).2.2 = true) ∧
    (∀ len, 0 < len → off % 64 + len ≤ 64 → (s.readMem (.t1 off) len).1 = s) ∧
    (s.unitLost (off / 4096 % 24) = false → ∀ bs : List Byte,
      (off % 64 = 0 → bs.length = 64 → let u := s.writeMem (.t1 off) bs
        mget 0 u.tier.poison lk = 0 ∧ u.ldBytes (t1Key off) 64 = bs ∧ u.regs = s.regs) ∧
      (0 < bs.length → bs.length < 64 → off % 64 + bs.length ≤ 64 →
        s.writeMem (.t1 off) bs = s.bump Reg.TM_ERR_POISONED (off / 4096 % 24)))

/-- Commands of the S-core that read and write only its own registers. -/
def Sys2Proof.registerOnly (c : Clu) : Instr → Bool
  | .add d _ => d == c
  | .sub d _ => d == c
  | .andR d _ => d == c
  | .orR d _ => d == c
  | .xorR d _ => d == c
  | .shl d _ => d == c
  | .shr d _ => d == c
  | .sra d _ => d == c
  | .slt d _ => d == c
  | .sltu d _ => d == c
  | .mul d _ => d == c
  | .mulh d _ => d == c
  | .mulhu d _ => d == c
  | .div d _ => d == c
  | .divu d _ => d == c
  | .rem d _ => d == c
  | .remu d _ => d == c
  | .addi d _ => d == c
  | .andi d _ => d == c
  | .ori d _ => d == c
  | .xori d _ => d == c
  | .shli d _ => d == c
  | .shri d _ => d == c
  | .srai d _ => d == c
  | .li d _ => d == c
  | .lih d _ => d == c
  | .faddS d _ => d == c
  | .faddD d _ => d == c
  | .fsubS d _ => d == c
  | .fsubD d _ => d == c
  | .fmulS d _ => d == c
  | .fmulD d _ => d == c
  | .fdivS d _ => d == c
  | .fdivD d _ => d == c
  | .fmaS d _ => d == c
  | .fmaD d _ => d == c
  | .fsqrtS d _ => d == c
  | .fsqrtD d _ => d == c
  | .beq d _ => d == c
  | .bne d _ => d == c
  | .blt d _ => d == c
  | .bge d _ => d == c
  | .bltu d _ => d == c
  | .bgeu d _ => d == c
  | .jal d _ => d == c
  | .jalr d _ => d == c
  | _ => false

/-- What a register instruction may change. -/
def Obligations.RegisterFrame : Prop :=
  ∀ (c : Clu) (i : Instr) (s t : State), registerOnly c i = true → (s.sc (cluKey c)).inSH = false → exec i s = .next t →
    t.mem = s.mem ∧ (∀ k, k ≠ cluKey c → t.sc k = s.sc k) ∧
    (∀ f inst idx, (∀ g ∈ [Reg.SCR_ECC_CORRECTED, Reg.SCR_ECC_UNCORRECTED, Reg.SCR_ECC_LAST_UE, Reg.SCR_ECC_LAST_SRC, Reg.SCR_ECC_UE_NEW],
      fkey g (coreOf (cluKey c) 4) 0 ≠ fkey f inst idx) → t.rd f inst idx = s.rd f inst idx) ∧
    ∃ r x w u n, t = { s with regs := r, free := n, cmp := { s.cmp with sc := x, wback := w, ueNew := u } }

/-- R523, at State.reset. The bytes' value is a DESIGN CHOICE (log 3). -/
def Obligations.ResetState : Prop :=
  (∀ f inst idx, State.reset.rd f inst idx = f.rst) ∧ State.reset.pending = [] ∧ State.reset.vats = [] ∧
  (∀ k, (State.reset.sc k).up = false) ∧ (∀ a, State.reset.byte a = 0) ∧ Safe State.reset

/-- Every step keeps Safe. -/
def Obligations.StepKeepsSafe : Prop := ∀ s t : State, Safe s → step s = .next t → Safe t
end

