-- ==== Sys2Proof/Laws/Maps.lean ====
section
/-! SUPPORT. Laws of the sparse maps and of memory: reading after a write, and that every operation keeps the canonical form. -/

namespace Sys2Proof.Machine

variable {α : Type} [DecidableEq α]

omit [DecidableEq α] in
theorem mget_minsert (d : α) (m : FMap α) (k j : Nat) (v : α) : mget d (minsert k v m) j = if k = j then v else mget d m j := by
  induction m with
  | nil => simp [minsert, mget]
  | cons e r ih =>
    obtain ⟨k', v'⟩ := e
    simp only [minsert]
    split
    · simp [mget]
    · split
      · subst_vars; simp only [mget]; split <;> simp_all
      · simp only [mget, ih]; split <;> split <;> simp_all

omit [DecidableEq α] in
theorem mget_merase (d : α) (m : FMap α) (k j : Nat) : mget d (merase k m) j = if k = j then d else mget d m j := by
  induction m with
  | nil => simp [merase, mget]
  | cons e r ih =>
    obtain ⟨k', v'⟩ := e
    simp only [merase]
    split
    · subst_vars; rw [ih]; simp only [mget]; split <;> simp_all
    · simp only [mget, ih]; split <;> split <;> simp_all

/-- Read after write. -/
theorem mget_mset (d : α) (m : FMap α) (k j : Nat) (v : α) : mget d (mset d m k v) j = if k = j then v else mget d m j := by
  unfold mset
  split
  · subst_vars; exact mget_merase v m k j
  · exact mget_minsert d m k j v

@[simp] theorem mget_mset_self (d : α) (m : FMap α) (k : Nat) (v : α) : mget d (mset d m k v) k = v := by simp [mget_mset]

theorem mget_mset_ne (d : α) (m : FMap α) {k j : Nat} (v : α) (h : k ≠ j) : mget d (mset d m k v) j = mget d m j := by
  simp [mget_mset, h]

theorem mwfFrom_le (d : α) : ∀ (m : FMap α) (a b : Nat), a ≤ b → mwfFrom d b m = true → mwfFrom d a m = true
  | [], _, _, _, _ => rfl
  | (k, v) :: r, a, b, h, w => by
    simp only [mwfFrom, Bool.and_eq_true, decide_eq_true_eq] at w ⊢
    exact ⟨⟨by omega, w.1.2⟩, w.2⟩

theorem mwfFrom_mem (d : α) : ∀ (m : FMap α) (a : Nat), mwfFrom d a m = true → ∀ e ∈ m, a ≤ e.1 ∧ e.2 ≠ d
  | [], _, _, _, h => by cases h
  | (k, v) :: r, a, w, e, h => by
    simp only [mwfFrom, Bool.and_eq_true, decide_eq_true_eq] at w
    rcases List.mem_cons.1 h with rfl | h
    · exact ⟨w.1.1, w.1.2⟩
    · have := mwfFrom_mem d r _ w.2 e h
      exact ⟨by omega, this.2⟩

theorem mwfFrom_filter (d : α) (p : Nat × α → Bool) : ∀ (m : FMap α) (a : Nat), mwfFrom d a m = true → mwfFrom d a (m.filter p) = true
  | [], _, _ => rfl
  | (k, v) :: r, a, w => by
    simp only [mwfFrom, Bool.and_eq_true, decide_eq_true_eq] at w
    have ih := mwfFrom_filter d p r _ w.2
    by_cases hp : p (k, v) = true
    · simp only [List.filter_cons, hp, if_true, mwfFrom, Bool.and_eq_true, decide_eq_true_eq]
      exact ⟨w.1, ih⟩
    · simp only [List.filter_cons, hp]
      exact mwfFrom_le d _ _ _ (by omega) ih

theorem mwf_filter (d : α) (p : Nat × α → Bool) (m : FMap α) (w : mwf d m = true) : mwf d (m.filter p) = true := mwfFrom_filter d p m 0 w

theorem mwf_mkeep (d : α) (p : Nat → Bool) (m : FMap α) (w : mwf d m = true) : mwf d (mkeep p m) = true := mwf_filter d _ m w

theorem mwfFrom_minsert (d : α) (k : Nat) (v : α) (hv : v ≠ d) : ∀ (m : FMap α) (a : Nat), mwfFrom d a m = true →
    mwfFrom d (min a k) (minsert k v m) = true
  | [], a, _ => by simp [minsert, mwfFrom, hv]
  | (k', v') :: r, a, w => by
    simp only [mwfFrom, Bool.and_eq_true, decide_eq_true_eq] at w
    simp only [minsert]
    split
    · simp only [mwfFrom, Bool.and_eq_true, decide_eq_true_eq]
      exact ⟨⟨by omega, hv⟩, ⟨by omega, w.1.2⟩, w.2⟩
    · split
      · subst_vars
        simp only [mwfFrom, Bool.and_eq_true, decide_eq_true_eq]
        exact ⟨⟨by omega, hv⟩, w.2⟩
      · simp only [mwfFrom, Bool.and_eq_true, decide_eq_true_eq]
        have ih := mwfFrom_minsert d k v hv r _ w.2
        exact ⟨⟨by omega, w.1.2⟩, mwfFrom_le d _ _ _ (by omega) ih⟩

theorem mwf_minsert (d : α) (m : FMap α) (k : Nat) (v : α) (hv : v ≠ d) (w : mwf d m = true) : mwf d (minsert k v m) = true :=
  mwfFrom_le d _ _ _ (Nat.zero_le _) (mwfFrom_minsert d k v hv m 0 w)

omit [DecidableEq α] in
theorem merase_eq (m : FMap α) (k : Nat) : merase k m = m.filter fun e => !(e.1 == k) := by
  induction m with
  | nil => rfl
  | cons e r ih =>
    obtain ⟨k', v'⟩ := e
    simp only [merase, List.filter_cons]
    split <;> simp_all

/-- A write keeps the canonical form. -/
theorem mwf_mset (d : α) (m : FMap α) (k : Nat) (v : α) (w : mwf d m = true) : mwf d (mset d m k v) = true := by
  unfold mset
  split
  · rw [merase_eq]; exact mwf_filter d _ m w
  · exact mwf_minsert d m k v ‹_› w

theorem mwf_foldl_minsert (d : α) (g : Nat × α → Nat) : ∀ (es : FMap α) (m : FMap α), (∀ e ∈ es, e.2 ≠ d) → mwf d m = true →
    mwf d (es.foldl (fun a e => minsert (g e) e.2 a) m) = true
  | [], _, _, w => w
  | e :: r, m, h, w => mwf_foldl_minsert d g r _ (fun x hx => h x (List.mem_cons_of_mem _ hx))
      (mwf_minsert d m _ _ (h e List.mem_cons_self) w)

theorem mwf_mmove (d : α) (src dst n : Nat) (m : FMap α) (w : mwf d m = true) : mwf d (mmove src dst n m) = true :=
  mwf_foldl_minsert d (fun e => e.1 - src + dst) _ _ (fun e he => (mwfFrom_mem d m 0 w e (List.mem_filter.1 he).1).2) (mwf_filter d _ m w)

theorem mwf_mmerge (d : α) (a m : FMap α) (wa : mwf d a = true) (w : mwf d m = true) : mwf d (mmerge a m) = true :=
  mwf_foldl_minsert d Prod.fst _ _ (fun e he => (mwfFrom_mem d a 0 wa e he).2) w

/-! ### Memory -/

theorem mwfFrom_append (d : α) : ∀ (l m : FMap α) (a b : Nat), mwfFrom d a l = true → (∀ e ∈ l, e.1 < b) → a ≤ b → mwfFrom d b m = true →
    mwfFrom d a (l ++ m) = true
  | [], m, a, b, _, _, h, w => mwfFrom_le d m a b h w
  | (k, v) :: r, m, a, b, wl, hl, h, w => by
    simp only [mwfFrom, Bool.and_eq_true, decide_eq_true_eq] at wl
    simp only [List.cons_append, mwfFrom, Bool.and_eq_true, decide_eq_true_eq]
    have := hl (k, v) List.mem_cons_self
    exact ⟨wl.1, mwfFrom_append d r m (k + 1) b wl.2 (fun e he => hl e (List.mem_cons_of_mem _ he)) (by simp at this; omega) w⟩

theorem cellsFrom_bounds : ∀ (bs : List Byte) (a : Nat) (e : Nat × Byte), e ∈ cellsFrom a bs → a ≤ e.1 ∧ e.1 < a + bs.length
  | [], _, _, h => by cases h
  | b :: r, a, e, h => by
    simp only [cellsFrom] at h
    simp only [List.length_cons]
    split at h
    · have := cellsFrom_bounds r (a + 1) e h; omega
    · rcases List.mem_cons.1 h with rfl | h
      · simp
      · have := cellsFrom_bounds r (a + 1) e h; omega

theorem cellsFrom_wf : ∀ (bs : List Byte) (a : Nat), mwfFrom 0 a (cellsFrom a bs) = true
  | [], _ => rfl
  | b :: r, a => by
    simp only [cellsFrom]
    split
    · exact mwfFrom_le 0 _ _ _ (by omega) (cellsFrom_wf r (a + 1))
    · simp only [mwfFrom, Bool.and_eq_true, decide_eq_true_eq]
      exact ⟨⟨by omega, ‹_›⟩, cellsFrom_wf r (a + 1)⟩

theorem mwfFrom_lift (d : α) : ∀ (m : FMap α) (a b : Nat), mwfFrom d a m = true → (∀ e ∈ m, b ≤ e.1) → mwfFrom d b m = true
  | [], _, _, _, _ => rfl
  | (k, v) :: r, a, b, w, h => by
    simp only [mwfFrom, Bool.and_eq_true, decide_eq_true_eq] at w ⊢
    exact ⟨⟨h (k, v) List.mem_cons_self, w.1.2⟩, w.2⟩

/-- A store keeps the canonical form. -/
theorem memPut_wf (m : List Host.Cell) (a : Nat) (bs : List Byte) (w : Memory.wf m) : Memory.wf (memPut m a bs) := by
  unfold memPut Memory.wf mwf
  rw [List.append_assoc]
  refine mwfFrom_append 0 _ _ 0 a (mwfFrom_filter 0 _ m 0 w) ?_ (Nat.zero_le _) ?_
  · intro e he; simpa using (List.mem_filter.1 he).2
  refine mwfFrom_append 0 _ _ a (a + bs.length) (cellsFrom_wf bs a) (fun e he => (cellsFrom_bounds bs a e he).2) (by omega) ?_
  exact mwfFrom_lift 0 _ 0 _ (mwfFrom_filter 0 _ m 0 w) (fun e he => by simpa using (List.mem_filter.1 he).2)

/-- Clearing a range keeps the canonical form. -/
theorem memZero_wf (m : List Host.Cell) (a n : Nat) (w : Memory.wf m) : Memory.wf (memZero m a n) := mwf_filter 0 _ m w

omit [DecidableEq α] in
theorem mget_append (d : α) (l m : FMap α) (k : Nat) : mget d (l ++ m) k = if (∃ e ∈ l, e.1 = k) then mget d l k else mget d m k := by
  induction l with
  | nil => simp
  | cons e r ih =>
    obtain ⟨k', v'⟩ := e
    simp only [List.cons_append, mget]
    by_cases h : k' = k
    · simp [h]
    · simp only [h, if_false, ih]
      have : (∃ e ∈ (k', v') :: r, e.1 = k) ↔ ∃ e ∈ r, e.1 = k := by simp [h]
      simp only [this]

omit [DecidableEq α] in
theorem mget_filter (d : α) (p : Nat → Bool) (m : FMap α) (k : Nat) :
    mget d (m.filter fun e => p e.1) k = if p k then mget d m k else d := by
  induction m with
  | nil => simp [mget]
  | cons e r ih =>
    obtain ⟨k', v'⟩ := e
    by_cases h : p k'
    · simp only [List.filter_cons, h, if_true, mget, ih]
      split <;> simp_all
    · simp only [List.filter_cons, h, mget]
      rw [if_neg (by simp), ih]
      by_cases hk : k' = k
      · subst hk; simp [h]
      · simp [hk]

omit [DecidableEq α] in
theorem mget_not_mem (d : α) (m : FMap α) (k : Nat) (h : ∀ e ∈ m, e.1 ≠ k) : mget d m k = d := by
  induction m with
  | nil => rfl
  | cons e r ih =>
    obtain ⟨k', v'⟩ := e
    simp only [mget]
    rw [if_neg (h _ List.mem_cons_self), ih fun e he => h e (List.mem_cons_of_mem _ he)]

theorem mget_cellsFrom : ∀ (bs : List Byte) (a k : Nat), mget 0 (cellsFrom a bs) k = if a ≤ k ∧ k < a + bs.length then bs.getD (k - a) 0 else 0
  | [], a, k => by simp [cellsFrom, mget]
  | b :: r, a, k => by
    have ih := mget_cellsFrom r (a + 1) k
    simp only [cellsFrom, List.length_cons]
    by_cases hk : k = a
    · subst hk
      by_cases hb : b = 0
      · simp only [hb, if_true, ih]; simp
      · rw [if_neg hb]; simp [mget]
    · have e1 : (a ≤ k ∧ k < a + (r.length + 1)) ↔ (a + 1 ≤ k ∧ k < a + 1 + r.length) := by omega
      have e2 : a + 1 ≤ k → (b :: r).getD (k - a) 0 = r.getD (k - (a + 1)) 0 := by
        intro h
        obtain ⟨j, rfl⟩ := Nat.exists_eq_add_of_le h
        rw [show a + 1 + j - a = j + 1 by omega, show a + 1 + j - (a + 1) = j by omega]
        simp
      split <;> rename_i hb
      · rw [ih]; simp only [e1]; split
        · rename_i h; rw [e2 h.1]
        · rfl
      · simp only [mget]
        rw [if_neg (by omega), ih]; simp only [e1]; split
        · rename_i h; rw [e2 h.1]
        · rfl

/-- Reading memory after a store: the stored bytes in the range, what was there elsewhere. -/
theorem mget_memPut (m : List Host.Cell) (a : Nat) (bs : List Byte) (k : Nat) :
    mget 0 (memPut m a bs) k = if a ≤ k ∧ k < a + bs.length then bs.getD (k - a) 0 else mget 0 m k := by
  have f1 : mget 0 (m.filter fun e => decide (e.1 < a)) k = if decide (k < a) then mget 0 m k else 0 :=
    mget_filter 0 (fun x => decide (x < a)) m k
  have f2 : mget 0 (m.filter fun e => decide (a + bs.length ≤ e.1)) k = if decide (a + bs.length ≤ k) then mget 0 m k else 0 :=
    mget_filter 0 (fun x => decide (a + bs.length ≤ x)) m k
  have n1 : ¬ k < a → ¬ ∃ e ∈ m.filter (fun e => decide (e.1 < a)), e.1 = k := by
    rintro h ⟨e, he, rfl⟩; exact h (by simpa using (List.mem_filter.1 he).2)
  have z (d : Byte) (l : List Host.Cell) (h : ¬ ∃ e ∈ l, e.1 = k) : mget d l k = d := mget_not_mem d l k fun e he hk => h ⟨e, he, hk⟩
  unfold memPut
  rw [List.append_assoc, mget_append, mget_append, mget_cellsFrom, f1, f2]
  by_cases h1 : k < a
  · have c : ¬ ∃ e ∈ cellsFrom a bs, e.1 = k := by rintro ⟨e, he, rfl⟩; have := cellsFrom_bounds bs a e he; omega
    have q : ¬ (a ≤ k ∧ k < a + bs.length) := by omega
    have q2 : ¬ (a + bs.length ≤ k) := by omega
    simp only [c, h1, q, q2, decide_true, decide_false, if_true, if_false]
    split
    · rfl
    · rename_i hn; have := z 0 _ hn; rw [f1] at this; simp only [h1, decide_true, if_true] at this; rw [this]; simp
  · rw [if_neg (n1 h1)]
    by_cases h2 : k < a + bs.length
    · have q : a ≤ k ∧ k < a + bs.length := by omega
      have q2 : ¬ (a + bs.length ≤ k) := by omega
      simp only [q, q2, and_self, decide_false, if_true]
      split
      · rfl
      · rename_i hn; have := z 0 _ hn; rw [mget_cellsFrom] at this; simp only [q, and_self, if_true] at this; rw [this]; simp
    · have c : ¬ ∃ e ∈ cellsFrom a bs, e.1 = k := by rintro ⟨e, he, rfl⟩; have := cellsFrom_bounds bs a e he; omega
      have q : ¬ (a ≤ k ∧ k < a + bs.length) := by omega
      have q2 : a + bs.length ≤ k := by omega
      rw [if_neg c, if_neg q]; simp [q2]

end Sys2Proof.Machine
end

