-- ==== Sys2Proof/Laws/State.lean ====
section
/-! SUPPORT. One lemma per field and update of State: an update leaves every other field, and every read that does not look at the
field it writes, as they were; and reading back what an update wrote. -/

namespace Sys2Proof.Machine

/-! ### Reading back -/

/-- A register field reads what was written to it, cut to its width. -/
theorem rd_wr_self (s : State) (f : Fld) (i v k : Nat) : (s.wr f i v k).rd f i k = v % 2 ^ f.w := by simp [State.rd, State.wr]

/-- A write of one field leaves every field of another key. -/
theorem rd_wr_ne (s : State) (f g : Fld) (i v k j m : Nat) (h : fkey f i k ≠ fkey g j m) : (s.wr f i v k).rd g j m = s.rd g j m := by
  unfold State.rd State.wr
  by_cases hr : f.rst = g.rst
  · rw [hr]; exact mget_mset_ne _ _ _ h
  · unfold mset; split
    · show mget g.rst (merase _ s.regs) _ = _; rw [mget_merase, if_neg h]
    · show mget g.rst (minsert _ _ s.regs) _ = _; rw [mget_minsert, if_neg h]

theorem wr_mem_wf (s : State) (f : Fld) (i v k : Nat) (h : Memory.wf s.mem) : Memory.wf (s.wr f i v k).mem := h

@[simp] theorem sc_setSc_self (s : State) (ck : Nat) (c : SCore) : (s.setSc ck c).sc ck = c := by simp [State.sc, State.setSc]
theorem sc_setSc_ne (s : State) (ck j : Nat) (c : SCore) (h : ck ≠ j) : (s.setSc ck c).sc j = s.sc j := by
  simp [State.sc, State.setSc, mget_mset_ne, h]
@[simp] theorem que_setQue_self (s : State) (k : Nat) (l : List QEntry) : (s.setQue k l).que k = l := by simp [State.que, State.setQue]
theorem que_setQue_ne (s : State) (k j : Nat) (l : List QEntry) (h : k ≠ j) : (s.setQue k l).que j = s.que j := by
  simp [State.que, State.setQue, mget_mset_ne, h]
@[simp] theorem core_setCore_self (s : State) (k : Nat) (c : CoreRun) : (s.setCore k c).core k = c := by simp [State.core, State.setCore]
theorem core_setCore_ne (s : State) (k j : Nat) (c : CoreRun) (h : k ≠ j) : (s.setCore k c).core j = s.core j := by
  simp [State.core, State.setCore, mget_mset_ne, h]
@[simp] theorem mse_setMse_self (s : State) (k : Nat) (l : List MseOp) : (s.setMse k l).mse k = l := by simp [State.mse, State.setMse]
theorem mse_setMse_ne (s : State) (k j : Nat) (l : List MseOp) (h : k ≠ j) : (s.setMse k l).mse j = s.mse j := by
  simp [State.mse, State.setMse, mget_mset_ne, h]
@[simp] theorem fops_setFops_self (s : State) (k : Nat) (l : List FOp) : (s.setFops k l).fops k = l := by
  simp [State.fops, State.setFops]
theorem fops_setFops_ne (s : State) (k j : Nat) (l : List FOp) (h : k ≠ j) : (s.setFops k l).fops j = s.fops j := by
  simp [State.fops, State.setFops, mget_mset_ne, h]
@[simp] theorem eccAt_setEcc_self (s : State) (w v : Nat) : (s.setEcc w v).eccAt w = v := by simp [State.eccAt, State.setEcc]
theorem eccAt_setEcc_ne (s : State) (w j v : Nat) (h : w ≠ j) : (s.setEcc w v).eccAt j = s.eccAt j := by
  simp [State.eccAt, State.setEcc, mget_mset_ne, h]

/-- A store writes its bytes and no other. -/
theorem byte_stBytes (s : State) (a : Nat) (bs : List Byte) (k : Nat) :
    (s.stBytes a bs).byte k = if a ≤ k ∧ k < a + bs.length then bs.getD (k - a) 0 else s.byte k := mget_memPut s.mem a bs k

theorem stBytes_wf (s : State) (a : Nat) (bs : List Byte) (h : Memory.wf s.mem) : Memory.wf (s.stBytes a bs).mem := memPut_wf _ _ _ h

theorem st_wf (s : State) (a n v : Nat) (h : Memory.wf s.mem) : Memory.wf (s.st a n v).mem := memPut_wf _ _ _ h

@[simp] theorem ldBytes_length (s : State) (a n : Nat) : (s.ldBytes a n).length = n := by simp [State.ldBytes]

/-- Reading a range back after it was stored. -/
theorem ldBytes_stBytes_self (s : State) (a : Nat) (bs : List Byte) : (s.stBytes a bs).ldBytes a bs.length = bs := by
  apply List.ext_getElem
  · simp
  · intro i h1 h2
    simp only [State.ldBytes, List.getElem_map, List.getElem_range, byte_stBytes]
    rw [if_pos (by omega)]; simp [h2]

/-! ### Fields -/

@[simp] theorem wr_pending (s : State) (f : Fld) (i v k : Nat) : (s.wr f i v k).pending = s.pending := rfl
@[simp] theorem wr_now (s : State) (f : Fld) (i v k : Nat) : (s.wr f i v k).now = s.now := rfl
@[simp] theorem wr_age (s : State) (f : Fld) (i v k : Nat) : (s.wr f i v k).age = s.age := rfl
@[simp] theorem wr_free (s : State) (f : Fld) (i v k : Nat) : (s.wr f i v k).free = s.free := rfl
@[simp] theorem wr_mem (s : State) (f : Fld) (i v k : Nat) : (s.wr f i v k).mem = s.mem := rfl
@[simp] theorem wr_cmp (s : State) (f : Fld) (i v k : Nat) : (s.wr f i v k).cmp = s.cmp := rfl
@[simp] theorem wr_tier (s : State) (f : Fld) (i v k : Nat) : (s.wr f i v k).tier = s.tier := rfl
@[simp] theorem wr_sch (s : State) (f : Fld) (i v k : Nat) : (s.wr f i v k).sch = s.sch := rfl
@[simp] theorem wr_fab (s : State) (f : Fld) (i v k : Nat) : (s.wr f i v k).fab = s.fab := rfl
@[simp] theorem wr_lnk (s : State) (f : Fld) (i v k : Nat) : (s.wr f i v k).lnk = s.lnk := rfl
@[simp] theorem wr_ren (s : State) (f : Fld) (i v k : Nat) : (s.wr f i v k).ren = s.ren := rfl
@[simp] theorem wr_vats (s : State) (f : Fld) (i v k : Nat) : (s.wr f i v k).vats = s.vats := rfl
@[simp] theorem wr_pwr (s : State) (f : Fld) (i v k : Nat) : (s.wr f i v k).pwr = s.pwr := rfl
@[simp] theorem wr_clk (s : State) (f : Fld) (i v k : Nat) : (s.wr f i v k).clk = s.clk := rfl
@[simp] theorem wr_flt (s : State) (f : Fld) (i v k : Nat) : (s.wr f i v k).flt = s.flt := rfl
@[simp] theorem wr_boot (s : State) (f : Fld) (i v k : Nat) : (s.wr f i v k).boot = s.boot := rfl
@[simp] theorem wr_host (s : State) (f : Fld) (i v k : Nat) : (s.wr f i v k).host = s.host := rfl
@[simp] theorem wr_svc (s : State) (f : Fld) (i v k : Nat) : (s.wr f i v k).svc = s.svc := rfl
@[simp] theorem wr_cong (s : State) (f : Fld) (i v k : Nat) : (s.wr f i v k).cong = s.cong := rfl
@[simp] theorem wr_mgmt (s : State) (f : Fld) (i v k : Nat) : (s.wr f i v k).mgmt = s.mgmt := rfl
@[simp] theorem wr_tray (s : State) (f : Fld) (i v k : Nat) : (s.wr f i v k).tray = s.tray := rfl
@[simp] theorem byte_wr (s : State) (f : Fld) (i v k : Nat) (b : Nat) : (s.wr f i v k).byte b = s.byte b := rfl
@[simp] theorem ld_wr (s : State) (f : Fld) (i v k : Nat) (b m : Nat) : (s.wr f i v k).ld b m = s.ld b m := rfl
@[simp] theorem ldBytes_wr (s : State) (f : Fld) (i v k : Nat) (b m : Nat) : (s.wr f i v k).ldBytes b m = s.ldBytes b m := rfl
@[simp] theorem sc_wr (s : State) (f : Fld) (i v k : Nat) (j : Nat) : (s.wr f i v k).sc j = s.sc j := rfl
@[simp] theorem que_wr (s : State) (f : Fld) (i v k : Nat) (j : Nat) : (s.wr f i v k).que j = s.que j := rfl
@[simp] theorem core_wr (s : State) (f : Fld) (i v k : Nat) (j : Nat) : (s.wr f i v k).core j = s.core j := rfl
@[simp] theorem mse_wr (s : State) (f : Fld) (i v k : Nat) (j : Nat) : (s.wr f i v k).mse j = s.mse j := rfl
@[simp] theorem fops_wr (s : State) (f : Fld) (i v k : Nat) (j : Nat) : (s.wr f i v k).fops j = s.fops j := rfl
@[simp] theorem eccAt_wr (s : State) (f : Fld) (i v k : Nat) (j : Nat) : (s.wr f i v k).eccAt j = s.eccAt j := rfl
@[simp] theorem vat_wr (s : State) (f : Fld) (i v k : Nat) (j : Nat) : (s.wr f i v k).vat? j = s.vat? j := rfl

@[simp] theorem bump_pending (s : State) (f : Fld) (i n k : Nat) : (s.bump f i n k).pending = s.pending := rfl
@[simp] theorem bump_now (s : State) (f : Fld) (i n k : Nat) : (s.bump f i n k).now = s.now := rfl
@[simp] theorem bump_age (s : State) (f : Fld) (i n k : Nat) : (s.bump f i n k).age = s.age := rfl
@[simp] theorem bump_free (s : State) (f : Fld) (i n k : Nat) : (s.bump f i n k).free = s.free := rfl
@[simp] theorem bump_mem (s : State) (f : Fld) (i n k : Nat) : (s.bump f i n k).mem = s.mem := rfl
@[simp] theorem bump_cmp (s : State) (f : Fld) (i n k : Nat) : (s.bump f i n k).cmp = s.cmp := rfl
@[simp] theorem bump_tier (s : State) (f : Fld) (i n k : Nat) : (s.bump f i n k).tier = s.tier := rfl
@[simp] theorem bump_sch (s : State) (f : Fld) (i n k : Nat) : (s.bump f i n k).sch = s.sch := rfl
@[simp] theorem bump_fab (s : State) (f : Fld) (i n k : Nat) : (s.bump f i n k).fab = s.fab := rfl
@[simp] theorem bump_lnk (s : State) (f : Fld) (i n k : Nat) : (s.bump f i n k).lnk = s.lnk := rfl
@[simp] theorem bump_ren (s : State) (f : Fld) (i n k : Nat) : (s.bump f i n k).ren = s.ren := rfl
@[simp] theorem bump_vats (s : State) (f : Fld) (i n k : Nat) : (s.bump f i n k).vats = s.vats := rfl
@[simp] theorem bump_pwr (s : State) (f : Fld) (i n k : Nat) : (s.bump f i n k).pwr = s.pwr := rfl
@[simp] theorem bump_clk (s : State) (f : Fld) (i n k : Nat) : (s.bump f i n k).clk = s.clk := rfl
@[simp] theorem bump_flt (s : State) (f : Fld) (i n k : Nat) : (s.bump f i n k).flt = s.flt := rfl
@[simp] theorem bump_boot (s : State) (f : Fld) (i n k : Nat) : (s.bump f i n k).boot = s.boot := rfl
@[simp] theorem bump_host (s : State) (f : Fld) (i n k : Nat) : (s.bump f i n k).host = s.host := rfl
@[simp] theorem bump_svc (s : State) (f : Fld) (i n k : Nat) : (s.bump f i n k).svc = s.svc := rfl
@[simp] theorem bump_cong (s : State) (f : Fld) (i n k : Nat) : (s.bump f i n k).cong = s.cong := rfl
@[simp] theorem bump_mgmt (s : State) (f : Fld) (i n k : Nat) : (s.bump f i n k).mgmt = s.mgmt := rfl
@[simp] theorem bump_tray (s : State) (f : Fld) (i n k : Nat) : (s.bump f i n k).tray = s.tray := rfl
@[simp] theorem byte_bump (s : State) (f : Fld) (i n k : Nat) (b : Nat) : (s.bump f i n k).byte b = s.byte b := rfl
@[simp] theorem ld_bump (s : State) (f : Fld) (i n k : Nat) (b m : Nat) : (s.bump f i n k).ld b m = s.ld b m := rfl
@[simp] theorem ldBytes_bump (s : State) (f : Fld) (i n k : Nat) (b m : Nat) : (s.bump f i n k).ldBytes b m = s.ldBytes b m := rfl
@[simp] theorem sc_bump (s : State) (f : Fld) (i n k : Nat) (j : Nat) : (s.bump f i n k).sc j = s.sc j := rfl
@[simp] theorem que_bump (s : State) (f : Fld) (i n k : Nat) (j : Nat) : (s.bump f i n k).que j = s.que j := rfl
@[simp] theorem core_bump (s : State) (f : Fld) (i n k : Nat) (j : Nat) : (s.bump f i n k).core j = s.core j := rfl
@[simp] theorem mse_bump (s : State) (f : Fld) (i n k : Nat) (j : Nat) : (s.bump f i n k).mse j = s.mse j := rfl
@[simp] theorem fops_bump (s : State) (f : Fld) (i n k : Nat) (j : Nat) : (s.bump f i n k).fops j = s.fops j := rfl
@[simp] theorem eccAt_bump (s : State) (f : Fld) (i n k : Nat) (j : Nat) : (s.bump f i n k).eccAt j = s.eccAt j := rfl
@[simp] theorem vat_bump (s : State) (f : Fld) (i n k : Nat) (j : Nat) : (s.bump f i n k).vat? j = s.vat? j := rfl

@[simp] theorem bumpW_pending (s : State) (f : Fld) (i n k : Nat) : (s.bumpW f i n k).pending = s.pending := rfl
@[simp] theorem bumpW_now (s : State) (f : Fld) (i n k : Nat) : (s.bumpW f i n k).now = s.now := rfl
@[simp] theorem bumpW_age (s : State) (f : Fld) (i n k : Nat) : (s.bumpW f i n k).age = s.age := rfl
@[simp] theorem bumpW_free (s : State) (f : Fld) (i n k : Nat) : (s.bumpW f i n k).free = s.free := rfl
@[simp] theorem bumpW_mem (s : State) (f : Fld) (i n k : Nat) : (s.bumpW f i n k).mem = s.mem := rfl
@[simp] theorem bumpW_cmp (s : State) (f : Fld) (i n k : Nat) : (s.bumpW f i n k).cmp = s.cmp := rfl
@[simp] theorem bumpW_tier (s : State) (f : Fld) (i n k : Nat) : (s.bumpW f i n k).tier = s.tier := rfl
@[simp] theorem bumpW_sch (s : State) (f : Fld) (i n k : Nat) : (s.bumpW f i n k).sch = s.sch := rfl
@[simp] theorem bumpW_fab (s : State) (f : Fld) (i n k : Nat) : (s.bumpW f i n k).fab = s.fab := rfl
@[simp] theorem bumpW_lnk (s : State) (f : Fld) (i n k : Nat) : (s.bumpW f i n k).lnk = s.lnk := rfl
@[simp] theorem bumpW_ren (s : State) (f : Fld) (i n k : Nat) : (s.bumpW f i n k).ren = s.ren := rfl
@[simp] theorem bumpW_vats (s : State) (f : Fld) (i n k : Nat) : (s.bumpW f i n k).vats = s.vats := rfl
@[simp] theorem bumpW_pwr (s : State) (f : Fld) (i n k : Nat) : (s.bumpW f i n k).pwr = s.pwr := rfl
@[simp] theorem bumpW_clk (s : State) (f : Fld) (i n k : Nat) : (s.bumpW f i n k).clk = s.clk := rfl
@[simp] theorem bumpW_flt (s : State) (f : Fld) (i n k : Nat) : (s.bumpW f i n k).flt = s.flt := rfl
@[simp] theorem bumpW_boot (s : State) (f : Fld) (i n k : Nat) : (s.bumpW f i n k).boot = s.boot := rfl
@[simp] theorem bumpW_host (s : State) (f : Fld) (i n k : Nat) : (s.bumpW f i n k).host = s.host := rfl
@[simp] theorem bumpW_svc (s : State) (f : Fld) (i n k : Nat) : (s.bumpW f i n k).svc = s.svc := rfl
@[simp] theorem bumpW_cong (s : State) (f : Fld) (i n k : Nat) : (s.bumpW f i n k).cong = s.cong := rfl
@[simp] theorem bumpW_mgmt (s : State) (f : Fld) (i n k : Nat) : (s.bumpW f i n k).mgmt = s.mgmt := rfl
@[simp] theorem bumpW_tray (s : State) (f : Fld) (i n k : Nat) : (s.bumpW f i n k).tray = s.tray := rfl
@[simp] theorem byte_bumpW (s : State) (f : Fld) (i n k : Nat) (b : Nat) : (s.bumpW f i n k).byte b = s.byte b := rfl
@[simp] theorem ld_bumpW (s : State) (f : Fld) (i n k : Nat) (b m : Nat) : (s.bumpW f i n k).ld b m = s.ld b m := rfl
@[simp] theorem ldBytes_bumpW (s : State) (f : Fld) (i n k : Nat) (b m : Nat) : (s.bumpW f i n k).ldBytes b m = s.ldBytes b m := rfl
@[simp] theorem sc_bumpW (s : State) (f : Fld) (i n k : Nat) (j : Nat) : (s.bumpW f i n k).sc j = s.sc j := rfl
@[simp] theorem que_bumpW (s : State) (f : Fld) (i n k : Nat) (j : Nat) : (s.bumpW f i n k).que j = s.que j := rfl
@[simp] theorem core_bumpW (s : State) (f : Fld) (i n k : Nat) (j : Nat) : (s.bumpW f i n k).core j = s.core j := rfl
@[simp] theorem mse_bumpW (s : State) (f : Fld) (i n k : Nat) (j : Nat) : (s.bumpW f i n k).mse j = s.mse j := rfl
@[simp] theorem fops_bumpW (s : State) (f : Fld) (i n k : Nat) (j : Nat) : (s.bumpW f i n k).fops j = s.fops j := rfl
@[simp] theorem eccAt_bumpW (s : State) (f : Fld) (i n k : Nat) (j : Nat) : (s.bumpW f i n k).eccAt j = s.eccAt j := rfl
@[simp] theorem vat_bumpW (s : State) (f : Fld) (i n k : Nat) (j : Nat) : (s.bumpW f i n k).vat? j = s.vat? j := rfl

@[simp] theorem mapSite_pending (s : State) (t l p : Nat) : (s.mapSite t l p).pending = s.pending := rfl
@[simp] theorem mapSite_now (s : State) (t l p : Nat) : (s.mapSite t l p).now = s.now := rfl
@[simp] theorem mapSite_age (s : State) (t l p : Nat) : (s.mapSite t l p).age = s.age := rfl
@[simp] theorem mapSite_free (s : State) (t l p : Nat) : (s.mapSite t l p).free = s.free := rfl
@[simp] theorem mapSite_mem (s : State) (t l p : Nat) : (s.mapSite t l p).mem = s.mem := rfl
@[simp] theorem mapSite_cmp (s : State) (t l p : Nat) : (s.mapSite t l p).cmp = s.cmp := rfl
@[simp] theorem mapSite_tier (s : State) (t l p : Nat) : (s.mapSite t l p).tier = s.tier := rfl
@[simp] theorem mapSite_sch (s : State) (t l p : Nat) : (s.mapSite t l p).sch = s.sch := rfl
@[simp] theorem mapSite_fab (s : State) (t l p : Nat) : (s.mapSite t l p).fab = s.fab := rfl
@[simp] theorem mapSite_lnk (s : State) (t l p : Nat) : (s.mapSite t l p).lnk = s.lnk := rfl
@[simp] theorem mapSite_ren (s : State) (t l p : Nat) : (s.mapSite t l p).ren = s.ren := rfl
@[simp] theorem mapSite_vats (s : State) (t l p : Nat) : (s.mapSite t l p).vats = s.vats := rfl
@[simp] theorem mapSite_pwr (s : State) (t l p : Nat) : (s.mapSite t l p).pwr = s.pwr := rfl
@[simp] theorem mapSite_clk (s : State) (t l p : Nat) : (s.mapSite t l p).clk = s.clk := rfl
@[simp] theorem mapSite_flt (s : State) (t l p : Nat) : (s.mapSite t l p).flt = s.flt := rfl
@[simp] theorem mapSite_boot (s : State) (t l p : Nat) : (s.mapSite t l p).boot = s.boot := rfl
@[simp] theorem mapSite_host (s : State) (t l p : Nat) : (s.mapSite t l p).host = s.host := rfl
@[simp] theorem mapSite_svc (s : State) (t l p : Nat) : (s.mapSite t l p).svc = s.svc := rfl
@[simp] theorem mapSite_cong (s : State) (t l p : Nat) : (s.mapSite t l p).cong = s.cong := rfl
@[simp] theorem mapSite_mgmt (s : State) (t l p : Nat) : (s.mapSite t l p).mgmt = s.mgmt := rfl
@[simp] theorem mapSite_tray (s : State) (t l p : Nat) : (s.mapSite t l p).tray = s.tray := rfl
@[simp] theorem byte_mapSite (s : State) (t l p : Nat) (b : Nat) : (s.mapSite t l p).byte b = s.byte b := rfl
@[simp] theorem ld_mapSite (s : State) (t l p : Nat) (b m : Nat) : (s.mapSite t l p).ld b m = s.ld b m := rfl
@[simp] theorem ldBytes_mapSite (s : State) (t l p : Nat) (b m : Nat) : (s.mapSite t l p).ldBytes b m = s.ldBytes b m := rfl
@[simp] theorem sc_mapSite (s : State) (t l p : Nat) (j : Nat) : (s.mapSite t l p).sc j = s.sc j := rfl
@[simp] theorem que_mapSite (s : State) (t l p : Nat) (j : Nat) : (s.mapSite t l p).que j = s.que j := rfl
@[simp] theorem core_mapSite (s : State) (t l p : Nat) (j : Nat) : (s.mapSite t l p).core j = s.core j := rfl
@[simp] theorem mse_mapSite (s : State) (t l p : Nat) (j : Nat) : (s.mapSite t l p).mse j = s.mse j := rfl
@[simp] theorem fops_mapSite (s : State) (t l p : Nat) (j : Nat) : (s.mapSite t l p).fops j = s.fops j := rfl
@[simp] theorem eccAt_mapSite (s : State) (t l p : Nat) (j : Nat) : (s.mapSite t l p).eccAt j = s.eccAt j := rfl
@[simp] theorem vat_mapSite (s : State) (t l p : Nat) (j : Nat) : (s.mapSite t l p).vat? j = s.vat? j := rfl

@[simp] theorem setSiteSt_pending (s : State) (t p v : Nat) : (s.setSiteSt t p v).pending = s.pending := rfl
@[simp] theorem setSiteSt_now (s : State) (t p v : Nat) : (s.setSiteSt t p v).now = s.now := rfl
@[simp] theorem setSiteSt_age (s : State) (t p v : Nat) : (s.setSiteSt t p v).age = s.age := rfl
@[simp] theorem setSiteSt_free (s : State) (t p v : Nat) : (s.setSiteSt t p v).free = s.free := rfl
@[simp] theorem setSiteSt_mem (s : State) (t p v : Nat) : (s.setSiteSt t p v).mem = s.mem := rfl
@[simp] theorem setSiteSt_cmp (s : State) (t p v : Nat) : (s.setSiteSt t p v).cmp = s.cmp := rfl
@[simp] theorem setSiteSt_tier (s : State) (t p v : Nat) : (s.setSiteSt t p v).tier = s.tier := rfl
@[simp] theorem setSiteSt_sch (s : State) (t p v : Nat) : (s.setSiteSt t p v).sch = s.sch := rfl
@[simp] theorem setSiteSt_fab (s : State) (t p v : Nat) : (s.setSiteSt t p v).fab = s.fab := rfl
@[simp] theorem setSiteSt_lnk (s : State) (t p v : Nat) : (s.setSiteSt t p v).lnk = s.lnk := rfl
@[simp] theorem setSiteSt_ren (s : State) (t p v : Nat) : (s.setSiteSt t p v).ren = s.ren := rfl
@[simp] theorem setSiteSt_vats (s : State) (t p v : Nat) : (s.setSiteSt t p v).vats = s.vats := rfl
@[simp] theorem setSiteSt_pwr (s : State) (t p v : Nat) : (s.setSiteSt t p v).pwr = s.pwr := rfl
@[simp] theorem setSiteSt_clk (s : State) (t p v : Nat) : (s.setSiteSt t p v).clk = s.clk := rfl
@[simp] theorem setSiteSt_flt (s : State) (t p v : Nat) : (s.setSiteSt t p v).flt = s.flt := rfl
@[simp] theorem setSiteSt_boot (s : State) (t p v : Nat) : (s.setSiteSt t p v).boot = s.boot := rfl
@[simp] theorem setSiteSt_host (s : State) (t p v : Nat) : (s.setSiteSt t p v).host = s.host := rfl
@[simp] theorem setSiteSt_svc (s : State) (t p v : Nat) : (s.setSiteSt t p v).svc = s.svc := rfl
@[simp] theorem setSiteSt_cong (s : State) (t p v : Nat) : (s.setSiteSt t p v).cong = s.cong := rfl
@[simp] theorem setSiteSt_mgmt (s : State) (t p v : Nat) : (s.setSiteSt t p v).mgmt = s.mgmt := rfl
@[simp] theorem setSiteSt_tray (s : State) (t p v : Nat) : (s.setSiteSt t p v).tray = s.tray := rfl
@[simp] theorem byte_setSiteSt (s : State) (t p v : Nat) (b : Nat) : (s.setSiteSt t p v).byte b = s.byte b := rfl
@[simp] theorem ld_setSiteSt (s : State) (t p v : Nat) (b m : Nat) : (s.setSiteSt t p v).ld b m = s.ld b m := rfl
@[simp] theorem ldBytes_setSiteSt (s : State) (t p v : Nat) (b m : Nat) : (s.setSiteSt t p v).ldBytes b m = s.ldBytes b m := rfl
@[simp] theorem sc_setSiteSt (s : State) (t p v : Nat) (j : Nat) : (s.setSiteSt t p v).sc j = s.sc j := rfl
@[simp] theorem que_setSiteSt (s : State) (t p v : Nat) (j : Nat) : (s.setSiteSt t p v).que j = s.que j := rfl
@[simp] theorem core_setSiteSt (s : State) (t p v : Nat) (j : Nat) : (s.setSiteSt t p v).core j = s.core j := rfl
@[simp] theorem mse_setSiteSt (s : State) (t p v : Nat) (j : Nat) : (s.setSiteSt t p v).mse j = s.mse j := rfl
@[simp] theorem fops_setSiteSt (s : State) (t p v : Nat) (j : Nat) : (s.setSiteSt t p v).fops j = s.fops j := rfl
@[simp] theorem eccAt_setSiteSt (s : State) (t p v : Nat) (j : Nat) : (s.setSiteSt t p v).eccAt j = s.eccAt j := rfl
@[simp] theorem vat_setSiteSt (s : State) (t p v : Nat) (j : Nat) : (s.setSiteSt t p v).vat? j = s.vat? j := rfl

@[simp] theorem noteUe_pending (s : State) (c w x : Nat) : (s.noteUe c w x).pending = s.pending := rfl
@[simp] theorem noteUe_now (s : State) (c w x : Nat) : (s.noteUe c w x).now = s.now := rfl
@[simp] theorem noteUe_age (s : State) (c w x : Nat) : (s.noteUe c w x).age = s.age := rfl
@[simp] theorem noteUe_free (s : State) (c w x : Nat) : (s.noteUe c w x).free = s.free := rfl
@[simp] theorem noteUe_mem (s : State) (c w x : Nat) : (s.noteUe c w x).mem = s.mem := rfl
@[simp] theorem noteUe_tier (s : State) (c w x : Nat) : (s.noteUe c w x).tier = s.tier := rfl
@[simp] theorem noteUe_sch (s : State) (c w x : Nat) : (s.noteUe c w x).sch = s.sch := rfl
@[simp] theorem noteUe_fab (s : State) (c w x : Nat) : (s.noteUe c w x).fab = s.fab := rfl
@[simp] theorem noteUe_lnk (s : State) (c w x : Nat) : (s.noteUe c w x).lnk = s.lnk := rfl
@[simp] theorem noteUe_ren (s : State) (c w x : Nat) : (s.noteUe c w x).ren = s.ren := rfl
@[simp] theorem noteUe_vats (s : State) (c w x : Nat) : (s.noteUe c w x).vats = s.vats := rfl
@[simp] theorem noteUe_pwr (s : State) (c w x : Nat) : (s.noteUe c w x).pwr = s.pwr := rfl
@[simp] theorem noteUe_clk (s : State) (c w x : Nat) : (s.noteUe c w x).clk = s.clk := rfl
@[simp] theorem noteUe_flt (s : State) (c w x : Nat) : (s.noteUe c w x).flt = s.flt := rfl
@[simp] theorem noteUe_boot (s : State) (c w x : Nat) : (s.noteUe c w x).boot = s.boot := rfl
@[simp] theorem noteUe_host (s : State) (c w x : Nat) : (s.noteUe c w x).host = s.host := rfl
@[simp] theorem noteUe_svc (s : State) (c w x : Nat) : (s.noteUe c w x).svc = s.svc := rfl
@[simp] theorem noteUe_cong (s : State) (c w x : Nat) : (s.noteUe c w x).cong = s.cong := rfl
@[simp] theorem noteUe_mgmt (s : State) (c w x : Nat) : (s.noteUe c w x).mgmt = s.mgmt := rfl
@[simp] theorem noteUe_tray (s : State) (c w x : Nat) : (s.noteUe c w x).tray = s.tray := rfl
@[simp] theorem byte_noteUe (s : State) (c w x : Nat) (b : Nat) : (s.noteUe c w x).byte b = s.byte b := rfl
@[simp] theorem ld_noteUe (s : State) (c w x : Nat) (b m : Nat) : (s.noteUe c w x).ld b m = s.ld b m := rfl
@[simp] theorem ldBytes_noteUe (s : State) (c w x : Nat) (b m : Nat) : (s.noteUe c w x).ldBytes b m = s.ldBytes b m := rfl
@[simp] theorem sc_noteUe (s : State) (c w x : Nat) (j : Nat) : (s.noteUe c w x).sc j = s.sc j := rfl
@[simp] theorem que_noteUe (s : State) (c w x : Nat) (j : Nat) : (s.noteUe c w x).que j = s.que j := rfl
@[simp] theorem core_noteUe (s : State) (c w x : Nat) (j : Nat) : (s.noteUe c w x).core j = s.core j := rfl
@[simp] theorem mse_noteUe (s : State) (c w x : Nat) (j : Nat) : (s.noteUe c w x).mse j = s.mse j := rfl
@[simp] theorem fops_noteUe (s : State) (c w x : Nat) (j : Nat) : (s.noteUe c w x).fops j = s.fops j := rfl
@[simp] theorem eccAt_noteUe (s : State) (c w x : Nat) (j : Nat) : (s.noteUe c w x).eccAt j = s.eccAt j := rfl
@[simp] theorem vat_noteUe (s : State) (c w x : Nat) (j : Nat) : (s.noteUe c w x).vat? j = s.vat? j := rfl

@[simp] theorem signal_pending (s : State) (ck i : Nat) : (s.signal ck i).pending = s.pending := rfl
@[simp] theorem signal_now (s : State) (ck i : Nat) : (s.signal ck i).now = s.now := rfl
@[simp] theorem signal_age (s : State) (ck i : Nat) : (s.signal ck i).age = s.age := rfl
@[simp] theorem signal_free (s : State) (ck i : Nat) : (s.signal ck i).free = s.free := rfl
@[simp] theorem signal_mem (s : State) (ck i : Nat) : (s.signal ck i).mem = s.mem := rfl
@[simp] theorem signal_cmp (s : State) (ck i : Nat) : (s.signal ck i).cmp = s.cmp := rfl
@[simp] theorem signal_tier (s : State) (ck i : Nat) : (s.signal ck i).tier = s.tier := rfl
@[simp] theorem signal_sch (s : State) (ck i : Nat) : (s.signal ck i).sch = s.sch := rfl
@[simp] theorem signal_fab (s : State) (ck i : Nat) : (s.signal ck i).fab = s.fab := rfl
@[simp] theorem signal_lnk (s : State) (ck i : Nat) : (s.signal ck i).lnk = s.lnk := rfl
@[simp] theorem signal_ren (s : State) (ck i : Nat) : (s.signal ck i).ren = s.ren := rfl
@[simp] theorem signal_vats (s : State) (ck i : Nat) : (s.signal ck i).vats = s.vats := rfl
@[simp] theorem signal_pwr (s : State) (ck i : Nat) : (s.signal ck i).pwr = s.pwr := rfl
@[simp] theorem signal_clk (s : State) (ck i : Nat) : (s.signal ck i).clk = s.clk := rfl
@[simp] theorem signal_flt (s : State) (ck i : Nat) : (s.signal ck i).flt = s.flt := rfl
@[simp] theorem signal_boot (s : State) (ck i : Nat) : (s.signal ck i).boot = s.boot := rfl
@[simp] theorem signal_host (s : State) (ck i : Nat) : (s.signal ck i).host = s.host := rfl
@[simp] theorem signal_svc (s : State) (ck i : Nat) : (s.signal ck i).svc = s.svc := rfl
@[simp] theorem signal_cong (s : State) (ck i : Nat) : (s.signal ck i).cong = s.cong := rfl
@[simp] theorem signal_mgmt (s : State) (ck i : Nat) : (s.signal ck i).mgmt = s.mgmt := rfl
@[simp] theorem signal_tray (s : State) (ck i : Nat) : (s.signal ck i).tray = s.tray := rfl
@[simp] theorem byte_signal (s : State) (ck i : Nat) (b : Nat) : (s.signal ck i).byte b = s.byte b := rfl
@[simp] theorem ld_signal (s : State) (ck i : Nat) (b m : Nat) : (s.signal ck i).ld b m = s.ld b m := rfl
@[simp] theorem ldBytes_signal (s : State) (ck i : Nat) (b m : Nat) : (s.signal ck i).ldBytes b m = s.ldBytes b m := rfl
@[simp] theorem sc_signal (s : State) (ck i : Nat) (j : Nat) : (s.signal ck i).sc j = s.sc j := rfl
@[simp] theorem que_signal (s : State) (ck i : Nat) (j : Nat) : (s.signal ck i).que j = s.que j := rfl
@[simp] theorem core_signal (s : State) (ck i : Nat) (j : Nat) : (s.signal ck i).core j = s.core j := rfl
@[simp] theorem mse_signal (s : State) (ck i : Nat) (j : Nat) : (s.signal ck i).mse j = s.mse j := rfl
@[simp] theorem fops_signal (s : State) (ck i : Nat) (j : Nat) : (s.signal ck i).fops j = s.fops j := rfl
@[simp] theorem eccAt_signal (s : State) (ck i : Nat) (j : Nat) : (s.signal ck i).eccAt j = s.eccAt j := rfl
@[simp] theorem vat_signal (s : State) (ck i : Nat) (j : Nat) : (s.signal ck i).vat? j = s.vat? j := rfl

@[simp] theorem stBytes_pending (s : State) (a : Nat) (bs : List Byte) : (s.stBytes a bs).pending = s.pending := rfl
@[simp] theorem stBytes_now (s : State) (a : Nat) (bs : List Byte) : (s.stBytes a bs).now = s.now := rfl
@[simp] theorem stBytes_age (s : State) (a : Nat) (bs : List Byte) : (s.stBytes a bs).age = s.age := rfl
@[simp] theorem stBytes_free (s : State) (a : Nat) (bs : List Byte) : (s.stBytes a bs).free = s.free := rfl
@[simp] theorem stBytes_regs (s : State) (a : Nat) (bs : List Byte) : (s.stBytes a bs).regs = s.regs := rfl
@[simp] theorem stBytes_cmp (s : State) (a : Nat) (bs : List Byte) : (s.stBytes a bs).cmp = s.cmp := rfl
@[simp] theorem stBytes_tier (s : State) (a : Nat) (bs : List Byte) : (s.stBytes a bs).tier = s.tier := rfl
@[simp] theorem stBytes_sch (s : State) (a : Nat) (bs : List Byte) : (s.stBytes a bs).sch = s.sch := rfl
@[simp] theorem stBytes_fab (s : State) (a : Nat) (bs : List Byte) : (s.stBytes a bs).fab = s.fab := rfl
@[simp] theorem stBytes_lnk (s : State) (a : Nat) (bs : List Byte) : (s.stBytes a bs).lnk = s.lnk := rfl
@[simp] theorem stBytes_ren (s : State) (a : Nat) (bs : List Byte) : (s.stBytes a bs).ren = s.ren := rfl
@[simp] theorem stBytes_vats (s : State) (a : Nat) (bs : List Byte) : (s.stBytes a bs).vats = s.vats := rfl
@[simp] theorem stBytes_pwr (s : State) (a : Nat) (bs : List Byte) : (s.stBytes a bs).pwr = s.pwr := rfl
@[simp] theorem stBytes_clk (s : State) (a : Nat) (bs : List Byte) : (s.stBytes a bs).clk = s.clk := rfl
@[simp] theorem stBytes_flt (s : State) (a : Nat) (bs : List Byte) : (s.stBytes a bs).flt = s.flt := rfl
@[simp] theorem stBytes_boot (s : State) (a : Nat) (bs : List Byte) : (s.stBytes a bs).boot = s.boot := rfl
@[simp] theorem stBytes_host (s : State) (a : Nat) (bs : List Byte) : (s.stBytes a bs).host = s.host := rfl
@[simp] theorem stBytes_svc (s : State) (a : Nat) (bs : List Byte) : (s.stBytes a bs).svc = s.svc := rfl
@[simp] theorem stBytes_cong (s : State) (a : Nat) (bs : List Byte) : (s.stBytes a bs).cong = s.cong := rfl
@[simp] theorem stBytes_mgmt (s : State) (a : Nat) (bs : List Byte) : (s.stBytes a bs).mgmt = s.mgmt := rfl
@[simp] theorem stBytes_tray (s : State) (a : Nat) (bs : List Byte) : (s.stBytes a bs).tray = s.tray := rfl
@[simp] theorem rd_stBytes (s : State) (a : Nat) (bs : List Byte) (g : Fld) (j m : Nat) : (s.stBytes a bs).rd g j m = s.rd g j m := rfl
@[simp] theorem sc_stBytes (s : State) (a : Nat) (bs : List Byte) (j : Nat) : (s.stBytes a bs).sc j = s.sc j := rfl
@[simp] theorem que_stBytes (s : State) (a : Nat) (bs : List Byte) (j : Nat) : (s.stBytes a bs).que j = s.que j := rfl
@[simp] theorem core_stBytes (s : State) (a : Nat) (bs : List Byte) (j : Nat) : (s.stBytes a bs).core j = s.core j := rfl
@[simp] theorem mse_stBytes (s : State) (a : Nat) (bs : List Byte) (j : Nat) : (s.stBytes a bs).mse j = s.mse j := rfl
@[simp] theorem fops_stBytes (s : State) (a : Nat) (bs : List Byte) (j : Nat) : (s.stBytes a bs).fops j = s.fops j := rfl
@[simp] theorem eccAt_stBytes (s : State) (a : Nat) (bs : List Byte) (j : Nat) : (s.stBytes a bs).eccAt j = s.eccAt j := rfl
@[simp] theorem vat_stBytes (s : State) (a : Nat) (bs : List Byte) (j : Nat) : (s.stBytes a bs).vat? j = s.vat? j := rfl
@[simp] theorem psite_stBytes (s : State) (a : Nat) (bs : List Byte) (j m : Nat) : (s.stBytes a bs).psite j m = s.psite j m := rfl
@[simp] theorem lsite_stBytes (s : State) (a : Nat) (bs : List Byte) (j m : Nat) : (s.stBytes a bs).lsite j m = s.lsite j m := rfl
@[simp] theorem fenced_stBytes (s : State) (a : Nat) (bs : List Byte) (j : Nat) : (s.stBytes a bs).fenced j = s.fenced j := rfl
@[simp] theorem dieOn_stBytes (s : State) (a : Nat) (bs : List Byte) (j m : Nat) : (s.stBytes a bs).dieOn j m = s.dieOn j m := rfl
@[simp] theorem pail_stBytes (s : State) (a : Nat) (bs : List Byte) (j m : Nat) : (s.stBytes a bs).pail j m = s.pail j m := rfl

@[simp] theorem st_pending (s : State) (a n v : Nat) : (s.st a n v).pending = s.pending := rfl
@[simp] theorem st_now (s : State) (a n v : Nat) : (s.st a n v).now = s.now := rfl
@[simp] theorem st_age (s : State) (a n v : Nat) : (s.st a n v).age = s.age := rfl
@[simp] theorem st_free (s : State) (a n v : Nat) : (s.st a n v).free = s.free := rfl
@[simp] theorem st_regs (s : State) (a n v : Nat) : (s.st a n v).regs = s.regs := rfl
@[simp] theorem st_cmp (s : State) (a n v : Nat) : (s.st a n v).cmp = s.cmp := rfl
@[simp] theorem st_tier (s : State) (a n v : Nat) : (s.st a n v).tier = s.tier := rfl
@[simp] theorem st_sch (s : State) (a n v : Nat) : (s.st a n v).sch = s.sch := rfl
@[simp] theorem st_fab (s : State) (a n v : Nat) : (s.st a n v).fab = s.fab := rfl
@[simp] theorem st_lnk (s : State) (a n v : Nat) : (s.st a n v).lnk = s.lnk := rfl
@[simp] theorem st_ren (s : State) (a n v : Nat) : (s.st a n v).ren = s.ren := rfl
@[simp] theorem st_vats (s : State) (a n v : Nat) : (s.st a n v).vats = s.vats := rfl
@[simp] theorem st_pwr (s : State) (a n v : Nat) : (s.st a n v).pwr = s.pwr := rfl
@[simp] theorem st_clk (s : State) (a n v : Nat) : (s.st a n v).clk = s.clk := rfl
@[simp] theorem st_flt (s : State) (a n v : Nat) : (s.st a n v).flt = s.flt := rfl
@[simp] theorem st_boot (s : State) (a n v : Nat) : (s.st a n v).boot = s.boot := rfl
@[simp] theorem st_host (s : State) (a n v : Nat) : (s.st a n v).host = s.host := rfl
@[simp] theorem st_svc (s : State) (a n v : Nat) : (s.st a n v).svc = s.svc := rfl
@[simp] theorem st_cong (s : State) (a n v : Nat) : (s.st a n v).cong = s.cong := rfl
@[simp] theorem st_mgmt (s : State) (a n v : Nat) : (s.st a n v).mgmt = s.mgmt := rfl
@[simp] theorem st_tray (s : State) (a n v : Nat) : (s.st a n v).tray = s.tray := rfl
@[simp] theorem rd_st (s : State) (a n v : Nat) (g : Fld) (j m : Nat) : (s.st a n v).rd g j m = s.rd g j m := rfl
@[simp] theorem sc_st (s : State) (a n v : Nat) (j : Nat) : (s.st a n v).sc j = s.sc j := rfl
@[simp] theorem que_st (s : State) (a n v : Nat) (j : Nat) : (s.st a n v).que j = s.que j := rfl
@[simp] theorem core_st (s : State) (a n v : Nat) (j : Nat) : (s.st a n v).core j = s.core j := rfl
@[simp] theorem mse_st (s : State) (a n v : Nat) (j : Nat) : (s.st a n v).mse j = s.mse j := rfl
@[simp] theorem fops_st (s : State) (a n v : Nat) (j : Nat) : (s.st a n v).fops j = s.fops j := rfl
@[simp] theorem eccAt_st (s : State) (a n v : Nat) (j : Nat) : (s.st a n v).eccAt j = s.eccAt j := rfl
@[simp] theorem vat_st (s : State) (a n v : Nat) (j : Nat) : (s.st a n v).vat? j = s.vat? j := rfl
@[simp] theorem psite_st (s : State) (a n v : Nat) (j m : Nat) : (s.st a n v).psite j m = s.psite j m := rfl
@[simp] theorem lsite_st (s : State) (a n v : Nat) (j m : Nat) : (s.st a n v).lsite j m = s.lsite j m := rfl
@[simp] theorem fenced_st (s : State) (a n v : Nat) (j : Nat) : (s.st a n v).fenced j = s.fenced j := rfl
@[simp] theorem dieOn_st (s : State) (a n v : Nat) (j m : Nat) : (s.st a n v).dieOn j m = s.dieOn j m := rfl
@[simp] theorem pail_st (s : State) (a n v : Nat) (j m : Nat) : (s.st a n v).pail j m = s.pail j m := rfl

@[simp] theorem setSc_pending (s : State) (ck : Nat) (c : SCore) : (s.setSc ck c).pending = s.pending := rfl
@[simp] theorem setSc_now (s : State) (ck : Nat) (c : SCore) : (s.setSc ck c).now = s.now := rfl
@[simp] theorem setSc_age (s : State) (ck : Nat) (c : SCore) : (s.setSc ck c).age = s.age := rfl
@[simp] theorem setSc_free (s : State) (ck : Nat) (c : SCore) : (s.setSc ck c).free = s.free := rfl
@[simp] theorem setSc_regs (s : State) (ck : Nat) (c : SCore) : (s.setSc ck c).regs = s.regs := rfl
@[simp] theorem setSc_mem (s : State) (ck : Nat) (c : SCore) : (s.setSc ck c).mem = s.mem := rfl
@[simp] theorem setSc_tier (s : State) (ck : Nat) (c : SCore) : (s.setSc ck c).tier = s.tier := rfl
@[simp] theorem setSc_sch (s : State) (ck : Nat) (c : SCore) : (s.setSc ck c).sch = s.sch := rfl
@[simp] theorem setSc_fab (s : State) (ck : Nat) (c : SCore) : (s.setSc ck c).fab = s.fab := rfl
@[simp] theorem setSc_lnk (s : State) (ck : Nat) (c : SCore) : (s.setSc ck c).lnk = s.lnk := rfl
@[simp] theorem setSc_ren (s : State) (ck : Nat) (c : SCore) : (s.setSc ck c).ren = s.ren := rfl
@[simp] theorem setSc_vats (s : State) (ck : Nat) (c : SCore) : (s.setSc ck c).vats = s.vats := rfl
@[simp] theorem setSc_pwr (s : State) (ck : Nat) (c : SCore) : (s.setSc ck c).pwr = s.pwr := rfl
@[simp] theorem setSc_clk (s : State) (ck : Nat) (c : SCore) : (s.setSc ck c).clk = s.clk := rfl
@[simp] theorem setSc_flt (s : State) (ck : Nat) (c : SCore) : (s.setSc ck c).flt = s.flt := rfl
@[simp] theorem setSc_boot (s : State) (ck : Nat) (c : SCore) : (s.setSc ck c).boot = s.boot := rfl
@[simp] theorem setSc_host (s : State) (ck : Nat) (c : SCore) : (s.setSc ck c).host = s.host := rfl
@[simp] theorem setSc_svc (s : State) (ck : Nat) (c : SCore) : (s.setSc ck c).svc = s.svc := rfl
@[simp] theorem setSc_cong (s : State) (ck : Nat) (c : SCore) : (s.setSc ck c).cong = s.cong := rfl
@[simp] theorem setSc_mgmt (s : State) (ck : Nat) (c : SCore) : (s.setSc ck c).mgmt = s.mgmt := rfl
@[simp] theorem setSc_tray (s : State) (ck : Nat) (c : SCore) : (s.setSc ck c).tray = s.tray := rfl
@[simp] theorem rd_setSc (s : State) (ck : Nat) (c : SCore) (g : Fld) (j m : Nat) : (s.setSc ck c).rd g j m = s.rd g j m := rfl
@[simp] theorem byte_setSc (s : State) (ck : Nat) (c : SCore) (b : Nat) : (s.setSc ck c).byte b = s.byte b := rfl
@[simp] theorem ld_setSc (s : State) (ck : Nat) (c : SCore) (b m : Nat) : (s.setSc ck c).ld b m = s.ld b m := rfl
@[simp] theorem ldBytes_setSc (s : State) (ck : Nat) (c : SCore) (b m : Nat) : (s.setSc ck c).ldBytes b m = s.ldBytes b m := rfl
@[simp] theorem que_setSc (s : State) (ck : Nat) (c : SCore) (j : Nat) : (s.setSc ck c).que j = s.que j := rfl
@[simp] theorem core_setSc (s : State) (ck : Nat) (c : SCore) (j : Nat) : (s.setSc ck c).core j = s.core j := rfl
@[simp] theorem mse_setSc (s : State) (ck : Nat) (c : SCore) (j : Nat) : (s.setSc ck c).mse j = s.mse j := rfl
@[simp] theorem fops_setSc (s : State) (ck : Nat) (c : SCore) (j : Nat) : (s.setSc ck c).fops j = s.fops j := rfl
@[simp] theorem eccAt_setSc (s : State) (ck : Nat) (c : SCore) (j : Nat) : (s.setSc ck c).eccAt j = s.eccAt j := rfl
@[simp] theorem vat_setSc (s : State) (ck : Nat) (c : SCore) (j : Nat) : (s.setSc ck c).vat? j = s.vat? j := rfl
@[simp] theorem psite_setSc (s : State) (ck : Nat) (c : SCore) (j m : Nat) : (s.setSc ck c).psite j m = s.psite j m := rfl
@[simp] theorem lsite_setSc (s : State) (ck : Nat) (c : SCore) (j m : Nat) : (s.setSc ck c).lsite j m = s.lsite j m := rfl
@[simp] theorem fenced_setSc (s : State) (ck : Nat) (c : SCore) (j : Nat) : (s.setSc ck c).fenced j = s.fenced j := rfl
@[simp] theorem dieOn_setSc (s : State) (ck : Nat) (c : SCore) (j m : Nat) : (s.setSc ck c).dieOn j m = s.dieOn j m := rfl
@[simp] theorem pail_setSc (s : State) (ck : Nat) (c : SCore) (j m : Nat) : (s.setSc ck c).pail j m = s.pail j m := rfl

@[simp] theorem setQue_pending (s : State) (k : Nat) (l : List QEntry) : (s.setQue k l).pending = s.pending := rfl
@[simp] theorem setQue_now (s : State) (k : Nat) (l : List QEntry) : (s.setQue k l).now = s.now := rfl
@[simp] theorem setQue_age (s : State) (k : Nat) (l : List QEntry) : (s.setQue k l).age = s.age := rfl
@[simp] theorem setQue_free (s : State) (k : Nat) (l : List QEntry) : (s.setQue k l).free = s.free := rfl
@[simp] theorem setQue_regs (s : State) (k : Nat) (l : List QEntry) : (s.setQue k l).regs = s.regs := rfl
@[simp] theorem setQue_mem (s : State) (k : Nat) (l : List QEntry) : (s.setQue k l).mem = s.mem := rfl
@[simp] theorem setQue_tier (s : State) (k : Nat) (l : List QEntry) : (s.setQue k l).tier = s.tier := rfl
@[simp] theorem setQue_sch (s : State) (k : Nat) (l : List QEntry) : (s.setQue k l).sch = s.sch := rfl
@[simp] theorem setQue_fab (s : State) (k : Nat) (l : List QEntry) : (s.setQue k l).fab = s.fab := rfl
@[simp] theorem setQue_lnk (s : State) (k : Nat) (l : List QEntry) : (s.setQue k l).lnk = s.lnk := rfl
@[simp] theorem setQue_ren (s : State) (k : Nat) (l : List QEntry) : (s.setQue k l).ren = s.ren := rfl
@[simp] theorem setQue_vats (s : State) (k : Nat) (l : List QEntry) : (s.setQue k l).vats = s.vats := rfl
@[simp] theorem setQue_pwr (s : State) (k : Nat) (l : List QEntry) : (s.setQue k l).pwr = s.pwr := rfl
@[simp] theorem setQue_clk (s : State) (k : Nat) (l : List QEntry) : (s.setQue k l).clk = s.clk := rfl
@[simp] theorem setQue_flt (s : State) (k : Nat) (l : List QEntry) : (s.setQue k l).flt = s.flt := rfl
@[simp] theorem setQue_boot (s : State) (k : Nat) (l : List QEntry) : (s.setQue k l).boot = s.boot := rfl
@[simp] theorem setQue_host (s : State) (k : Nat) (l : List QEntry) : (s.setQue k l).host = s.host := rfl
@[simp] theorem setQue_svc (s : State) (k : Nat) (l : List QEntry) : (s.setQue k l).svc = s.svc := rfl
@[simp] theorem setQue_cong (s : State) (k : Nat) (l : List QEntry) : (s.setQue k l).cong = s.cong := rfl
@[simp] theorem setQue_mgmt (s : State) (k : Nat) (l : List QEntry) : (s.setQue k l).mgmt = s.mgmt := rfl
@[simp] theorem setQue_tray (s : State) (k : Nat) (l : List QEntry) : (s.setQue k l).tray = s.tray := rfl
@[simp] theorem rd_setQue (s : State) (k : Nat) (l : List QEntry) (g : Fld) (j m : Nat) : (s.setQue k l).rd g j m = s.rd g j m := rfl
@[simp] theorem byte_setQue (s : State) (k : Nat) (l : List QEntry) (b : Nat) : (s.setQue k l).byte b = s.byte b := rfl
@[simp] theorem ld_setQue (s : State) (k : Nat) (l : List QEntry) (b m : Nat) : (s.setQue k l).ld b m = s.ld b m := rfl
@[simp] theorem ldBytes_setQue (s : State) (k : Nat) (l : List QEntry) (b m : Nat) : (s.setQue k l).ldBytes b m = s.ldBytes b m := rfl
@[simp] theorem sc_setQue (s : State) (k : Nat) (l : List QEntry) (j : Nat) : (s.setQue k l).sc j = s.sc j := rfl
@[simp] theorem core_setQue (s : State) (k : Nat) (l : List QEntry) (j : Nat) : (s.setQue k l).core j = s.core j := rfl
@[simp] theorem mse_setQue (s : State) (k : Nat) (l : List QEntry) (j : Nat) : (s.setQue k l).mse j = s.mse j := rfl
@[simp] theorem fops_setQue (s : State) (k : Nat) (l : List QEntry) (j : Nat) : (s.setQue k l).fops j = s.fops j := rfl
@[simp] theorem eccAt_setQue (s : State) (k : Nat) (l : List QEntry) (j : Nat) : (s.setQue k l).eccAt j = s.eccAt j := rfl
@[simp] theorem vat_setQue (s : State) (k : Nat) (l : List QEntry) (j : Nat) : (s.setQue k l).vat? j = s.vat? j := rfl
@[simp] theorem psite_setQue (s : State) (k : Nat) (l : List QEntry) (j m : Nat) : (s.setQue k l).psite j m = s.psite j m := rfl
@[simp] theorem lsite_setQue (s : State) (k : Nat) (l : List QEntry) (j m : Nat) : (s.setQue k l).lsite j m = s.lsite j m := rfl
@[simp] theorem fenced_setQue (s : State) (k : Nat) (l : List QEntry) (j : Nat) : (s.setQue k l).fenced j = s.fenced j := rfl
@[simp] theorem dieOn_setQue (s : State) (k : Nat) (l : List QEntry) (j m : Nat) : (s.setQue k l).dieOn j m = s.dieOn j m := rfl
@[simp] theorem pail_setQue (s : State) (k : Nat) (l : List QEntry) (j m : Nat) : (s.setQue k l).pail j m = s.pail j m := rfl

@[simp] theorem setCore_pending (s : State) (k : Nat) (c : CoreRun) : (s.setCore k c).pending = s.pending := rfl
@[simp] theorem setCore_now (s : State) (k : Nat) (c : CoreRun) : (s.setCore k c).now = s.now := rfl
@[simp] theorem setCore_age (s : State) (k : Nat) (c : CoreRun) : (s.setCore k c).age = s.age := rfl
@[simp] theorem setCore_free (s : State) (k : Nat) (c : CoreRun) : (s.setCore k c).free = s.free := rfl
@[simp] theorem setCore_regs (s : State) (k : Nat) (c : CoreRun) : (s.setCore k c).regs = s.regs := rfl
@[simp] theorem setCore_mem (s : State) (k : Nat) (c : CoreRun) : (s.setCore k c).mem = s.mem := rfl
@[simp] theorem setCore_tier (s : State) (k : Nat) (c : CoreRun) : (s.setCore k c).tier = s.tier := rfl
@[simp] theorem setCore_sch (s : State) (k : Nat) (c : CoreRun) : (s.setCore k c).sch = s.sch := rfl
@[simp] theorem setCore_fab (s : State) (k : Nat) (c : CoreRun) : (s.setCore k c).fab = s.fab := rfl
@[simp] theorem setCore_lnk (s : State) (k : Nat) (c : CoreRun) : (s.setCore k c).lnk = s.lnk := rfl
@[simp] theorem setCore_ren (s : State) (k : Nat) (c : CoreRun) : (s.setCore k c).ren = s.ren := rfl
@[simp] theorem setCore_vats (s : State) (k : Nat) (c : CoreRun) : (s.setCore k c).vats = s.vats := rfl
@[simp] theorem setCore_pwr (s : State) (k : Nat) (c : CoreRun) : (s.setCore k c).pwr = s.pwr := rfl
@[simp] theorem setCore_clk (s : State) (k : Nat) (c : CoreRun) : (s.setCore k c).clk = s.clk := rfl
@[simp] theorem setCore_flt (s : State) (k : Nat) (c : CoreRun) : (s.setCore k c).flt = s.flt := rfl
@[simp] theorem setCore_boot (s : State) (k : Nat) (c : CoreRun) : (s.setCore k c).boot = s.boot := rfl
@[simp] theorem setCore_host (s : State) (k : Nat) (c : CoreRun) : (s.setCore k c).host = s.host := rfl
@[simp] theorem setCore_svc (s : State) (k : Nat) (c : CoreRun) : (s.setCore k c).svc = s.svc := rfl
@[simp] theorem setCore_cong (s : State) (k : Nat) (c : CoreRun) : (s.setCore k c).cong = s.cong := rfl
@[simp] theorem setCore_mgmt (s : State) (k : Nat) (c : CoreRun) : (s.setCore k c).mgmt = s.mgmt := rfl
@[simp] theorem setCore_tray (s : State) (k : Nat) (c : CoreRun) : (s.setCore k c).tray = s.tray := rfl
@[simp] theorem rd_setCore (s : State) (k : Nat) (c : CoreRun) (g : Fld) (j m : Nat) : (s.setCore k c).rd g j m = s.rd g j m := rfl
@[simp] theorem byte_setCore (s : State) (k : Nat) (c : CoreRun) (b : Nat) : (s.setCore k c).byte b = s.byte b := rfl
@[simp] theorem ld_setCore (s : State) (k : Nat) (c : CoreRun) (b m : Nat) : (s.setCore k c).ld b m = s.ld b m := rfl
@[simp] theorem ldBytes_setCore (s : State) (k : Nat) (c : CoreRun) (b m : Nat) : (s.setCore k c).ldBytes b m = s.ldBytes b m := rfl
@[simp] theorem sc_setCore (s : State) (k : Nat) (c : CoreRun) (j : Nat) : (s.setCore k c).sc j = s.sc j := rfl
@[simp] theorem que_setCore (s : State) (k : Nat) (c : CoreRun) (j : Nat) : (s.setCore k c).que j = s.que j := rfl
@[simp] theorem mse_setCore (s : State) (k : Nat) (c : CoreRun) (j : Nat) : (s.setCore k c).mse j = s.mse j := rfl
@[simp] theorem fops_setCore (s : State) (k : Nat) (c : CoreRun) (j : Nat) : (s.setCore k c).fops j = s.fops j := rfl
@[simp] theorem eccAt_setCore (s : State) (k : Nat) (c : CoreRun) (j : Nat) : (s.setCore k c).eccAt j = s.eccAt j := rfl
@[simp] theorem vat_setCore (s : State) (k : Nat) (c : CoreRun) (j : Nat) : (s.setCore k c).vat? j = s.vat? j := rfl
@[simp] theorem psite_setCore (s : State) (k : Nat) (c : CoreRun) (j m : Nat) : (s.setCore k c).psite j m = s.psite j m := rfl
@[simp] theorem lsite_setCore (s : State) (k : Nat) (c : CoreRun) (j m : Nat) : (s.setCore k c).lsite j m = s.lsite j m := rfl
@[simp] theorem fenced_setCore (s : State) (k : Nat) (c : CoreRun) (j : Nat) : (s.setCore k c).fenced j = s.fenced j := rfl
@[simp] theorem dieOn_setCore (s : State) (k : Nat) (c : CoreRun) (j m : Nat) : (s.setCore k c).dieOn j m = s.dieOn j m := rfl
@[simp] theorem pail_setCore (s : State) (k : Nat) (c : CoreRun) (j m : Nat) : (s.setCore k c).pail j m = s.pail j m := rfl

@[simp] theorem setMse_pending (s : State) (k : Nat) (l : List MseOp) : (s.setMse k l).pending = s.pending := rfl
@[simp] theorem setMse_now (s : State) (k : Nat) (l : List MseOp) : (s.setMse k l).now = s.now := rfl
@[simp] theorem setMse_age (s : State) (k : Nat) (l : List MseOp) : (s.setMse k l).age = s.age := rfl
@[simp] theorem setMse_free (s : State) (k : Nat) (l : List MseOp) : (s.setMse k l).free = s.free := rfl
@[simp] theorem setMse_regs (s : State) (k : Nat) (l : List MseOp) : (s.setMse k l).regs = s.regs := rfl
@[simp] theorem setMse_mem (s : State) (k : Nat) (l : List MseOp) : (s.setMse k l).mem = s.mem := rfl
@[simp] theorem setMse_tier (s : State) (k : Nat) (l : List MseOp) : (s.setMse k l).tier = s.tier := rfl
@[simp] theorem setMse_sch (s : State) (k : Nat) (l : List MseOp) : (s.setMse k l).sch = s.sch := rfl
@[simp] theorem setMse_fab (s : State) (k : Nat) (l : List MseOp) : (s.setMse k l).fab = s.fab := rfl
@[simp] theorem setMse_lnk (s : State) (k : Nat) (l : List MseOp) : (s.setMse k l).lnk = s.lnk := rfl
@[simp] theorem setMse_ren (s : State) (k : Nat) (l : List MseOp) : (s.setMse k l).ren = s.ren := rfl
@[simp] theorem setMse_vats (s : State) (k : Nat) (l : List MseOp) : (s.setMse k l).vats = s.vats := rfl
@[simp] theorem setMse_pwr (s : State) (k : Nat) (l : List MseOp) : (s.setMse k l).pwr = s.pwr := rfl
@[simp] theorem setMse_clk (s : State) (k : Nat) (l : List MseOp) : (s.setMse k l).clk = s.clk := rfl
@[simp] theorem setMse_flt (s : State) (k : Nat) (l : List MseOp) : (s.setMse k l).flt = s.flt := rfl
@[simp] theorem setMse_boot (s : State) (k : Nat) (l : List MseOp) : (s.setMse k l).boot = s.boot := rfl
@[simp] theorem setMse_host (s : State) (k : Nat) (l : List MseOp) : (s.setMse k l).host = s.host := rfl
@[simp] theorem setMse_svc (s : State) (k : Nat) (l : List MseOp) : (s.setMse k l).svc = s.svc := rfl
@[simp] theorem setMse_cong (s : State) (k : Nat) (l : List MseOp) : (s.setMse k l).cong = s.cong := rfl
@[simp] theorem setMse_mgmt (s : State) (k : Nat) (l : List MseOp) : (s.setMse k l).mgmt = s.mgmt := rfl
@[simp] theorem setMse_tray (s : State) (k : Nat) (l : List MseOp) : (s.setMse k l).tray = s.tray := rfl
@[simp] theorem rd_setMse (s : State) (k : Nat) (l : List MseOp) (g : Fld) (j m : Nat) : (s.setMse k l).rd g j m = s.rd g j m := rfl
@[simp] theorem byte_setMse (s : State) (k : Nat) (l : List MseOp) (b : Nat) : (s.setMse k l).byte b = s.byte b := rfl
@[simp] theorem ld_setMse (s : State) (k : Nat) (l : List MseOp) (b m : Nat) : (s.setMse k l).ld b m = s.ld b m := rfl
@[simp] theorem ldBytes_setMse (s : State) (k : Nat) (l : List MseOp) (b m : Nat) : (s.setMse k l).ldBytes b m = s.ldBytes b m := rfl
@[simp] theorem sc_setMse (s : State) (k : Nat) (l : List MseOp) (j : Nat) : (s.setMse k l).sc j = s.sc j := rfl
@[simp] theorem que_setMse (s : State) (k : Nat) (l : List MseOp) (j : Nat) : (s.setMse k l).que j = s.que j := rfl
@[simp] theorem core_setMse (s : State) (k : Nat) (l : List MseOp) (j : Nat) : (s.setMse k l).core j = s.core j := rfl
@[simp] theorem fops_setMse (s : State) (k : Nat) (l : List MseOp) (j : Nat) : (s.setMse k l).fops j = s.fops j := rfl
@[simp] theorem eccAt_setMse (s : State) (k : Nat) (l : List MseOp) (j : Nat) : (s.setMse k l).eccAt j = s.eccAt j := rfl
@[simp] theorem vat_setMse (s : State) (k : Nat) (l : List MseOp) (j : Nat) : (s.setMse k l).vat? j = s.vat? j := rfl
@[simp] theorem psite_setMse (s : State) (k : Nat) (l : List MseOp) (j m : Nat) : (s.setMse k l).psite j m = s.psite j m := rfl
@[simp] theorem lsite_setMse (s : State) (k : Nat) (l : List MseOp) (j m : Nat) : (s.setMse k l).lsite j m = s.lsite j m := rfl
@[simp] theorem fenced_setMse (s : State) (k : Nat) (l : List MseOp) (j : Nat) : (s.setMse k l).fenced j = s.fenced j := rfl
@[simp] theorem dieOn_setMse (s : State) (k : Nat) (l : List MseOp) (j m : Nat) : (s.setMse k l).dieOn j m = s.dieOn j m := rfl
@[simp] theorem pail_setMse (s : State) (k : Nat) (l : List MseOp) (j m : Nat) : (s.setMse k l).pail j m = s.pail j m := rfl

@[simp] theorem setFops_pending (s : State) (ck : Nat) (l : List FOp) : (s.setFops ck l).pending = s.pending := rfl
@[simp] theorem setFops_now (s : State) (ck : Nat) (l : List FOp) : (s.setFops ck l).now = s.now := rfl
@[simp] theorem setFops_age (s : State) (ck : Nat) (l : List FOp) : (s.setFops ck l).age = s.age := rfl
@[simp] theorem setFops_free (s : State) (ck : Nat) (l : List FOp) : (s.setFops ck l).free = s.free := rfl
@[simp] theorem setFops_regs (s : State) (ck : Nat) (l : List FOp) : (s.setFops ck l).regs = s.regs := rfl
@[simp] theorem setFops_mem (s : State) (ck : Nat) (l : List FOp) : (s.setFops ck l).mem = s.mem := rfl
@[simp] theorem setFops_tier (s : State) (ck : Nat) (l : List FOp) : (s.setFops ck l).tier = s.tier := rfl
@[simp] theorem setFops_sch (s : State) (ck : Nat) (l : List FOp) : (s.setFops ck l).sch = s.sch := rfl
@[simp] theorem setFops_fab (s : State) (ck : Nat) (l : List FOp) : (s.setFops ck l).fab = s.fab := rfl
@[simp] theorem setFops_lnk (s : State) (ck : Nat) (l : List FOp) : (s.setFops ck l).lnk = s.lnk := rfl
@[simp] theorem setFops_ren (s : State) (ck : Nat) (l : List FOp) : (s.setFops ck l).ren = s.ren := rfl
@[simp] theorem setFops_vats (s : State) (ck : Nat) (l : List FOp) : (s.setFops ck l).vats = s.vats := rfl
@[simp] theorem setFops_pwr (s : State) (ck : Nat) (l : List FOp) : (s.setFops ck l).pwr = s.pwr := rfl
@[simp] theorem setFops_clk (s : State) (ck : Nat) (l : List FOp) : (s.setFops ck l).clk = s.clk := rfl
@[simp] theorem setFops_flt (s : State) (ck : Nat) (l : List FOp) : (s.setFops ck l).flt = s.flt := rfl
@[simp] theorem setFops_boot (s : State) (ck : Nat) (l : List FOp) : (s.setFops ck l).boot = s.boot := rfl
@[simp] theorem setFops_host (s : State) (ck : Nat) (l : List FOp) : (s.setFops ck l).host = s.host := rfl
@[simp] theorem setFops_svc (s : State) (ck : Nat) (l : List FOp) : (s.setFops ck l).svc = s.svc := rfl
@[simp] theorem setFops_cong (s : State) (ck : Nat) (l : List FOp) : (s.setFops ck l).cong = s.cong := rfl
@[simp] theorem setFops_mgmt (s : State) (ck : Nat) (l : List FOp) : (s.setFops ck l).mgmt = s.mgmt := rfl
@[simp] theorem setFops_tray (s : State) (ck : Nat) (l : List FOp) : (s.setFops ck l).tray = s.tray := rfl
@[simp] theorem rd_setFops (s : State) (ck : Nat) (l : List FOp) (g : Fld) (j m : Nat) : (s.setFops ck l).rd g j m = s.rd g j m := rfl
@[simp] theorem byte_setFops (s : State) (ck : Nat) (l : List FOp) (b : Nat) : (s.setFops ck l).byte b = s.byte b := rfl
@[simp] theorem ld_setFops (s : State) (ck : Nat) (l : List FOp) (b m : Nat) : (s.setFops ck l).ld b m = s.ld b m := rfl
@[simp] theorem ldBytes_setFops (s : State) (ck : Nat) (l : List FOp) (b m : Nat) : (s.setFops ck l).ldBytes b m = s.ldBytes b m := rfl
@[simp] theorem sc_setFops (s : State) (ck : Nat) (l : List FOp) (j : Nat) : (s.setFops ck l).sc j = s.sc j := rfl
@[simp] theorem que_setFops (s : State) (ck : Nat) (l : List FOp) (j : Nat) : (s.setFops ck l).que j = s.que j := rfl
@[simp] theorem core_setFops (s : State) (ck : Nat) (l : List FOp) (j : Nat) : (s.setFops ck l).core j = s.core j := rfl
@[simp] theorem mse_setFops (s : State) (ck : Nat) (l : List FOp) (j : Nat) : (s.setFops ck l).mse j = s.mse j := rfl
@[simp] theorem eccAt_setFops (s : State) (ck : Nat) (l : List FOp) (j : Nat) : (s.setFops ck l).eccAt j = s.eccAt j := rfl
@[simp] theorem vat_setFops (s : State) (ck : Nat) (l : List FOp) (j : Nat) : (s.setFops ck l).vat? j = s.vat? j := rfl
@[simp] theorem psite_setFops (s : State) (ck : Nat) (l : List FOp) (j m : Nat) : (s.setFops ck l).psite j m = s.psite j m := rfl
@[simp] theorem lsite_setFops (s : State) (ck : Nat) (l : List FOp) (j m : Nat) : (s.setFops ck l).lsite j m = s.lsite j m := rfl
@[simp] theorem fenced_setFops (s : State) (ck : Nat) (l : List FOp) (j : Nat) : (s.setFops ck l).fenced j = s.fenced j := rfl
@[simp] theorem dieOn_setFops (s : State) (ck : Nat) (l : List FOp) (j m : Nat) : (s.setFops ck l).dieOn j m = s.dieOn j m := rfl
@[simp] theorem pail_setFops (s : State) (ck : Nat) (l : List FOp) (j m : Nat) : (s.setFops ck l).pail j m = s.pail j m := rfl

@[simp] theorem setEcc_pending (s : State) (w v : Nat) : (s.setEcc w v).pending = s.pending := rfl
@[simp] theorem setEcc_now (s : State) (w v : Nat) : (s.setEcc w v).now = s.now := rfl
@[simp] theorem setEcc_age (s : State) (w v : Nat) : (s.setEcc w v).age = s.age := rfl
@[simp] theorem setEcc_free (s : State) (w v : Nat) : (s.setEcc w v).free = s.free := rfl
@[simp] theorem setEcc_regs (s : State) (w v : Nat) : (s.setEcc w v).regs = s.regs := rfl
@[simp] theorem setEcc_mem (s : State) (w v : Nat) : (s.setEcc w v).mem = s.mem := rfl
@[simp] theorem setEcc_tier (s : State) (w v : Nat) : (s.setEcc w v).tier = s.tier := rfl
@[simp] theorem setEcc_sch (s : State) (w v : Nat) : (s.setEcc w v).sch = s.sch := rfl
@[simp] theorem setEcc_fab (s : State) (w v : Nat) : (s.setEcc w v).fab = s.fab := rfl
@[simp] theorem setEcc_lnk (s : State) (w v : Nat) : (s.setEcc w v).lnk = s.lnk := rfl
@[simp] theorem setEcc_ren (s : State) (w v : Nat) : (s.setEcc w v).ren = s.ren := rfl
@[simp] theorem setEcc_vats (s : State) (w v : Nat) : (s.setEcc w v).vats = s.vats := rfl
@[simp] theorem setEcc_pwr (s : State) (w v : Nat) : (s.setEcc w v).pwr = s.pwr := rfl
@[simp] theorem setEcc_clk (s : State) (w v : Nat) : (s.setEcc w v).clk = s.clk := rfl
@[simp] theorem setEcc_flt (s : State) (w v : Nat) : (s.setEcc w v).flt = s.flt := rfl
@[simp] theorem setEcc_boot (s : State) (w v : Nat) : (s.setEcc w v).boot = s.boot := rfl
@[simp] theorem setEcc_host (s : State) (w v : Nat) : (s.setEcc w v).host = s.host := rfl
@[simp] theorem setEcc_svc (s : State) (w v : Nat) : (s.setEcc w v).svc = s.svc := rfl
@[simp] theorem setEcc_cong (s : State) (w v : Nat) : (s.setEcc w v).cong = s.cong := rfl
@[simp] theorem setEcc_mgmt (s : State) (w v : Nat) : (s.setEcc w v).mgmt = s.mgmt := rfl
@[simp] theorem setEcc_tray (s : State) (w v : Nat) : (s.setEcc w v).tray = s.tray := rfl
@[simp] theorem rd_setEcc (s : State) (w v : Nat) (g : Fld) (j m : Nat) : (s.setEcc w v).rd g j m = s.rd g j m := rfl
@[simp] theorem byte_setEcc (s : State) (w v : Nat) (b : Nat) : (s.setEcc w v).byte b = s.byte b := rfl
@[simp] theorem ld_setEcc (s : State) (w v : Nat) (b m : Nat) : (s.setEcc w v).ld b m = s.ld b m := rfl
@[simp] theorem ldBytes_setEcc (s : State) (w v : Nat) (b m : Nat) : (s.setEcc w v).ldBytes b m = s.ldBytes b m := rfl
@[simp] theorem sc_setEcc (s : State) (w v : Nat) (j : Nat) : (s.setEcc w v).sc j = s.sc j := rfl
@[simp] theorem que_setEcc (s : State) (w v : Nat) (j : Nat) : (s.setEcc w v).que j = s.que j := rfl
@[simp] theorem core_setEcc (s : State) (w v : Nat) (j : Nat) : (s.setEcc w v).core j = s.core j := rfl
@[simp] theorem mse_setEcc (s : State) (w v : Nat) (j : Nat) : (s.setEcc w v).mse j = s.mse j := rfl
@[simp] theorem fops_setEcc (s : State) (w v : Nat) (j : Nat) : (s.setEcc w v).fops j = s.fops j := rfl
@[simp] theorem vat_setEcc (s : State) (w v : Nat) (j : Nat) : (s.setEcc w v).vat? j = s.vat? j := rfl
@[simp] theorem psite_setEcc (s : State) (w v : Nat) (j m : Nat) : (s.setEcc w v).psite j m = s.psite j m := rfl
@[simp] theorem lsite_setEcc (s : State) (w v : Nat) (j m : Nat) : (s.setEcc w v).lsite j m = s.lsite j m := rfl
@[simp] theorem fenced_setEcc (s : State) (w v : Nat) (j : Nat) : (s.setEcc w v).fenced j = s.fenced j := rfl
@[simp] theorem dieOn_setEcc (s : State) (w v : Nat) (j m : Nat) : (s.setEcc w v).dieOn j m = s.dieOn j m := rfl
@[simp] theorem pail_setEcc (s : State) (w v : Nat) (j m : Nat) : (s.setEcc w v).pail j m = s.pail j m := rfl

@[simp] theorem setVat_pending (s : State) (v : Vat) : (s.setVat v).pending = s.pending := rfl
@[simp] theorem setVat_now (s : State) (v : Vat) : (s.setVat v).now = s.now := rfl
@[simp] theorem setVat_age (s : State) (v : Vat) : (s.setVat v).age = s.age := rfl
@[simp] theorem setVat_free (s : State) (v : Vat) : (s.setVat v).free = s.free := rfl
@[simp] theorem setVat_regs (s : State) (v : Vat) : (s.setVat v).regs = s.regs := rfl
@[simp] theorem setVat_mem (s : State) (v : Vat) : (s.setVat v).mem = s.mem := rfl
@[simp] theorem setVat_cmp (s : State) (v : Vat) : (s.setVat v).cmp = s.cmp := rfl
@[simp] theorem setVat_tier (s : State) (v : Vat) : (s.setVat v).tier = s.tier := rfl
@[simp] theorem setVat_sch (s : State) (v : Vat) : (s.setVat v).sch = s.sch := rfl
@[simp] theorem setVat_fab (s : State) (v : Vat) : (s.setVat v).fab = s.fab := rfl
@[simp] theorem setVat_lnk (s : State) (v : Vat) : (s.setVat v).lnk = s.lnk := rfl
@[simp] theorem setVat_ren (s : State) (v : Vat) : (s.setVat v).ren = s.ren := rfl
@[simp] theorem setVat_pwr (s : State) (v : Vat) : (s.setVat v).pwr = s.pwr := rfl
@[simp] theorem setVat_clk (s : State) (v : Vat) : (s.setVat v).clk = s.clk := rfl
@[simp] theorem setVat_flt (s : State) (v : Vat) : (s.setVat v).flt = s.flt := rfl
@[simp] theorem setVat_boot (s : State) (v : Vat) : (s.setVat v).boot = s.boot := rfl
@[simp] theorem setVat_host (s : State) (v : Vat) : (s.setVat v).host = s.host := rfl
@[simp] theorem setVat_svc (s : State) (v : Vat) : (s.setVat v).svc = s.svc := rfl
@[simp] theorem setVat_cong (s : State) (v : Vat) : (s.setVat v).cong = s.cong := rfl
@[simp] theorem setVat_mgmt (s : State) (v : Vat) : (s.setVat v).mgmt = s.mgmt := rfl
@[simp] theorem setVat_tray (s : State) (v : Vat) : (s.setVat v).tray = s.tray := rfl
@[simp] theorem rd_setVat (s : State) (v : Vat) (g : Fld) (j m : Nat) : (s.setVat v).rd g j m = s.rd g j m := rfl
@[simp] theorem byte_setVat (s : State) (v : Vat) (b : Nat) : (s.setVat v).byte b = s.byte b := rfl
@[simp] theorem ld_setVat (s : State) (v : Vat) (b m : Nat) : (s.setVat v).ld b m = s.ld b m := rfl
@[simp] theorem ldBytes_setVat (s : State) (v : Vat) (b m : Nat) : (s.setVat v).ldBytes b m = s.ldBytes b m := rfl
@[simp] theorem sc_setVat (s : State) (v : Vat) (j : Nat) : (s.setVat v).sc j = s.sc j := rfl
@[simp] theorem que_setVat (s : State) (v : Vat) (j : Nat) : (s.setVat v).que j = s.que j := rfl
@[simp] theorem core_setVat (s : State) (v : Vat) (j : Nat) : (s.setVat v).core j = s.core j := rfl
@[simp] theorem mse_setVat (s : State) (v : Vat) (j : Nat) : (s.setVat v).mse j = s.mse j := rfl
@[simp] theorem fops_setVat (s : State) (v : Vat) (j : Nat) : (s.setVat v).fops j = s.fops j := rfl
@[simp] theorem eccAt_setVat (s : State) (v : Vat) (j : Nat) : (s.setVat v).eccAt j = s.eccAt j := rfl
@[simp] theorem psite_setVat (s : State) (v : Vat) (j m : Nat) : (s.setVat v).psite j m = s.psite j m := rfl
@[simp] theorem lsite_setVat (s : State) (v : Vat) (j m : Nat) : (s.setVat v).lsite j m = s.lsite j m := rfl
@[simp] theorem fenced_setVat (s : State) (v : Vat) (j : Nat) : (s.setVat v).fenced j = s.fenced j := rfl
@[simp] theorem dieOn_setVat (s : State) (v : Vat) (j m : Nat) : (s.setVat v).dieOn j m = s.dieOn j m := rfl
@[simp] theorem pail_setVat (s : State) (v : Vat) (j m : Nat) : (s.setVat v).pail j m = s.pail j m := rfl

end Sys2Proof.Machine
end

