-- ==== Sys2Proof/Laws/Scalar.lean ====
section
/-! SUPPORT. What the shared operations of the S-core can do: reading scratch, starting a scalar instruction, taking an exception. -/

namespace Sys2Proof.Machine

/-- A scratch read changes nothing but the SCR_ECC registers and the write-back list. -/
theorem readScr_frame (s : State) (core off len src : Nat) :
    ∃ r w u, (s.readScr core off len src).1 = { s with regs := r, cmp := { s.cmp with wback := w, ueNew := u } } := by
  unfold State.readScr
  split
  · exact ⟨_, s.cmp.wback, _, rfl⟩
  · exact ⟨_, _, s.cmp.ueNew, rfl⟩

@[simp] theorem readScr_mem (s : State) (core off len src : Nat) : (s.readScr core off len src).1.mem = s.mem := by
  obtain ⟨r, w, u, h⟩ := readScr_frame s core off len src; rw [h]

@[simp] theorem readScr_sc (s : State) (core off len src k : Nat) : (s.readScr core off len src).1.sc k = s.sc k := by
  obtain ⟨r, w, u, h⟩ := readScr_frame s core off len src; rw [h]; rfl

/-- A scratch read leaves every register field but those of SCR_ECC. -/
theorem readScr_rd (s : State) (core off len src : Nat) (f : Fld) (i k : Nat)
    (h : ∀ g ∈ [Reg.SCR_ECC_CORRECTED, Reg.SCR_ECC_UNCORRECTED, Reg.SCR_ECC_LAST_UE, Reg.SCR_ECC_LAST_SRC, Reg.SCR_ECC_UE_NEW],
      fkey g core 0 ≠ fkey f i k) : (s.readScr core off len src).1.rd f i k = s.rd f i k := by
  simp only [List.mem_cons, List.not_mem_nil, or_false, forall_eq_or_imp, forall_eq] at h
  unfold State.readScr
  split
  · simp only [State.noteUe, State.bump]
    rw [rd_wr_ne _ _ _ _ _ _ _ _ h.2.2.2.2, rd_wr_ne _ _ _ _ _ _ _ _ h.2.2.2.1, rd_wr_ne _ _ _ _ _ _ _ _ h.2.2.1,
      rd_wr_ne _ _ _ _ _ _ _ _ h.2.1]
    rfl
  · exact rd_wr_ne _ _ _ _ _ _ _ _ h.1

/-- An S-core that fetches a legal instruction carries out its body in the state after the fetch. -/
theorem scalar_go (s : State) (ck : Nat) (legal : Bool) (body : SCore → State → State) (h : Fetches s ck) (hl : legal = true) :
    s.scalar ck legal body = body (s.sc ck) (fetched s ck) := by
  obtain ⟨h1, h2, h3, h4⟩ := h
  unfold State.scalar fetched
  simp only [h1, hl]
  have : ¬ (0x200000 ≤ (s.sc ck).pc.toNat ∨ ((s.sc ck).priv = false ∧ pail63At 4 ≤ (s.sc ck).pc.toNat)) := by
    rcases h3 with h3 | h3
    · simp [h3]; omega
    · intro hh; rcases hh with hh | hh <;> omega
  simp [this, h4]

@[simp] theorem fetched_mem (s : State) (ck : Nat) : (fetched s ck).mem = s.mem := readScr_mem _ _ _ _ _

@[simp] theorem fetched_sc (s : State) (ck k : Nat) : (fetched s ck).sc k = s.sc k := readScr_sc _ _ _ _ _ _

/-- An illegal form traps with ILLEGAL. -/
theorem scalar_illegal (s : State) (ck : Nat) (body : SCore → State → State) (h : Fetches s ck) :
    s.scalar ck false body = (fetched s ck).trapNoAddr ck cIllegal := by
  obtain ⟨h1, h2, h3, h4⟩ := h
  unfold State.scalar fetched
  have : ¬ (0x200000 ≤ (s.sc ck).pc.toNat ∨ ((s.sc ck).priv = false ∧ pail63At 4 ≤ (s.sc ck).pc.toNat)) := by
    rcases h3 with h3 | h3
    · simp [h3]; omega
    · intro hh; rcases hh with hh | hh <;> omega
  simp [h1, this, h4]

/-- Outside the service handler an exception changes its own S-core alone. -/
theorem takeExc_sc (s : State) (ck cause src sigCtr tag : Nat) (priv : Bool) (addr : Word) (h : (s.sc ck).inSH = false) :
    ∃ c, s.takeExc ck cause src sigCtr tag priv addr = s.setSc ck c := by
  unfold State.takeExc
  simp only [h]
  split
  · simp_all
  · split
    · exact ⟨_, rfl⟩
    · exact ⟨_, rfl⟩

/-- So does a trap, which may draw a free value for the address. -/
theorem trapNoAddr_sc (s : State) (ck cause : Nat) (h : (s.sc ck).inSH = false) :
    ∃ c, s.trapNoAddr ck cause = ({ s with free := s.free + 1 }).setSc ck c := by
  unfold State.trapNoAddr State.draw State.trap
  exact takeExc_sc _ _ _ _ _ _ _ _ h

/-- Everything a scalar instruction can do: nothing, a trap of the fetch, ILLEGAL, or its body in the state after the fetch. -/
theorem scalar_cases (s : State) (ck : Nat) (legal : Bool) (body : SCore → State → State) :
    s.scalar ck legal body = s ∨ s.scalar ck legal body = s.trap ck cBounds (s.sc ck).pc ∨
    s.scalar ck legal body = (fetched s ck).trap ck cEcc (s.sc ck).pc ∨ s.scalar ck legal body = (fetched s ck).trapNoAddr ck cIllegal ∨
    (legal = true ∧ s.scalar ck legal body = body (s.sc ck) (fetched s ck)) := by
  unfold State.scalar fetched
  by_cases h1 : s.sReady ck = true
  · by_cases h2 : 0x200000 ≤ (s.sc ck).pc.toNat ∨ ((s.sc ck).priv = false ∧ pail63At 4 ≤ (s.sc ck).pc.toNat)
    · simp [h1, h2]
    · by_cases h3 : (s.readScr (coreOf ck 4) (s.sc ck).pc.toNat 8 2).2 = true
      · cases legal <;> simp [h1, h2, h3]
      · simp [h1, h2, h3]
  · simp [h1]

/-- A scalar instruction whose body keeps memory, in an S-core outside its service handler, keeps memory on every path. -/
theorem scalar_mem (s : State) (ck : Nat) (legal : Bool) (body : SCore → State → State) (h : (s.sc ck).inSH = false)
    (hb : ∀ t, t.mem = s.mem → (body (s.sc ck) t).mem = s.mem) : (s.scalar ck legal body).mem = s.mem := by
  rcases scalar_cases s ck legal body with e | e | e | e | ⟨_, e⟩ <;> rw [e]
  · obtain ⟨c, e⟩ := takeExc_sc s ck cBounds 4 0 0 (s.sc ck).priv (s.sc ck).pc h
    simp [State.trap, e]
  · obtain ⟨c, e⟩ := takeExc_sc (fetched s ck) ck cEcc 4 0 0 (s.sc ck).priv (s.sc ck).pc (by simp [h])
    simp [State.trap, e]
  · obtain ⟨c, e⟩ := trapNoAddr_sc (fetched s ck) ck cIllegal (by simp [h])
    simp [e]
  · exact hb _ (by simp)

end Sys2Proof.Machine
end

