-- ==== Sys2Proof/Laws/Frames.lean ====
section
/-! SUPPORT. What the shared operations that touch a core's scratch can do: they write memory, error marks and the SCR registers of that
core, and nothing else. -/

namespace Sys2Proof.Machine

/-- The register fields that scratch accesses of a core write. -/
def scrFlds : List Fld :=
  [Reg.SCR_ECC_CORRECTED, Reg.SCR_ECC_UNCORRECTED, Reg.SCR_ECC_LAST_UE, Reg.SCR_ECC_LAST_SRC, Reg.SCR_ECC_UE_NEW, Reg.SCR_CTL_INJECT]

/-- A step that touches a core's scratch alone. -/
def ScrStep (core : Nat) (s t : State) : Prop :=
  t = { s with regs := t.regs, mem := t.mem, cmp := { s.cmp with ecc := t.cmp.ecc, wback := t.cmp.wback, ueNew := t.cmp.ueNew } } ∧
    ∀ f i k, (∀ g ∈ scrFlds, fkey g core 0 ≠ fkey f i k) → t.rd f i k = s.rd f i k

theorem ScrStep.refl (core : Nat) (s : State) : ScrStep core s s := ⟨rfl, fun _ _ _ _ => rfl⟩

theorem ScrStep.trans {core : Nat} {s t u : State} (h : ScrStep core s t) (g : ScrStep core t u) : ScrStep core s u := by
  obtain ⟨h1, h2⟩ := h
  obtain ⟨g1, g2⟩ := g
  refine ⟨?_, fun f i k hf => (g2 f i k hf).trans (h2 f i k hf)⟩
  rw [g1, h1]

theorem ScrStep.wr {core : Nat} (s : State) (g : Fld) (v : Nat) (h : g ∈ scrFlds) : ScrStep core s (s.wr g core v) :=
  ⟨rfl, fun _ _ _ hf => rd_wr_ne _ _ _ _ _ _ _ _ (hf g h)⟩

theorem ScrStep.vats {core : Nat} {s t : State} (h : ScrStep core s t) : t.vats = s.vats := by rw [h.1]
theorem ScrStep.que {core : Nat} {s t : State} (h : ScrStep core s t) (k : Nat) : t.que k = s.que k := by
  have := h.1; unfold State.que; rw [this]
theorem ScrStep.core {core : Nat} {s t : State} (h : ScrStep core s t) (k : Nat) : t.core k = s.core k := by
  have := h.1; unfold State.core; rw [this]
theorem ScrStep.sc {core : Nat} {s t : State} (h : ScrStep core s t) (k : Nat) : t.sc k = s.sc k := by
  have := h.1; unfold State.sc; rw [this]

theorem noteUe_step (s : State) (core w src : Nat) : ScrStep core s (s.noteUe core w src) := by
  unfold State.noteUe State.bump
  refine ScrStep.trans ?_ (.trans (.wr _ _ _ ?_) (.trans (.wr _ _ _ ?_) (.trans (.wr _ _ _ ?_) (.wr _ _ _ ?_))))
  · exact ⟨rfl, fun _ _ _ _ => rfl⟩
  all_goals decide

theorem readScr_step (s : State) (core off len src : Nat) : ScrStep core s (s.readScr core off len src).1 := by
  unfold State.readScr
  split
  · exact noteUe_step _ _ _ _
  · exact .trans (.wr _ _ _ (by decide)) ⟨rfl, fun _ _ _ _ => rfl⟩

theorem writePart_step (s : State) (core off : Nat) (bs : List Byte) : ScrStep core s (s.writePart core off bs) := by
  unfold State.writePart
  split
  · exact .refl _ _
  · simp only
    split
    · exact noteUe_step _ _ _ _
    · split
      · exact .trans (.wr _ _ _ (by decide)) ⟨rfl, fun _ _ _ _ => rfl⟩
      · exact ⟨rfl, fun _ _ _ _ => rfl⟩

theorem writeFull_step (s : State) (core off : Nat) (bs : List Byte) : ScrStep core s (s.writeFull core off bs) := by
  unfold State.writeFull
  split
  · exact .refl _ _
  · simp only
    split
    · exact .trans (t := _) ⟨rfl, fun _ _ _ _ => rfl⟩ (.wr _ _ _ (by decide))
    · exact ⟨rfl, fun _ _ _ _ => rfl⟩

/-- A write of scratch bytes. -/
theorem writeScr_step (s : State) (core off : Nat) (bs : List Byte) : ScrStep core s (s.writeScr core off bs) :=
  .trans (.trans (writePart_step _ _ _ _) (writeFull_step _ _ _ _)) (writePart_step _ _ _ _)

theorem each_step {α : Type} (core : Nat) (f : State → α → State) (h : ∀ s x, ScrStep core s (f s x)) :
    ∀ (l : List α) (s : State), ScrStep core s (s.each l f)
  | [], s => .refl _ s
  | x :: r, s => .trans (h s x) (each_step core f h r (f s x))

theorem writeView_step (s : State) (core : Nat) (p : Pail) (l : Nat) (bs : List Byte) : ScrStep core s (s.writeView core p l bs) := by
  unfold State.writeView
  split
  · exact writeScr_step _ _ _ _
  · exact each_step _ _ (fun s x => writeScr_step _ _ _ _) _ _

theorem foldRead_step {α : Type} (core : Nat) (f : State × Bool → α → State × Bool) (h : ∀ r x, ScrStep core r.1 (f r x).1) :
    ∀ (l : List α) (r : State × Bool), ScrStep core r.1 (l.foldl f r).1
  | [], r => .refl _ r.1
  | x :: l, r => .trans (h r x) (foldRead_step core f h l (f r x))

theorem readView_step (s : State) (core : Nat) (p : Pail) (l n : Nat) : ScrStep core s (s.readView core p l n).1 := by
  unfold State.readView
  split
  · exact readScr_step _ _ _ _ _
  · refine foldRead_step core _ (fun r x => ?_) _ (s, true)
    split
    · exact readScr_step _ _ _ _ _
    · exact .refl _ _

theorem readAll_step (s : State) (core : Nat) (l : List (Nat × Nat × Nat)) : ScrStep core s (s.readAll core l).1 := by
  unfold State.readAll
  split
  · exact .refl _ _
  · refine foldRead_step core _ (fun r x => ?_) _ (s, true)
    split
    · exact readView_step _ _ _ _ _
    · exact .refl _ _

theorem foldReads_step (s : State) (core : Nat) (d : List Nat) (nb mg kb fr : Nat) (rows : List Nat) :
    ScrStep core s (s.foldReads core d nb mg kb fr rows).1 := readAll_step _ _ _

theorem loadBlk_step (s : State) (core : Nat) (d : List Nat) (nb kb : Nat) : ScrStep core s (s.loadBlk core d nb kb).1 :=
  readAll_step _ _ _

theorem frontBlk_step (s : State) (core : Nat) (d : List Nat) (run : MRun) (nb kb : Nat) : ScrStep core s (s.frontBlk core d run nb kb).1 := by
  unfold State.frontBlk
  split
  · split
    · exact .refl _ _
    · exact loadBlk_step _ _ _ _ _
  · exact loadBlk_step _ _ _ _ _

theorem backBlk_step (s : State) (core : Nat) (d : List Nat) (nb mg kb : Nat) : ScrStep core s (s.backBlk core d nb mg kb).1 := by
  unfold State.backBlk
  split
  · exact .refl _ _
  · rename_i x _
    have := loadBlk_step s core d x.1 x.2
    split <;> rename_i h <;> rw [h] at this <;> exact this

theorem buffers_step (s : State) (core : Nat) (d : List Nat) (run : MRun) (nb mg kb fr : Nat) :
    ScrStep core s (s.buffers core d run nb mg kb fr).1 := by
  unfold State.buffers
  split
  · exact .refl _ _
  · have h := frontBlk_step s core d run nb kb
    split
    · rename_i e; rw [e] at h; exact h
    · rename_i t f e
      rw [e] at h
      have g := backBlk_step t core d nb mg kb
      split <;> rename_i e <;> rw [e] at g <;> exact h.trans g

theorem rowOut_step (s : State) (core : Nat) (d : List Nat) (run : MRun) (nb m : Nat) (acc : List Acc) :
    ScrStep core s (s.rowOut core d run nb m acc).1 := writeView_step _ _ _ _ _

theorem foldOut_step {α β : Type} (core : Nat) (f : State × β → α → State × β) (h : ∀ r x, ScrStep core r.1 (f r x).1) :
    ∀ (l : List α) (r : State × β), ScrStep core r.1 (l.foldl f r).1
  | [], r => .refl _ r.1
  | x :: l, r => .trans (h r x) (foldOut_step core f h l (f r x))

/-- A fold touches its core's scratch alone; the run moves on by one fold and keeps its descriptor and anchor. -/
theorem doFold_step (s : State) (core : Nat) (d : List Nat) (run : MRun) : ScrStep core s (s.doFold core d run).1 ∧
    ∀ r, (s.doFold core d run).2 = some r → r.fold = run.fold + 1 ∧ r.desc = run.desc ∧ r.anchor = run.anchor ∧ r.span = run.span := by
  unfold State.doFold
  obtain ⟨nb, mg, kb, fr⟩ := mCoord d run.fold
  simp only
  have h := buffers_step s core d run nb mg kb fr
  split
  · rename_i e; rw [e] at h; exact ⟨h, by simp⟩
  · rename_i t front back e
    rw [e] at h
    split
    · exact ⟨h.trans (foldReads_step _ _ _ _ _ _ _ _), by simp⟩
    · refine ⟨?_, fun r hr => ?_⟩
      · split
        · refine (h.trans (foldReads_step t core d nb mg kb fr _)).trans (foldOut_step core _ (fun r x => ?_) _ (_, 0))
          exact rowOut_step _ _ _ _ _ _ _
        · exact h.trans (foldReads_step t core d nb mg kb fr _)
      · simp only [Option.some.injEq] at hr; subst hr; exact ⟨rfl, rfl, rfl, rfl⟩

end Sys2Proof.Machine
end

