-- ==== Sys2Proof/Laws/Memory.lean ====
section
/-! SUPPORT. Laws of memory as bytes: reading after a store, and the frame and canonical form of every store. -/

namespace Sys2Proof.Machine

/-- Outside the stored bytes a store changes no byte. -/
theorem byte_stBytes_ne (s : State) (a : Nat) (bs : List Byte) (k : Nat) (h : k < a ∨ a + bs.length ≤ k) :
    (s.stBytes a bs).byte k = s.byte k := by rw [byte_stBytes, if_neg (by omega)]

/-- A read depends on the bytes of its range only. -/
theorem ldBytes_congr (s t : State) (a n : Nat) (h : ∀ i, i < n → s.byte (a + i) = t.byte (a + i)) : s.ldBytes a n = t.ldBytes a n :=
  List.map_congr_left fun i hi => h i (by simpa using hi)

/-- A read within a store gives that part of it. -/
theorem ldBytes_stBytes (s : State) (a off n : Nat) (bs : List Byte) (h : off + n ≤ bs.length) :
    (s.stBytes a bs).ldBytes (a + off) n = (bs.drop off).take n := by
  apply List.ext_getElem
  · simp; omega
  · intro i h1 h2
    have hi : i < n := by simpa using h1
    simp only [State.ldBytes, List.getElem_map, List.getElem_range, byte_stBytes, List.getElem_take, List.getElem_drop]
    rw [if_pos (by omega), show a + off + i - a = off + i by omega, List.getD_eq_getElem?_getD, List.getElem?_eq_getElem (by omega)]
    rfl

/-- A read apart from a store gives what it gave before. -/
theorem ldBytes_stBytes_ne (s : State) (a b n : Nat) (bs : List Byte) (h : b + n ≤ a ∨ a + bs.length ≤ b) :
    (s.stBytes a bs).ldBytes b n = s.ldBytes b n :=
  ldBytes_congr _ _ _ _ fun i hi => byte_stBytes_ne s a bs (b + i) (by omega)

/-- Reset memory has the canonical form. -/
theorem reset_wf : Memory.wf State.reset.mem := rfl

/-- A loop keeps what each of its rounds keeps. -/
theorem each_keeps {α : Type} (P : State → Prop) (f : State → α → State) (h : ∀ s x, P s → P (f s x)) :
    ∀ (l : List α) (s : State), P s → P (s.each l f)
  | [], _, hs => hs
  | x :: r, s, hs => each_keeps P f h r (f s x) (h s x hs)

end Sys2Proof.Machine
end

