-- ==== Sys2Proof/WellFormed.lean ====
section
/-! DEFINITION. What the operand types do not say: lengths of the lists a command carries, and ranges of plain
numbers. A command that fails a check is no command of the block; `exec` gives it a next state all the same. -/

namespace Sys2Proof

/-- Every die of a meter sample, with its clusters (R357, R358). -/
def EnergySample.wf (e : EnergySample) : Bool :=
  e.dies.length == 7 && e.acts.length == 7 && e.acts.all fun a => a.length == 4

/-- Core slot, site and kind of a list of die keys (tile × 8 + site). -/
def dieKeysOk (l : List Nat) : Bool := l.all fun k => decide (k / 8 < 36) && decide (k % 8 < 7)

/-- The well-formedness of a command. -/
def Instr.wf : Instr → Bool
  | .registerWrite .csr addr _ => decide (addr < 2 ^ 56)
  | .registerWrite (.bar fn) addr _ => decide (fn.toNat ≤ 64) && decide (addr < 2 ^ 16)
  | .meterTick es => es.all EnergySample.wf
  | .selfTest r => dieKeysOk r.bistFail && dieKeysOk r.fuseBad && dieKeysOk r.fuseCrcBad &&
      (r.baseFail.all fun t => decide (t < 36)) && (r.badLanes.all fun k => decide (k < 1152 * 16384)) &&
      r.badGroups.all fun k => decide (k < 1152 * 8)
  | .bistComplete _ _ r => (r.badLanes.all fun k => decide (k < 2 * 16384)) && r.badGroups.all fun k => decide (k < 16)
  | .memTrain r => r.stackFail.all (fun k => decide (k < 24)) && r.pkgFail.all fun k => decide (k < 72)
  | .memRestore r => r.stackFail.all (fun k => decide (k < 24)) && r.pkgFail.all fun k => decide (k < 72)
  | .thermalSample ts => ts.all fun t => decide (t.readings ≠ [])
  | .timeMasterChange up => up.all fun m => decide (m < 64)
  | .sqTailDoorbell fn _ _ => decide (fn.toNat ≤ 64)
  | .cqHeadDoorbell fn _ _ => decide (fn.toNat ≤ 64)
  | .queueEnable fn _ => decide (fn.toNat ≤ 64)
  | .queueDisable fn _ => decide (fn.toNat ≤ 64)
  | _ => true

end Sys2Proof
end

