-- ==== Sys2Proof/Tests/Slice0.lean ====
section
/-! SUPPORT. Tests: ill-formed commands that WellFormed refuses, the spec's own values for single commands, and for every
statement a state and operands that meet its hypotheses. -/

namespace Sys2Proof.Tests

open Sys2Proof Sys2Proof.Machine

set_option Elab.async false

/-! ### A small machine -/

/-- Cluster 0 of physical site 0 of tile (0, 0), and its core slots. -/
def clu : Clu := ⟨0, 0, 0⟩
def core (slot : Fin 5) : Core := ⟨0, 0, 0, slot⟩

/-- A module at READY with tile (0, 0) on: six active dies and a dry one, the input on, the clocks started, the host up. -/
def ready : State :=
  let s := [(Reg.PW_STATUS_CELL, 2), (Reg.PW_STATUS_VLNK_GOOD, 1), (Reg.SITE_STATE_SITE_ST, 0x2111111), (Reg.BU_STATUS_STATE, 12),
    (Reg.IN_STATUS_EFUSE, 2)].foldl (fun s x => s.wr x.1 0 x.2) State.reset
  { s with clk := { s.clk with started := true }, host := { s.host with up := true }, pwr := { s.pwr with mated := true, pin := true } }

/-- The same with an S-core at service privilege whose program counter is 0x1000. -/
def live : State := ready.setSc 0 { up := true, pc := 0x1000 }

/-- A running vat of the 24 logical clusters of tile (0, 0). -/
def vat : Vat := { id := 1, clus := List.range 24, mods := [0], run := .running }
def withVat : State := { live with vats := [vat] }

/-! ### Witnesses: the S-cores' instructions -/

theorem witness_fetches : Fetches live (cluKey clu) := by unfold Fetches; decide +kernel
theorem witness_fetches_vat : Fetches withVat (cluKey clu) := by unfold Fetches; decide +kernel

/-- The S-core of `live` at vat privilege. -/
def liveVat : State := withVat.setSc 0 { up := true, pc := 0x1000, priv := false }
theorem witness_fetches_priv : Fetches liveVat (cluKey clu) := by unfold Fetches; decide +kernel

/-- Format R with the given registers. -/
def fr (rd rs1 rs2 : BitVec 5) : FmtR := { rd := rd, rs1 := rs1, rs2 := rs2, rs3 := 0, rm := 0, rsv := 0 }
def fi (rd rs1 : BitVec 5) (imm : BitVec 42) : FmtI := { rd := rd, rs1 := rs1, imm := imm }
def ff : FmtF := { rr := 0, rs1 := 0, rs2 := 0, rs3 := 0, sigCtr := 0, sigEn := false, route := 0, rsv := 0 }
def fp (pail : BitVec 6) : FmtP := { rs1 := 1, rs2 := 2, rs3 := 0, slot := 0, pail := pail, sigCtr := 0, sigEn := false, rsv := 0 }
def fm (imm : BitVec 32) (space : Bool) : FmtM := { rd := 3, rs1 := 0, space := space, rsv := 0, imm := imm }

theorem witness_EmptyQueueTicks : ready.pending = [] ∧ ready.clk.started = true ∧ State.reset.clk.started = false ∧
    ready.rd Reg.TM_SERVO_RATE 0 = 0 ∧ ready.clk.rateAcc = 0 := by decide +kernel

theorem witness_IntegerRegister : Fetches live (cluKey clu) ∧ (fr 3 1 2).rs3 = 0 ∧ (fr 3 1 2).rm = 0 ∧ (fr 3 1 2).rsv = 0 :=
  ⟨witness_fetches, by decide⟩

theorem witness_IntegerImmediate : Fetches live (cluKey clu) ∧ (fi 3 0 0).rs1 = 0 ∧ (fi 3 0 0x3FFFFF).imm.toNat < 2 ^ 22 :=
  ⟨witness_fetches, by decide⟩

theorem witness_FloatArithmetic : Fetches live (cluKey clu) ∧ fp32 = (if true then fp32 else fp64) ∧ fp64 = (if false then fp32 else fp64) ∧
    isF (fr 15 15 15).rd = true ∧ isF (fr 15 15 15).rs1 = true ∧ isF (fr 15 15 15).rs2 = true ∧ isF (fr 15 15 15).rs3 = true ∧
    (3 : BitVec 3).toNat < 4 ∧ (fr 15 15 0).rs2 = 0 := ⟨witness_fetches, by decide⟩

theorem witness_FloatCompareConvert : Fetches live (cluKey clu) ∧ (fr 3 15 15).rs3 = 0 ∧ isF (fr 3 15 15).rs1 = true ∧
    isF (fr 3 15 15).rs2 = true ∧ (fr 3 15 15).rm = 0 ∧ (fr 3 15 0).rs2 = 0 ∧ isF (fr 3 15 0).rd = true := ⟨witness_fetches, by decide⟩

theorem witness_CommandAndSpecialRegisters : Fetches live (cluKey clu) ∧ (fr 0 0 0) = ⟨0, 0, 0, 0, 0, 0⟩ ∧ (fi 3 0 15).imm.toNat < 16 ∧
    6 ∈ [1, 2, 3, 4, 5, 6] ∧ 0x15 ∈ [0x11, 0x12, 0x13, 0x14, 0x15] ∧ (live.sc (cluKey clu)).priv = true :=
  ⟨witness_fetches, by decide +kernel⟩

theorem witness_BranchesAndJumps : Fetches live (cluKey clu) ∧ (((live.sc 0).getX 1) + BitVec.ofInt 64 (8 : BitVec 32).toInt).toNat % 8 = 0 ∧
    (15 : BitVec 32).toNat < 16 := ⟨witness_fetches, by decide +kernel⟩
theorem witness_BranchesAndJumps_retx : Fetches (live.setSc 0 { up := true, pc := 0x1000, inSH := true }) 0 ∧
    Fetches (live.setSc 0 { up := true, pc := 0x1000, inVH := true }) 0 := by unfold Fetches; decide +kernel

theorem witness_LocalMemory : Fetches live (cluKey clu) ∧ (fm 0x1FFFF8 false).rsv = 0 ∧
    let ea := ((live.sc 0).getX 0 + BitVec.ofInt 64 (0x1FFFF8 : BitVec 32).toInt).toNat
    ea % 8 = 0 ∧ ea % 4 = 0 ∧ ea % 2 = 0 ∧ ea < 0x200000 ∧ (live.sc 0).priv = true ∧ (fm 0 false).rd.toNat < 16 ∧
    (((fetched live 0).readScr (coreOf 0 4) ea 8 2).2 = true ∧ ((fetched live 0).readScr (coreOf 0 4) ea 4 2).2 = true ∧
      ((fetched live 0).readScr (coreOf 0 4) ea 2 2).2 = true ∧ ((fetched live 0).readScr (coreOf 0 4) ea 1 2).2 = true) :=
  ⟨witness_fetches, by decide +kernel⟩

theorem witness_MemoryTraps : Fetches live (cluKey clu) ∧ (BitVec.ofInt 64 (0x1FFFFC : BitVec 32).toInt).toNat % 8 ≠ 0 ∧
    (BitVec.ofInt 64 (0x200000 : BitVec 32).toInt).toNat % 8 = 0 ∧ 0x200000 ≤ (BitVec.ofInt 64 (0x200000 : BitVec 32).toInt).toNat ∧
    (live.sc 0).inSH = false ∧ Fetches liveVat (cluKey clu) ∧ (liveVat.sc 0).priv = false ∧ pail63At 4 ≤ (0x1F0000 : Word).toNat :=
  ⟨witness_fetches, by decide +kernel, by decide +kernel, by decide +kernel, by decide +kernel, witness_fetches_priv, by decide +kernel,
    by decide +kernel⟩

/-- `live` with x1 = the address of the first byte of T1. -/
def liveT1 : State := live.setSc 0 (({ up := true, pc := 0x1000 } : SCore).setX 1 (w64 (2 ^ 52)))
theorem witness_RemoteMemory : Fetches liveT1 (cluKey clu) := by unfold Fetches; decide +kernel
theorem witness_RemoteMemory_resolve : ∀ st : Bool, (w64 (2 ^ 52)).toNat % 8 = 0 ∧
    (fetched liveT1 0).resolve ((fetched liveT1 0).vatIdOf 0) true (w64 (2 ^ 52)).toNat 8 st = some (0, .t1 0) ∧
    (fetched liveT1 0).injHeld 0 3 0 = false ∧ ((fetched liveT1 0).destOf (2 ^ 52 + 2 ^ 63)).2 = 0 ∧
    (let a : RemAcc := { op := if st then opStore else opLoad, redop := 0, data := 0, dst := streamOf 0 (.t1 0) 0 true, seq := 0
                         addr := w64 (2 ^ 52), isLoad := !st, rd := 3, size := 8, signed := false, fp := false, priv := true
                         since := some 0 }
     (fetched liveT1 0).mayEnter 0 ((fetched liveT1 0).smemPkt 0 a) = true) := by decide +kernel

theorem witness_PailsAndEngine : Fetches live (cluKey clu) ∧ (fp 1).slot.toNat ≤ 4 ∧ (fetched live 0).pailStalls 0 1 = false ∧
    pailRangeBad 0 true ((fetched live 0).pail 0 1) (pailOf 1 0) = false ∧ pailFormatWrong 1 (pailOf 1 0) = false ∧
    ((fetched live 0).mse 0).length < 2 := ⟨witness_fetches, by decide +kernel⟩
theorem witness_PailsAndEngine_ops : mseRangeCause (fetched live 0) 0 true [(0, 0x9FFFF8, true)] 8 = 0 ∧
    mseRangeCause (fetched live 0) 0 true [(0, 64, true), (0, 0, false)] 64 = 0 ∧ 0 + 64 ≤ 64 ∧
    (live.setMse 0 [⟨false, 0, 0, 0, 0, 0, 8, 1, 0, false, true⟩]).mse 0 = [⟨false, 0, 0, 0, 0, 0, 8, 1, 0, false, true⟩] ∧
    live.dieOn 0 0 = true ∧ (live.wr Reg.SCR_CTL_SCRUB_EN 0 1).rd Reg.SCR_CTL_SCRUB_EN 0 = 1 ∧
    (State.cmp { live with cmp := { live.cmp with wback := [scrKey 0 0 / 8 + 5] } }).wback.contains (scrKey 0 0 / 8 + (5 : BitVec 21).toNat) = true := by
  decide +kernel

theorem witness_FabricOperations : Fetches live (cluKey clu) ∧
    ((List.range 16).find? fun i => ((fetched live 0).fops 0).all fun o => o.opid != i) = some 0 ∧ (fetched live 0).fops 0 = [] ∧
    (live.sc 0).accs = [] := ⟨witness_fetches, by decide +kernel⟩

theorem witness_FabricOperations_start : (fetched live 0).fopAddrOk 0 .put true 0 0 16777216 = false ∧
    (fetched live 0).fopAddrOk 0 .put true 0 0 8 = true ∧ (fetched live 0).fopAddrOk 0 .get true 0 0 0x900000 = true ∧
    (fetched withVat 0).fopAddrOk 0 .churn true 0 0 0x900000 = true ∧ (fetched withVat 0).churnOk 0 true (2 ^ 23) = true ∧
    (fetched live 0).routeOk 0 0 0 0 = true := by decide +kernel

/-- A vat-class operation of one packet, all acknowledged. -/
def fopDone : FOp := ⟨0, 0, .put, 0, 0, 8, 0, none, 0, true, 0, true, 1, 1, [0], [], 0, some 0, [], none⟩
theorem witness_FabricOperations_end : (((live.setFops 0 [fopDone]).fops 0).find? fun o => o.opid == (0 : BitVec 4).toNat) = some fopDone ∧
    fopDone.sent = fopDone.total ∧ fopDone.acked.length = fopDone.total ∧
    live.rd Reg.DYN_TMO_OP_TIMEOUT 0 * 900 ≤ fopDone.ran + (({ live with now := 90000000 } : State).now - 0) := by decide +kernel

theorem witness_ServiceFabric : Fetches live (cluKey clu) ∧ (live.sc 0).priv = true ∧ ff.rsv = 0 ∧ ff.route = 0 ∧ ff.rs1 = 0 ∧ ff.rs2 = 0 ∧
    ff.rs3 = 0 ∧ ff.sigCtr = 0 ∧ ff.sigEn = false := ⟨witness_fetches, by decide +kernel⟩

/-- A T1 that holds an image of no records for vat 1, beside an S-core at service privilege. -/
def withImage : State := withVat.stBytes (t1Key 0) [17]
theorem witness_ServiceFabric_sload : ((fetched withImage 0).sload 0 (2 ^ 63 + 2 ^ 52)).2 = 0 := by decide +kernel
theorem witness_ServiceFabric_fetches : Fetches withImage 0 := by unfold Fetches; decide +kernel

/-- A LOAD of class 0 that stands at tile (0, 0), sent at time 0. -/
def pkt : Pkt := { blankPkt with pid := 5, op := opLoad, len := 8, seq := 1, from_ := 0 }
def withPkt (p : Pkt) : State := { live with now := 100000, fab := { live.fab with net := [p] } }
theorem witness_ServiceFabric_epoch : let s : State := { live with fab := { live.fab with epochBusy := true } }
    let t : State := ({ withPkt pkt with fab := { (withPkt pkt).fab with epochBusy := true } }).wr Reg.DYN_CTL_INJ_PAUSE 0 1
    s.fab.epochBusy = true ∧ s.pausedPkts = [] ∧ t.fab.epochBusy = true ∧ t.pausedPkts ≠ [] ∧ t.fab.pauseAt + 45000 ≤ t.now := by
  decide +kernel

def image : Image := { vat := 1, st := .staged, armAt := some 0, bank := 1, own := [], inj := [] }
theorem witness_ServiceFabric_arm : (live.setImages [image]).clk.started = true ∧ (live.setImages [image]).sch.images = [image] ∧
    image.st = .staged ∧ image.armAt = some (live.setImages [image]).frameNo := by decide +kernel

theorem witness_FlagsAndSteps : Fetches withVat (cluKey clu) ∧ (fetched withVat 0).vatAtLevel 0 ((fi 0 0 0).imm.toNat / 2 ^ 40) = some 1 ∧
    (withVat.sc 0).accs = [] ∧ (fi 0 0 1).imm.toNat % 2 ^ 40 < 2 ∧
    ((fetched withVat 0).arrive 0 1 false).2 = mget 0 ((fetched withVat 0).arrive 0 1 false).1.ren.bars 1 :=
  ⟨witness_fetches_vat, by decide +kernel⟩

/-- A vat of one cluster with a claim of 1 mJ. -/
def one : State := ({ live with vats := [{ vat with clus := [0] }] }).wr Reg.LG_VAT_CLAIM 0 1 1
theorem witness_FlagsAndSteps_step : (fetched one 0).rd Reg.LG_VAT_CLAIM 0 1 ≠ 0 ∧
    ((fetched one 0).arrive 0 1 true).2 = mget 0 ((fetched one 0).arrive 0 1 true).1.ren.stepGen 1 ∧
    1 * 1000 ≤ (fetched one 0).pwr.budget ∧ (((fetched one 0).vat? ((fetched one 0).vatIdOf 0)).map Vat.parent).getD 0 = 0 ∧
    (fi 0 0 3).imm.toNat ≤ 3 := by decide +kernel
theorem witness_FlagsAndSteps_fetches : Fetches one 0 := by unfold Fetches; decide +kernel
theorem witness_FlagsAndSteps_barrier : let s := (one.arrive 0 1 false).1
    s.vat? (1 : BitVec 8).toNat = some { vat with clus := [0] } ∧ vat.run ≠ .held ∧ s.allArrived 1 false = true ∧
      s.allArrived 1 true = false ∧ (s.passBarrier 1).allArrived 1 true = false ∧ s.led? 1 = some { vat with clus := [0] } := by
  decide +kernel

def exc (cause : Nat) (priv : Bool) : Exc := { cause := cause, src := 0, ord := 0, sigCtr := 0, tag := 7, priv := priv, addr := 0 }
/-- Exceptions that each of the three entries takes: a Vat cause to the vat's handler, one in that handler, and a Service
cause. -/
theorem witness_Exceptions : ∀ c ∈ ([{ up := true, excs := [exc cAlign false], vtvec := 0x2000 },
      { up := true, excs := [{ exc cAlign false with src := 4 }], inVH := true }, { up := true, excs := [exc cSvc true] }] : List SCore),
    c.up = true ∧ c.held = false ∧ c.spilled = false ∧ c.stopped = false ∧ c.wait ≠ some .load ∧ c.wait ≠ some .start ∧ c.inSH = false ∧
      c.nextExc.isSome = true := by decide +kernel
theorem witness_Exceptions_kinds : svcCause cAlign = false ∧ svcCause cSvc = true ∧ svcCause cDouble = true ∧
    (live.sc 0).inSH = false ∧ (0xFFFF : BitVec 42).toNat < 2 ^ 16 ∧ (0xFFFF : BitVec 42).toNat ≠ 0x0100 ∧ (live.sc 0).priv = true ∧
    (live.sc 0).getX 1 = 0 ∧ (fetched live 0).coreOk 0 true 0 0 = true ∧ 0 = (fetched live 0).ownMod ∧
    (fetched live 0).physCore true 0 = some 0 ∧ (liveVat.sc 0).priv = false := by decide +kernel

theorem witness_WaitsAndSpill : (∀ c ∈ ([{ up := true, wait := some (.ctr 0 0) }, { up := true, wait := some (.ctr 0 5), deadline := some 0 },
      { up := true, spillReq := true }, { up := true, spilled := true }] : List SCore), c.up = true ∧ c.stopped = false ∧ c.held = false) ∧
    (live.rd Reg.CTR_VALUE 0 0 + 2 ^ 32 - 0 % 2 ^ 32) % 2 ^ 32 < 2 ^ 31 ∧ 0 ≤ live.now := by decide +kernel

/-- A spilled S-core whose record in pail 63 is whole: all zero, with the check words of its two parts. -/
def spilledCore : State :=
  let a := scrKey (coreOf 0 4) (pail63At 4)
  let s := live.setSc 0 { up := true, spilled := true }
  let s := s.stBytes (a + 0x1F8) (toBytes (leBytes 8 (crc32c (List.replicate 0x1F8 0) + 2 ^ 32)))
  s.stBytes (a + 0x278) (toBytes (leBytes 4 (crc32c (List.replicate 0x78 0))))
set_option maxRecDepth 100000 in
theorem witness_WaitsAndSpill_resume : let s := spilledCore; let a := scrKey (coreOf 0 4) (pail63At 4)
    (s.sc 0).spilled = true ∧ (s.sc 0).up = true ∧ s.vatFrozen (s.vatIdOf 0) = false ∧ (s.readScr (coreOf 0 4) (pail63At 4) 0x280 2).2 = true ∧
    s.ld (a + 0x1F8) 8 = crc32c (ofBytes (s.ldBytes a 0x1F8)) + 2 ^ 32 ∧
    s.ld (a + 0x278) 4 = crc32c (ofBytes (s.ldBytes (a + 0x200) 0x78)) := by decide +kernel

/-! ### Witnesses: queues and engines -/

def entry (isM : Bool) (op : Nat) (st : QSt) : QEntry :=
  { isM := isM, op := op, pail := 0, off := 0, tag := 7, wait := 0, sig := 16, priv := true, st := st }
def withEntry (q : Nat) (e : QEntry) : State := live.setQue q [e]

theorem witness_CommandQueues : Fetches live (cluKey clu) ∧ (mOps.contains (1 : BitVec 8).toNat) = true ∧ (vOps.contains (0x4A : BitVec 8).toNat) = true ∧
    isSig true 1 = false ∧ true = decide ((1 : BitVec 2).toNat < 2) ∧ false = decide ((2 : BitVec 2).toNat < 2) ∧
    (0 + ((live.sc 0).getX 0).toNat) % 64 = 0 ∧ ((fetched live 0).que 0).length < 32 ∧ (live.sc 0).fullStall = false ∧
    32 ≤ ((live.setQue 0 (List.replicate 32 (entry true 2 .waiting))).que 0).length := ⟨witness_fetches, by decide +kernel⟩
theorem witness_CommandQueues_heads : (withEntry 0 (entry true 2 .waiting)).que 0 = entry true 2 .waiting :: [] ∧
    (withEntry 0 (entry true 2 .waiting)).mayDispatch (coreOf 0 0) = true ∧
    (withEntry 0 (entry true 2 .waiting)).waitMet 0 (entry true 2 .waiting) = true ∧
    (withEntry 0 (entry true 3 .running)).coreUp (coreOf 0 0) = true ∧ (withEntry 2 (entry false 1 .running)).coreUp (coreOf 0 2) = true ∧
    (entry true 1 (.failed 4)).st = .failed 4 ∧ live.headFailed 0 = false ∧ (entry true 1 .running).st ≠ .interrupted := by decide +kernel

theorem witness_CompletionAndFailure : (withEntry 2 (entry false 1 (.ended 0))).que 2 = entry false 1 (.ended 0) :: [] ∧
    (entry false 1 (.ended 0)).sig.getLsbD 4 = true ∧ ({ entry true 1 (.ended 0) with sig := 0 } : QEntry).sig.getLsbD 4 = false ∧
    (withEntry 0 (entry true 1 (.ended 4))).que 0 = entry true 1 (.ended 4) :: [] ∧ 4 ≠ 0 ∧ ((withEntry 0 (entry true 1 (.ended 4))).sc 0).up = true := by
  decide +kernel

/-- Words at a scratch offset. -/
def putWords (s : State) (core off : Nat) (ws : List Nat) : State :=
  s.stBytes (scrKey core off) (toBytes (ws.flatMap (leBytes 8)))
/-- A version-2 M.MMA of FP32 with M = N = K = 1 (Table 5.7), A at 0x1000, B at 0x2000, OUT at 0x3000 of pail 0. -/
def mmaWords : List Nat := [2 + 2 ^ 13 + 2 ^ 18 + 2 ^ 23, 0, 0x1000 * 64, 0, 0x2000 * 64, 0, 0x3000 * 64, 0, 0, 0, 0, 0, 0, 0, 0, 0]
def mma : State := putWords (withEntry 0 (entry true 1 .running)) 0 0 mmaWords
theorem witness_MatrixFolds : let s := mma; let e := entry true 1 .running
    s.running 0 0 true 1 = some e ∧ (s.core 0).spillReq = none ∧ (s.core 0).run = none ∧ (s.readDesc 0 e).2 = 0 ∧
      let t := (s.readDesc 0 e).1
      let d := t.descWords 0 e
      (t.mChecks 0 e d).1 = 0 ∧ mTwin d = false ∧ (t.prepass 0 d).2.1 = 0 ∧
        (let u := putWords mma 0 0 (mmaWords.set 0 (2 + 2 ^ 6 + 2 ^ 13 + 2 ^ 18 + 2 ^ 23))
         mTwin (u.descWords 0 e) = true ∧ (u.mChecks 0 e (u.descWords 0 e)).1 = 0 ∧ u.twinFree 0 = true ∧
           ((u.setCore 1 { u.core 1 with twin := true }).prepass 0 (u.descWords 0 e)).2.1 = 0) ∧
        ((t.prepass 0 d).1.doFold 0 d (t.prepass 0 d).2.2).2.any (fun r => decide (mFolds d ≤ r.fold)) = true := by decide +kernel

/-- The same, its pre-pass done. -/
def mRun : MRun := { desc := mmaWords.map w64, prepass := true }
def folding : State := mma.setCore 0 { run := some mRun }
theorem witness_MatrixFolds_folds : folding.running 0 0 true 1 = some (entry true 1 .running) ∧ (folding.core 0).spillReq = none ∧
    (folding.core 0).run = some mRun ∧ mRun.prepass = true ∧ folding.hasMarks 0 = false ∧ folding.rd Reg.SCR_CTL_INJECT 0 = 0 ∧
    mRun.fold + 0 < mFolds (mRun.desc.map BitVec.toNat) ∧ mFolds (mRun.desc.map BitVec.toNat) ≤ mRun.fold + 1 ∧
    (folding.doFold 0 (mRun.desc.map BitVec.toNat) mRun).2.any (fun r => decide (mFolds (mRun.desc.map BitVec.toNat) ≤ r.fold)) = true := by
  decide +kernel

theorem witness_CoreStops_more : ((live.setCore 1 { twin := true }).core (coreOf 0 1)).twin = true ∧
    ((folding.setCore 0 { run := some mRun, spillReq := some .preempt }).core 0).spillReq.isSome = true ∧
    (folding.setCore 0 { run := some mRun, spillReq := some .preempt }).que 0 = entry true 1 .running :: [] ∧
    ((withEntry 2 (entry false 0x10 .running)).setCore 2 { spillReq := some .preempt }).que 2 = entry false 0x10 .running :: [] ∧
    (let s := putWords (withEntry 0 (entry true 1 .interrupted)) 0 0 mmaWords
     s.que 0 = entry true 1 .interrupted :: [] ∧ s.mayDispatch 0 = true ∧ (s.readDesc 0 (entry true 1 .interrupted)).2 = 0) ∧
    ({ entry true 1 .running with fails := 1 } : QEntry).fails ≠ 0 := by decide +kernel

theorem witness_CoreStops : (live.core (coreOf 0 1)).twin = false ∧ (live.core 0).spilled = false ∧ (live.core 0).spillReq = none ∧
    ((live.setCore 0 { live.core 0 with spillReq := some .preempt }).core 0).spillReq.isSome = true ∧ live.que 0 = [] ∧
    isSig false 0x10 = false ∧ 0x10 ≠ 0x49 ∧ (withEntry 2 (entry false 0x10 .interrupted)).mayDispatch 2 = true ∧
    (mma.setCore 0 { mma.core 0 with run := some { desc := [] } }).coreUp 0 = true ∧
    (mma.wr Reg.MCHK_CTL_AUTO_RESTART 0 1).rd Reg.MCHK_CTL_AUTO_RESTART 0 = 1 ∧ (entry true 1 .running).fails = 0 := by decide +kernel

/-- Descriptors of one row of eight elements (Table 5.8), for each V-class opcode: slot n at 0x1000 × (n + 1) of pail 0, in the
formats listed. -/
def vWords (op : Nat) (fmts : List Nat) : List Nat :=
  [2, 7 * 2 ^ 20, if op = 0x48 ∨ op = 0x49 then 2 ^ 32 else 0] ++
    (fmts.zipIdx.map fun x => if x.1 = 0 then 0 else 0x1000 * (x.2 + 1) * 64 + x.1 * 2 ^ 54) ++ List.replicate (13 - fmts.length) 0
def vFormats : List (Nat × List Nat) :=
  [(0x10, [1, 1, 0, 1]), (0x11, [1, 1, 0, 1]), (0x12, [2, 2, 0, 2]), (0x13, [7, 7, 0, 7]), (0x14, [1, 1, 0, 1]), (0x15, [1, 1, 1, 1]),
   (0x16, [1, 1, 0, 6]), (0x17, [7, 7, 0, 7]), (0x18, [6, 6, 0, 6]), (0x19, [7, 7, 0, 7]), (0x1A, [7, 7, 0, 7]), (0x1B, [7, 7, 0, 7]),
   (0x20, [1, 0, 0, 2]), (0x28, [1, 0, 0, 1]), (0x29, [1, 0, 0, 1]), (0x2A, [1, 0, 0, 1]), (0x2B, [1, 0, 0, 1]), (0x30, [1, 0, 0, 1]),
   (0x31, [1, 0, 0, 1]), (0x32, [1, 0, 0, 1]), (0x38, [1, 1, 1, 1, 1, 1, 1]), (0x39, [1, 1, 1, 1]), (0x3A, [1, 1, 0, 1]),
   (0x40, [1, 7, 0x11, 1]), (0x48, [1, 7, 0, 1]), (0x49, [1, 7, 0, 1]), (0x4A, [1, 0, 0, 1, 7])]
def vState (op : Nat) (fmts : List Nat) : State := putWords (withEntry 2 (entry false op .running)) 2 0 (vWords op fmts)
theorem witness_VectorCommands : vMeaning.map (fun p => p.2.1) = vFormats.map Prod.fst ∧ ∀ x ∈ vFormats,
    let s := vState x.1 x.2; let e := entry false x.1 .running; let t := (s.readDesc 2 e).1; let d := t.descWords 2 e
    s.running 0 2 false x.1 = some e ∧ (s.readDesc 2 e).2 = 0 ∧ (t.vChecks 2 e d).1 = 0 ∧
      (t.vReads 2 x.1 d (preSlot x.1 d)).2 = true ∧ (t.vReads 2 x.1 d (preSlot x.1 d)).1.vPrescan 2 x.1 d = 0 ∧
      ((t.vReads 2 x.1 d (preSlot x.1 d)).1.vReads 2 x.1 d fun i => !preSlot x.1 d i).2 = true ∧
      s.hasMarks 2 = false ∧ t.vPrescan 2 x.1 d = 0 := by decide +kernel

/-- The same V.ADD with a double error in its first operand's first word. -/
def vEcc : State :=
  let s := vState 0x10 [1, 1, 0, 1]
  { s with cmp := { s.cmp with ecc := [(scrKey 2 0x1000 / 8, 2)] } }
theorem witness_VectorCommands_ecc : (vEcc.que 2).head? = some (entry false 0x10 .running) ∧ isSig false 0x10 = false ∧ vEcc.coreUp 2 = true ∧
    vEcc.descOk 2 (entry false 0x10 .running) = true ∧ (vEcc.vChecks 2 (entry false 0x10 .running) (vEcc.descWords 2 (entry false 0x10 .running))).1 = 0 ∧
    (let d := vEcc.descWords 2 (entry false 0x10 .running)
     let x := vEcc.vReads 2 0x10 d (preSlot 0x10 d)
     x.2 = true ∧ (x.1.vReads 2 0x10 d fun i => !preSlot 0x10 d i).2 = false) := by decide +kernel

/-- A ROPE with a double error in its first position. -/
def ropeEcc : State :=
  let s := vState 0x40 [1, 7, 0x11, 1]
  { s with cmp := { s.cmp with ecc := [(scrKey 2 0x2000 / 8, 2)] } }
theorem witness_VectorCommands_prescan : ropeEcc.descOk 2 (entry false 0x40 .running) = true ∧
    (ropeEcc.vChecks 2 (entry false 0x40 .running) (ropeEcc.descWords 2 (entry false 0x40 .running))).1 = 0 ∧
    (let d := ropeEcc.descWords 2 (entry false 0x40 .running)
     (ropeEcc.vReads 2 0x40 d (preSlot 0x40 d)).2 = false) := by decide +kernel
/-! ### Witnesses: tiers, the scheduled plane, packets -/

/-- Writes register fields: field, instance, index, value. -/
def sets (s : State) (l : List (Fld × Nat × Nat × Nat)) : State := l.foldl (fun s x => s.wr x.1 x.2.1 x.2.2.2 x.2.2.1) s

/-- Ring 1 of tile mover 0 of tile (0, 0), in pail 0 of the S-core of cluster 0, with one entry (all zero) to do. -/
def ringed : State :=
  sets live [(Reg.MV_BIND_ENABLE, 0, 1, 1), (Reg.MV_BIND_SVC, 0, 1, 1), (Reg.MV_BIND_CLUSTER, 0, 1, 0), (Reg.CTR_VALUE, 0, 0, 1)]

/-- Descriptors of one row of 64 RAW bytes in T1, the record at 0x1000 of pail 0 of the ring's S-core: COPY, TRANSPOSE, KV_READ,
KV_WRITE and ZERO; the KV page table stands at 0x180000 and names page 3. -/
def mvWords (op : Nat) : List Nat :=
  let a (x : Nat) : Nat := 2 ^ 63 + 2 ^ 52 + x
  [1 + op * 16, if op = 4 then 0 else if op = 2 then a 0x180000 else a 0, if op = 3 then a 0x180000 else a 0x18000, 63 * 2 ^ 20, 64 + 64 * 2 ^ 32,
    if op = 2 ∨ op = 3 then 6 * 2 ^ 48 else 0, 0, 0x1000 * 64]
def tabled : State := ringed.stBytes (t1Key 0x180000) (toBytes (leBytes 8 (2 ^ 52 + 3 * 2 ^ 21 + 1)))
def mvRunOf (op cause : Nat) (bad moved : Bool) : MvRun := ⟨1, (mvWords op).map w64, cause, 0, bad, moved⟩

theorem witness_TierMovers_start :
    let s := ringed
    s.mvRun? 0 = none ∧ s.pwr.lossAt = none ∧ (s.nextRing 0 ((List.range 4).map fun i => (s.rd Reg.MV_STATUS_RING 0 + 1 + i) % 4)).2 =
      some 1 ∧
    (
    let w := ((s.nextRing 0 ((List.range 4).map fun i => (s.rd Reg.MV_STATUS_RING 0 + 1 + i) % 4)).1.wr Reg.MV_STATUS_RING 0 1).wr
        Reg.MV_STATUS_BUSY 0 1
    w.ringClu 0 1 = some 0 ∧ (w.pail (coreOf 0 4) (w.rd Reg.MV_BIND_RING_PAIL 0 1)).usable true false = true ∧ (w.pail (coreOf 0 4)
        0).view = 0 ∧ w.rd Reg.MV_CONSUMED_CONSUMED 0 1 % w.ringSize 0 1 * 64 + 64 ≤ (w.pail (coreOf 0 4) 0).size ∧ (w.readScr (coreOf 0
        4) 0 64 4).2 = true) := by decide +kernel

set_option synthInstance.maxSize 2000 in
theorem witness_TierMovers_moves :
    ∀ op ∈ [0, 1, 2, 3, 4],
    let s := tabled.setMv 0 (mvRunOf op 0 false false)
    s.mvRun? 0 = some (mvRunOf op 0 false false) ∧ s.ringClu 0 1 = some 0 ∧ (s.mvCheck 0 (s.rd Reg.MV_BIND_VAT 0 1) (s.rd Reg.MV_BIND_SVC
        0 1 == 1) (mvWords op)).2.1 = 0 ∧ mvOp (mvWords op) = op ∧ (mvKv (mvWords op) || !mvUses (mvWords op) 5) = true ∧ (
    let y := s.mvCheck 0 0 true (mvWords op)
    let x := if op = 4 then (y.1, List.replicate (mvRows (mvWords op)) (List.replicate (mvBytes (mvWords op)) (0 : Byte)), 0) else
        y.1.mvReadRows 0 y.2.2 (mvWords op) (mvRows (mvWords op)) 0
    x.2.2 = 0 ∧ x.1.mvWriteStop 0 (mvWrites y.2.2 (mvWords op) [] x.2.1).1 = 0) := by decide +kernel

theorem witness_TierMovers_end :
    ∀ bad : Bool, (tabled.setMv 0 (mvRunOf 0 0 bad true)).mvRun? 0 = some (mvRunOf 0 0 bad true) ∧ (tabled.setMv 0 (mvRunOf 0 0 bad
      true)).ringClu 0 1 = some 0 := by decide +kernel

/-- A read of T3 port 0 at its host tile since time 0. -/
def t3pkt : Pkt := { blankPkt with pid := 5, cls := 3, op := opLoad, len := 8, daddr := w64 (2 ^ 63 + 3 * 2 ^ 52), at_ := 31, dtile := 31 }

theorem witness_TierRegisters :
    (1 : BitVec 8) ≠ 0 ∧ (sets live [(Reg.T3_STATUS_LINK_UP, 7, 0, 1)]).rd Reg.T3_STATUS_LINK_UP 7 = 1 ∧ (withPkt t3pkt).pkt? 5 = some
      t3pkt ∧ (withPkt t3pkt).t3Read t3pkt 0 = true ∧ (withPkt t3pkt).rd Reg.T3_STATUS_LINK_UP 0 ≠ 1 ∧ t3pkt.sentAt + 45000 ≤ (withPkt
      t3pkt).now := by decide +kernel

theorem witness_TierRegisters_inbound :
    let s := sets live [(Reg.T3_STATUS_LINK_UP, 0, 0, 1), (Reg.T3_IN_BASE_IN_BASE, 0, 0, 0x1000), (Reg.T3_IN_LIMIT_IN_LIMIT, 0, 0,
        0x1FFF), (Reg.T3_IN_TARGET_IN_TARGET, 0, 0, 2 ^ 52)]
    let t : State := { s with tier := { s.tier with t3nvme := [0] } }
    t.rd Reg.T3_STATUS_LINK_UP 0 = 1 ∧ t.tier.t3nvme.contains 0 = true ∧ t.rd Reg.T3_IN_BASE_IN_BASE 0 ≤ (0x1FFF : Word).toNat ∧ (0x1FFF :
      Word).toNat + ([7] : List Byte).length - 1 ≤ t.rd Reg.T3_IN_LIMIT_IN_LIMIT 0 ∧ t.rd Reg.T3_IN_TARGET_IN_TARGET 0 + (0x1FFF - 0x1000)
      = 2 ^ 52 + 0xFFF ∧ 0xFFF + 1 ≤ t1Cap ∧ t.tgtOk 0 true t.ownMod (.t1 0xFFF) 1 true = true := by decide +kernel

/-- Slot 1 of frame 0, vat 1 with an armed schedule. -/
def sched : State :=
  { withVat with sch := { withVat.sch with slots := 1, images := [{ image with st := ImgSt.armed }] } }
def arrival (bad : Bool) : Arrival := ⟨0, 0, 0, 0, 0, ⟨1, 0, 1, 0, true, 3, 0, 1, [1, 2, 3, 4, 5, 6, 7, 8], bad, false, 0⟩⟩
/-- Its arrival at core slot 0 of cluster 0, whose pail 1 covers 4 KiB. -/
def arriving : State :=
  let s := (sets sched [(Reg.PAIL_W0_VALID, 0, 1, 1)]).stBytes 0 (arrival false).x.payload
  { s with sch := { s.sch with arrivals := [arrival false] } }

theorem witness_ScheduledTransfers_injection :
    sched.schedRuns = true ∧ sched.rd Reg.INJ_STATUS_STOPPED (coreKey (core 0)) = 0 ∧ sched.injActive (coreKey (core 0)) = true ∧
      sched.fenced (coreKey (core 0)) = false ∧ sched.dieOn 0 0 = true ∧ sched.lsite 0 0 ≠ 7 ∧ sched.vlnk 0 = true := by decide +kernel

theorem witness_ScheduledTransfers_delivery :
    let s := arriving
    let a := arrival false
    let u : State := { s with sch := { s.sch with arrivals := [] } }
    s.sch.arrivals = [a] ∧ a.x.bad = false ∧ a.x.torn = false ∧ s.ldBytes a.x.from_ a.x.payload.length = a.x.payload ∧ u.arrDrop a = none
      ∧ u.arrCore a = some 0 ∧ a.x.taken (flipBits a.x.wire (wireBits [0] [] [0])) = none ∧ (a.x.taken (flipBits a.x.wire (wireBits [] [0]
      []))).map Prod.snd = some false ∧ (u.pail 0 1).valid = true ∧ (u.pail 0 1).ro = false ∧ (u.pail 0 1).svc = false ∧ a.x.dstOff +
      a.x.payload.length ≤ (u.pail 0 1).size := by decide +kernel

/-- A repair that waits since slot 1, and a packet that answers it. -/
def repairing (p : Pkt) : State := { withPkt p with vats := [vat], sch := { sched.sch with slots := 65, repairs := [⟨9, arrival false, []⟩] } }
def repairPkt (op : Nat) : Pkt := { blankPkt with pid := 5, cls := 3, op := op, owner := .repair 9, len := 8 }

theorem witness_ScheduledTransfers_repair :
    let r : Repair := ⟨9, arrival false, []⟩
    ∀ op ∈ [opRepairLate, opRepairData, opRepairReq],
    let p := repairPkt op
    let s := repairing p
    let q := (s.down p 0).2.getD blankPkt
    let v := (s.down p 0).1.dropPkt 5
    let w := v.reply q q.at_ (some 0) opAck 0 []
    (s.sch.repairs.find? fun r => r.rid == 9) = some r ∧ r.a.x.injAt + 64 ≤ s.sch.slots ∧ s.pkt? 5 = some p ∧ s.arrived p = true ∧
        s.inOrder p = true ∧ p.held = false ∧ p.headerOk = true ∧ s.judgeCore p (p.daddr.toNat / 2 ^ 30 % 2 ^ 14) (fun _ => true) = (.go,
        0) ∧ s.downOpen p 0 = true ∧ (s.down p 0).2.isSome = true ∧ v.repair? q = some r ∧ w.repair? q = some r ∧ w.arrDrop r.a = none ∧
        w.sch.slots ≤ r.a.x.injAt + 64 := by decide +kernel

/-- A service packet at tile (0, 0) for T1 offset 0. -/
def reqPkt (op : Nat) (payload : List Byte) : Pkt :=
  { blankPkt with pid := 5, cls := 3, op := op, len := 8, payload := payload, daddr := w64 (2 ^ 63 + 2 ^ 52) }
def eight : List Byte := [1, 2, 3, 4, 5, 6, 7, 8]

set_option synthInstance.maxSize 2000 in
theorem witness_Requests :
    ∀ x ∈ ([(opWrite, eight), (opStore, eight), (opReadReq, eight ++ [64, 0]), (opLoad, []), (opAmo, eight)] : List (Nat × List Byte)),
    let p := reqPkt x.1 x.2
    let s := withPkt p
    s.pkt? 5 = some p ∧ s.arrived p = true ∧ s.inOrder p = true ∧ p.held = false ∧ p.headerOk = true ∧ p.op = x.1 ∧ p.numbered = none ∧
        s.judge p p.daddr.toNat p.payload.length true = (.go, .mem (.t1 0)) ∧ s.judge p p.daddr.toNat 64 false = (.go, .mem (.t1 0)) ∧
        s.judge p p.daddr.toNat p.len false = (.go, .mem (.t1 0)) ∧ s.toPlace p .go (.mem (.t1 0)) = (s, some p) ∧ ((s.dropPkt
        5).readPlace (.mem (.t1 0)) 64).2.2 = none := by decide +kernel

theorem witness_Requests_scratch :
    let p : Pkt := { reqPkt opWrite eight with daddr := 0 }
    let s := withPkt p
    s.pkt? 5 = some p ∧ s.arrived p = true ∧ s.judge p p.daddr.toNat p.payload.length true = (.go, .scr 0 0) ∧ (s.toPlace p .go (.scr 0
      0)).2.isSome = true ∧ ({ p with inPort := 64 } : Pkt).ring = true := by decide +kernel

theorem witness_Requests_fenced :
    let p : Pkt := { reqPkt opWrite eight with daddr := 0 }
    let s := (withPkt p).setFence 0
    s.pkt? 5 = some p ∧ s.arrived p = true ∧ s.judge p p.daddr.toNat p.payload.length true = (.fenced, .scr 0 0) ∧ p.numbered = none
  := by decide +kernel

/-- An access of cluster 0 to core 0, with another before it; its packet, and the packet that answers. -/
def acc (seq : Nat) : RemAcc := ⟨opLoad, 0, 0, 0, seq, 0, true, 3, 8, false, false, true, false, false, 0, none⟩
def storePkt : Pkt := { reqPkt opStore eight with daddr := 0, owner := .smem 0, seq := 2, from_ := 0 }
def storing : State := (withPkt storePkt).setSc 0 { up := true, accs := [acc 1, acc 2] }

theorem witness_Requests_early :
    let x := storing.toPlace storePkt .go (.scr 0 0)
    let q := x.2.getD blankPkt
    storing.pkt? 5 = some storePkt ∧ storing.arrived storePkt = true ∧ storing.judge storePkt 0 8 true = (.go, .scr 0 0) ∧ x.2.isSome =
      true ∧ q.numbered = some 0 ∧ x.1.early q 0 = true ∧ (x.1.fab.reorder.filter fun e => e.p.at_ == q.at_).length < 64
  := by decide +kernel

/-- A reply for packet 0 of operation 0 of cluster 0. -/
def ackPkt (op : Nat) : Pkt := { blankPkt with pid := 5, cls := 1, op := op, owner := .fop, len := 8 }
def fopOpen (resent : List Nat) : FOp := { fopDone with acked := [], resent := resent }
def replying (op : Nat) (resent : List Nat) : State := (withPkt (ackPkt op)).setFops 0 [fopOpen resent]

theorem witness_Replies_fop :
    ∀ op ∈ [opAck, opNack, opResend], ∀ r ∈ ([[], [0]] : List (List Nat)),
    let p := ackPkt op
    let s := replying op r
    let x := s.toConsumer p
    let q := x.2.getD blankPkt
    s.pkt? 5 = some p ∧ s.arrived p = true ∧ s.inOrder p = true ∧ p.held = false ∧ p.headerOk = true ∧ p.retryAt = none ∧ x.2.isSome =
        true ∧ q.crcOk = true ∧ q.owner = .fop ∧ q.from_ = 0 ∧ (x.1.dropPkt 5).fopOf q = some (fopOpen r) := by decide +kernel

theorem witness_Replies_lost :
    let p := ackPkt opAck
    let s := withPkt p
    let x := s.toConsumer p
    s.pkt? 5 = some p ∧ s.arrived p = true ∧ x.2.isSome = true ∧ (x.2.getD blankPkt).owner = .fop ∧ (x.1.dropPkt 5).fopOf (x.2.getD
      blankPkt) = none ∧ ({ p with from_ := 2 ^ 20 } : Pkt).clu = none := by decide +kernel

theorem witness_Replies_load :
    let p : Pkt := { ackPkt opLoadResp with owner := .smem 0, seq := 1, payload := eight }
    let s := (withPkt p).setSc 0 { up := true, accs := [acc 1], wait := some .load }
    let x := s.toConsumer p
    let q := x.2.getD blankPkt
    s.pkt? 5 = some p ∧ s.arrived p = true ∧ x.2.isSome = true ∧ q.crcOk = true ∧ q.owner = .smem 0 ∧ (x.1.dropPkt 5).accOf q 0 = some
      (acc 1) ∧ (x.1.dropPkt 5).fab.reorder = [] ∧ ((x.1.dropPkt 5).sc 0).wait = some .load := by decide +kernel

theorem witness_Replies_read :
    let p : Pkt := { ackPkt opReadResp with cls := 3, payload := eight }
    let s := (withPkt p).setFops 0 [fopOpen []]
    let x := s.toPlace p .go (.scr 0 0)
    let q := x.2.getD blankPkt
    s.pkt? 5 = some p ∧ p.headerOk = true ∧ s.judge p p.daddr.toNat p.payload.length true = (.go, .scr 0 0) ∧ x.2.isSome = true ∧ q.owner
      = .fop ∧ q.from_ = 0 ∧ x.1.fopOf q = some (fopOpen []) ∧ 0 = cluOfCore 0 := by decide +kernel

theorem witness_Replies_retry :
    let p : Pkt := { ackPkt opRetry with retryAt := some 0 }
    let s := (withPkt p).setFops 0 [fopOpen []]
    let x := (withPkt (ackPkt opRetry)).toConsumer (ackPkt opRetry)
    s.pkt? 5 = some p ∧ p.owner = .fop ∧ p.retryAt = some 0 ∧ 0 ≤ s.now ∧ (s.dropPkt 5).fopOf p = some (fopOpen []) ∧ (withPkt (ackPkt
      opRetry)).pkt? 5 = some (ackPkt opRetry) ∧ x.2.isSome = true ∧ (x.2.getD blankPkt).owner ≠ .unit := by decide +kernel

/-- `live` with tile (1, 0) on and the link between them up; a packet at tile (0, 0) for tile (1, 0). -/
def linked (p : Pkt) : State := sets (withPkt p) [(Reg.PW_STATUS_VLNK_GOOD, 1, 0, 1), (Reg.LK_STATUS_STATE, 1, 0, 2), (Reg.TILE_ACT_ENTRY, 0, 1, 2)]
def hopPkt (rmode : Bool) : Pkt := { pkt with rmode := rmode, route := 2, dtile := 1 }

theorem witness_PacketHops :
    (∀ b : Bool,
    let p := hopPkt b
    let s := linked p
    s.pkt? 5 = some p ∧ p.free = true ∧ s.nodeFor p = none ∧ s.inOrder p = true ∧ p.headerOk = true ∧ routeFld p.route p.hop = 2 ∧
        s.portUp p.at_ 1 = true ∧ p.dmod = s.ownMod ∧ p.dtile ≠ p.at_ ∧ p.epoch = s.epochAt p.at_ ∧ p.out = none ∧ s.choose p.at_ p.dtile
        p.cls = some 1) ∧
    ({ hopPkt true with hdrOk := false } : Pkt).headerOk = false ∧ ({ hopPkt false with epoch := 1 } : Pkt).epoch ≠ (linked pkt).epochAt 0
  := by decide +kernel

theorem witness_PacketHops_move :
    let p := hopPkt true
    let s := linked p
    neighbour p.at_ 1 = some 1 ∧ s.outOpen p 1 = true ∧ s.turnOf p 1 = true ∧ s.lnk.injNext = [] ∧ p.out = none ∧ p.pid = 5
  := by decide +kernel

theorem witness_PacketHops_host :
    let p : Pkt := { reqPkt opLoad [] with daddr := w64 (2 ^ 63 + 8 * 2 ^ 52) }
    let s : State := { withPkt p with host := { live.host with up := false } }
    s.arrived p = true ∧ p.at_ = 0 ∧ p.op = opLoad ∧ p.daddr.toNat / 2 ^ 63 % 2 = 1 ∧ s.host.up = false ∧ p.sentAt + 45000 ≤ s.now ∧
      decodePa (p.daddr.toNat % 2 ^ 56) = some (.host 0) := by decide +kernel

theorem witness_ChosenOutputIsCloser : (linked pkt).choose 0 1 0 = some 1 := by decide +kernel

/-- A packet with the largest value in most fields. -/
def widePkt : Pkt :=
  { pkt with cls := 3, epoch := 3, hop := 19, vat := 255, route := 2 ^ 60 - 1, daddr := w64 (2 ^ 64 - 1), dmod := 63, dtile := 35,
             src := 2 ^ 20 - 1, seq := 65535, opid := 15, redop := 7, skim := 2 ^ 14 - 1, cause := 255, len := 8, payload := eight }

theorem witness_HeaderRoundTrip :
    let p := widePkt
    let q : Pkt := { p with hop := 31 }
    let r := wirePkt q.header p.payload (trailerOf p.header p.payload)
    r.hop = 31 ∧ r.hdrOk = true ∧ r.crcOk = true ∧ r.route = p.route ∧ r.daddr = p.daddr ∧ r.cause = 255 ∧ r.skim = p.skim ∧ r.payload =
      eight ∧ r.src = p.src := by decide +kernel
/-! ### Witnesses: links, light, the rennet line -/

/-- A link in service, an edge or a die's, of tile (0, 0); a group of it due. -/
def linkOf (l : Fin 11) : State := sets live [(Reg.LK_STATUS_STATE, l.val, 0, 2), (Reg.PW_STATUS_VLNK_GOOD, 1, 0, 1)]
def dueGroup : State := let s := linkOf 4; { s with lnk := { s.lnk with due := [dirKey 0 4 true * 8 + 7] } }

theorem witness_LaneErrors_retired :
    (4 : Fin 11).val ≥ 4 ∧ dueGroup.lnk.due.contains (dirKey 0 4 true * 8 + (7 : BitVec 3).toNat) = true ∧ dueGroup.retiredMask 0 4 true =
      0 ∧ dueGroup.lnk.injBad = [] := by decide +kernel

theorem witness_LaneErrors_prbs :
    let s := linkOf 1
    let key := (dirKey 0 1 true * 8 + 0) * 2048 + 1023
    s.clk.started = true ∧ isWhey s.slotIx = true ∧ s.rd Reg.LK_STATUS_STATE (linkInst 0 1) = 2 ∧ bitOf (s.rd Reg.LK_STATUS_GRP_RETIRED_RX
      (linkInst 0 1)) 0 = false ∧ 1023 < dataLanes 1 ∧ mget 0 s.lnk.injLane key = 0 ∧ (s.laneErrors key (s.rd Reg.LK_CFG_LANE_THRESH 1)
      (s.rd Reg.LK_CFG_WINDOW_LOG2 1) 0).2 = false ∧ (s.laneErrors key (s.rd Reg.LK_CFG_LANE_THRESH 1) (s.rd Reg.LK_CFG_WINDOW_LOG2 1) (2
      ^ 20)).2 = true ∧ (s.lnk.bad ++ s.lnk.injBad).contains key = false ∧ s.freeSpare (dirKey 0 1 true) 0 = some 1024 ∧
    (
    let t : State := { s with lnk := { s.lnk with spares := (List.range 32).map fun i => ((dirKey 0 1 true * 8) * 2048 + i, 1024 + i + 1)
        } }
    t.freeSpare (dirKey 0 1 true) 0 = none) := by decide +kernel

theorem witness_LaneErrors_others :
    let s := sets live [(Reg.LK_STATUS_STATE, linkInst 0 4, 0, 2), (Reg.XP_STATUS_STATE, xpInst 0 1, 0, 2), (Reg.RP_STATUS_STATE, 0, 0,
        2)]
    ({ s with clk := { s.clk with started := false } } : State).clk.started = false ∧ isWhey ({ s with sch := { s.sch with slots := 1 } }
      : State).slotIx = false ∧ s.clk.started = true ∧ isWhey s.slotIx = true ∧ s.rd Reg.LK_STATUS_STATE (linkInst 0 4) = 2 ∧ bitOf
      (s.retiredMask 0 4 false) 0 = false ∧ 0 < groupLanes 4 ∧ mget 0 s.lnk.injLane ((dirKey 0 4 false * 8 + 0) * 2048 + 0) = 0 ∧
      (s.laneErrors ((dirKey 0 4 false * 8 + 0) * 2048) (s.rd Reg.LK_CFG_LANE_THRESH (linkInst 0 4)) (s.rd Reg.LK_CFG_WINDOW_LOG2
      (linkInst 0 4)) 0).2 = false ∧ s.rd Reg.XP_STATUS_STATE (xpInst 0 1) = 2 ∧ s.inTakeover false = false ∧ mget 0 s.lnk.injLane (xpLane
      (xpInst 0 1) 31) = 0 ∧ s.lnk.chanDue.contains (xpInst 0 1 * 32 + 31) = false ∧ s.reachUp 0 = true ∧ mget 0 s.lnk.injLane (reachLane
      0 7) = 0 := by decide +kernel

theorem witness_LaneErrors_control :
    (linkOf 10).rd Reg.LK_STATUS_STATE (linkInst 0 10) = 2 ∧ mget 0 (linkOf 10).lnk.ctlBad (dirKey 0 10 true) = 0 := by decide +kernel

/-- A flit of zeros with its CRC. -/
def zeroFlit : List Byte := List.replicate 252 0

theorem witness_FlitsAndBuffers :
    let s : State := live.setTx (endKey (.link 0 1)) { held := [(1, []), (2, []), (3, [])] }
    s.lnk.injNext = [] ∧ (0 : Nat) = (s.rx (endKey (.link 0 1))).expect ∧ (5 : Nat) ≠ (s.rx (endKey (.link 0 1))).expect ∧ (s.tx (endKey
      (.link 0 1))).holds 2 = true ∧ (s.tx (endKey (.link 0 1))).held = [(1, [])] ++ (2, []) :: [(3, [])] ∧ (∀ x ∈ ([(1, [])] : List (Nat
      × List Byte)), x.1 ≠ 2) ∧ zeroFlit.length = 252 ∧ (BitVec.ofNat 32 (crc32c (ofBytes zeroFlit))).toNat = crc32c (ofBytes zeroFlit) ∧
      (0 : BitVec 32).toNat ≠ crc32c (ofBytes zeroFlit) ∧ (100 : Word).toNat % 2 ^ 17 = 100 ∧ (100000 : Word).toNat % 2 ^ 17 = 100000 ∧
      (99 : Word).toNat % 2 ^ 17 < 100 ∧ 100000 < (100001 : Word).toNat % 2 ^ 17 ∧
    (∀ x ∈ ([(4, 4, 4, 4), (64, 4, 4, 4), (64, 56, 4, 4)] : List (Nat × Nat × Nat × Nat)),
    let v : Word := w64 (x.1 + x.2.1 * 2 ^ 8 + x.2.2.1 * 2 ^ 16 + x.2.2.2 * 2 ^ 24)
    x.1 = v.toNat % 128 ∧ x.2.1 = v.toNat / 2 ^ 8 % 128 ∧ x.2.2.1 = v.toNat / 2 ^ 16 % 128 ∧ x.2.2.2 = v.toNat / 2 ^ 24 % 128 ∧ 4 ≤ x.1 ∧
        x.1 ≤ 64 ∧ x.1 + x.2.1 + x.2.2.1 + x.2.2.2 ≤ 128) ∧
    s.fab.clsOff = [] ∧ (∀ x ∈ [0, 5, 8, 13], x < 6 ∨ (8 ≤ x ∧ x < 14)) := by decide +kernel

/-- Link 1 of tile (0, 0) in training, `n` attempts behind it. -/
def training (n : Nat) : State :=
  let s := sets (linkOf 1) [(Reg.LK_STATUS_STATE, 1, 0, 1), (Reg.BU_STATUS_STATE, 0, 0, 5)]
  { s with lnk := { s.lnk with tries := mset 0 [] 1 n } }

/-- The peer's proposal that mirrors this end's. -/
def peerOf (o : Proposal) : Proposal :=
  let p : Proposal := { o with reset := false, widthTx := o.widthRx, widthRx := o.widthTx, groupsTx := o.groupsRx, groupsRx := o.groupsTx,
                               badTx := o.badRx, badRx := o.badTx }
  { p with crc := BitVec.ofNat 32 (crc32c (propBytes p (groupLanes 1))) }
def ownProp : Proposal := (training 0).proposal 0 1 1 [] true

theorem witness_TrainingAndLight_attempt :
    (training 0).mayTrain 0 1 = true ∧ ({ ownReset := true, ownBad := [], peer := none, flitsOk := false } : TrainIn).peer = none ∧ mget 0
      (training 0).lnk.tries (linkInst 0 1) + 1 < 3 ∧ (training 2).mayTrain 0 1 = true ∧ mget 0 (training 2).lnk.tries (linkInst 0 1) + 1
      = 3 ∧ (1 : Fin 11).val < 4 ∧ (training 2).sch.images = [] ∧ mget 0 (training 0).lnk.tries (linkInst 0 1) + 1 = 1
  := by decide +kernel

set_option maxRecDepth 100000 in
theorem witness_TrainingAndLight_agreed :
    propGood (peerOf ownProp) (groupLanes 1) = true ∧ propAgrees ownProp (peerOf ownProp) = true := by decide +kernel

theorem witness_TrainingAndLight_light :
    let s := sets live [(Reg.PW_STATUS_VLNK_GOOD, 3, 0, 1), (Reg.LS_CART_STATE, 0, 0, 2), (Reg.LS_CART_STATE, 0, 1, 2),
        (Reg.LS_CART_STATE, 0, 3, 3)]
    let t : State := { s with lnk := { s.lnk with bays := [0, 1, 3] } }
    neighbour 0 4 = some 3 ∧ (s.wr Reg.XP_STATUS_STATE (xpInst 0 0) 1).rd Reg.XP_STATUS_STATE (xpInst 0 0) = 1 ∧ s.vlnk 0 = true ∧ s.vlnk
      3 = true ∧ s.rd Reg.LS_CART_STATE 0 0 = 2 ∧ s.rd Reg.LS_CART_STATE 0 (partner 0) = 2 ∧ bitOf (s.rd Reg.LS_CTL_RELEASE 0) 0 = false ∧
      s.lnk.bays.contains 0 = true ∧ t.lnk.bays.contains 2 = false ∧ 2 ≤ t.rd Reg.BU_STATUS_STATE 0 ∧ t.rd Reg.LS_CART_STATE 0 (partner 2)
      = 3 := by decide +kernel

/-- Module 5 of a formed system of one layer; its reach port 0 in `st`. -/
def inSystem (st : Nat) : State :=
  let s := sets live [(Reg.PW_STATUS_VLNK_GOOD, 5, 0, 1), (Reg.RP_STATUS_STATE, 0, 0, st), (Reg.RP_CTL_ENABLE, 0, 0, 1),
    (Reg.FN_SYS_FORMED, 0, 0, 1), (Reg.LC_STATUS_STATE, 0, 0, 1)]
  { s with host := { s.host with inSystem := true, modNo := 5, depthZ := 1, upMods := [5], announced := [5] } }
def reach : ReachIn := ⟨true, 6, 6, 1, 255, 255, true⟩

theorem witness_ReachAndInjection_train :
    let s := inSystem 1
    s.host.inSystem = true ∧ s.rd Reg.RP_CTL_ENABLE 0 ≠ 0 ∧ s.rd Reg.RP_STATUS_STATE 0 = 1 ∧ s.vlnk (reachHost 0) = true ∧ reach.peer =
      true ∧ s.wellCabled 0 reach = true ∧ mget 0 s.lnk.mergedG (reachKey 0) = 0 ∧ reach.ownGood = reach.peerGood ∧ reachWidth
      reach.ownGood ≠ 0 ∧ reachWidth 0xF0 = 4 ∧ reach.flitsOk = true ∧ ({ reach with peerPort := 7 } : ReachIn).peerPort.toNat ≠ reachPeer
      0 ∧ (inSystem 2).reachUp 0 = true ∧ 100000 * 24 ≤ 24 * 100000 ∧ (inSystem 5).reachUp 0 = false ∧ 5 ≤ (inSystem 5).rd
      Reg.BU_STATUS_STATE 0 ∧ s.injWritable = true ∧ (live.wr Reg.LC_STATUS_STATE 0 0).injWritable = false := by decide +kernel

theorem witness_ReachAndInjection_arm :
    let v : Word := w64 (8 + 15 * 2 ^ 4 + 2 ^ 27 + 2 ^ 43)
    1 ≤ v.toNat % 16 ∧ v.toNat % 16 ≤ 8 ∧ v.toNat / 2 ^ 43 % 2 ^ 16 ≠ 0 ∧ v.toNat / 2 ^ 27 % 2 ^ 16 ≠ 0 := by decide +kernel

theorem witness_ReachAndInjection_event :
    let s := sets live [(Reg.LINJ_STATUS_ACTIVE, 0, 0, 1), (Reg.LINJ_CTL_KIND, 0, 0, 1)]
    let t : State := { s with lnk := { s.lnk with injLeft := [(0, 1)] } }
    t.rd Reg.LINJ_STATUS_ACTIVE 0 ≠ 0 ∧ mget 0 t.lnk.injLeft 0 = 0 + 1 ∧ mget 0 t.lnk.injLast 0 = 0 ∧ injFits (t.rd Reg.LINJ_CTL_KIND 0)
      (t.rd Reg.LINJ_CTL_TARGET 0) = true ∧ t.rd Reg.LINJ_CTL_KIND 0 ≠ 4 ∧ (t.wr Reg.LINJ_CTL_KIND 0 4).rd Reg.LINJ_CTL_KIND 0 = 4
  := by decide +kernel

/-- A churn packet of tree 2, step 1, two FP32 elements, at tile (0, 0), whose node 3 expects two; the tile's sink 0 is pail 1 of
core 0 with its log in pail 2. -/
def churnPkt : Pkt :=
  { blankPkt with pid := 5, cls := 2, op := opChurn, vat := 1, len := 40, daddr := w64 (2 ^ 24),
                  payload := churnBlock 1 2 1 1 0 1 false false ++ eight }
def churning (node sink : Nat) : State :=
  sets { withPkt churnPkt with vats := [vat] } [(Reg.CH_NODE_VALID, 0, 3, node), (Reg.CH_NODE_VAT, 0, 3, 1), (Reg.CH_NODE_TREE, 0, 3, 2),
    (Reg.CH_NODE_EXPECT, 0, 3, 2), (Reg.CH_SINK_VALID, 0, 0, sink), (Reg.CH_SINK_VAT, 0, 0, 1), (Reg.CH_SINK_TREE, 0, 0, 2),
    (Reg.CH_SINK_DST_PAIL, 0, 0, 1), (Reg.CH_SINK_LOG_PAIL, 0, 0, 2), (Reg.CH_SINK_SHARD_BYTES_M1, 0, 0, 7), (Reg.PAIL_W0_VALID, 0, 1, 1),
    (Reg.PAIL_W0_VALID, 0, 2, 1), (Reg.PAIL_W0_BASE_4K, 0, 2, 1)]
def staged (step : Nat) : Staged := ⟨0, 3, 1, 2, step, 0, 0, 0, [], 1, 0, none⟩
def holding (step hold : Nat) : State :=
  let s := sets live [(Reg.CH_NODE_HOLD, 0, 3, hold)]
  { s with now := 9000, ren := { s.ren with staged := [staged step] } }
def window (point skim : Nat) : Window := ⟨0, point, 1, 2, 1, 0, skim, 1, 0, 0, 0, 0, false⟩

theorem witness_ChurnNodesAndSinks_stage :
    let s := churning 1 0
    let p := churnPkt
    s.pkt? 5 = some p ∧ p.op = opChurn ∧ p.at_ < 36 ∧ p.retryAt = none ∧ p.held = false ∧ p.headerOk = true ∧ p.crcOk = true ∧ s.nodeFor p
      = some 3 ∧ s.rd Reg.CH_NODE_SKIM_NODE p.at_ 3 = 0 ∧ 2 ≤ s.rd Reg.CH_NODE_EXPECT p.at_ 3 ∧ s.ren.staged = [] ∧ p.payload.length ≤ 2 ^
      22 := by decide +kernel

theorem witness_ChurnNodesAndSinks_hold :
    (holding 1 1).ren.staged = [staged 1] ∧ (staged 1).t = 0 ∧ (staged 1).node = (3 : BitVec 6).toNat ∧ (staged 1).sent = none ∧ (holding
      1 1).rd Reg.CH_NODE_SKIM_NODE 0 3 = 0 ∧ (staged 1).since + 9000 * (holding 1 1).rd Reg.CH_NODE_HOLD 0 3 ≤ (holding 1 1).now ∧
      (holding 1 2).now < (staged 1).since + 9000 * (holding 1 2).rd Reg.CH_NODE_HOLD 0 3 ∧ (holding 1 0).now < (staged 1).since +
      90000000 := by decide +kernel

theorem witness_ChurnNodesAndSinks_sink :
    let s := churning 0 1
    let p := churnPkt
    let b := chBlock p.payload
    let a := pailAddr p.daddr.toNat
    let d := (s.down p 0).1
    let q := (s.down p 0).2.getD blankPkt
    let w : Window := ⟨p.at_, 64, q.vat, b.tree, b.step, d.now, 0, w64 b.mask, 0, 0, b.scale, fmtMode b.fmt, false⟩
    let x : State := { d with ren := { d.ren with wins := d.ren.wins ++ [w] } }
    s.pkt? 5 = some p ∧ s.arrived p = true ∧ s.nodeFor p = none ∧ p.headerOk = true ∧ s.sinkOf p.at_ p.vat b.tree a.id = some 0 ∧
      ((s.sinkChunk p.at_ 0 a (fmtMode b.fmt) 8).bind fun i => s.sinkLog p.at_ 0 0 i) = some 4096 ∧ s.judgeCore p a.id (fun c => (s.pail c
      a.pail).takes false true a.off 8 && ((s.sinkChunk p.at_ 0 a (fmtMode b.fmt) 8).bind fun i => s.sinkLog p.at_ 0 c i).isSome) = (.go,
      0) ∧ s.downOpen p 0 = true ∧ (s.down p 0).2.isSome = true ∧ q.at_ = p.at_ ∧ q.payload = p.payload ∧ d.rd Reg.CH_SINK_SKIM_EN p.at_ 0
      = 0 ∧ d.win? p.at_ 64 = none ∧ d.ren.closed = [] ∧ (x.readScr 0 4096 16 4).2 = true ∧ ((x.readScr 0 4096 16 4).1.readScr 0 0 8 4).2
      = true ∧ ((x.readScr 0 4096 16 4).1.readScr 0 0 8 4).1.win? p.at_ 64 = some w := by decide +kernel

theorem witness_ChurnNodesAndSinks_windows :
    let s : State := { holding 1 0 with ren := { staged := [staged 1], wins := [window 3 1] } }
    let t : State := { holding 1 0 with now := 2000000, ren := { staged := [], wins := [window 3 1] } }
    s.win? 0 (3 : BitVec 6).toNat = some (window 3 1) ∧ (window 3 1).passed = false ∧ (window 3 1).past 90000 1 = true ∧ s.stagedAt 0 3
      (fun g => g.step == (window 3 1).step) = [staged 1] ∧ t.win? 0 3 = some (window 3 1) ∧ (window 3 1).past t.now 2 = true ∧
      t.ren.staged = [] := by decide +kernel

theorem witness_ChurnNodesAndSinks_setup :
    (w64 (2 + 10000 * 4)).toNat % 4 ≠ 3 ∧ (w64 (2 + 10000 * 4)).toNat / 4 % 2 ^ 14 ≤ 10000 ∧ (w64 3).toNat % 4 = 3 ∧ 10000 < (w64 (10001 *
      4)).toNat / 4 % 2 ^ 14 ∧ (w64 1).toNat / 2 ^ 17 % 16 = 0 ∧ (w64 (1 + 2 ^ 17)).toNat / 2 ^ 17 % 16 ≠ 0 := by decide +kernel

theorem witness_ExponentLanes :
    let s := sets withVat [(Reg.EXP_BIND_VALID, 0, 63, 1), (Reg.EXP_BIND_VAT, 0, 63, 1), (Reg.EXP_LOCAL_TAG, 0, 63, 7)]
    (0 : BitVec 6).toNat = s.ownMod ∧ 7 = s.rd Reg.EXP_LOCAL_TAG 0 (63 : BitVec 6).toNat ∧ s.laneVat (63 : BitVec 6).toNat ≠ none ∧
      s.seal? 63 7 = none ∧ ((s.sealLane 63 7).seal? 63 7).isSome = true := by decide +kernel
/-! ### Witnesses: clocks, time, power -/

/-- Tile (0, 0) on its PLL, its neighbour (1, 0) on with a clock of its own. -/
def clocked : State := sets live [(Reg.PW_STATUS_VLNK_GOOD, 1, 0, 1), (Reg.CK_STATUS_PLL_LOCK, 0, 0, 1), (Reg.CK_STATUS_PLL_LOCK, 1, 0, 1),
  (Reg.CK_STATUS_SOURCE, 0, 0, 0), (Reg.CK_STATUS_SOURCE, 1, 0, 0)]

theorem witness_ClocksAndMargins_pll :
    let s := clocked
    let c : State := { s with clk := { s.clk with unlocks := mset [] [] 0 [s.now] } }
    let v := (c.wr Reg.CK_STATUS_PLL_LOCK 0 0).bump Reg.CK_EVENTS_UNLOCKS 0
    let w := live.wr Reg.CK_STATUS_PLL_LOCK 0 1
    let back : State := { clocked.wr Reg.CK_STATUS_SOURCE 0 3 with now := 90000 }
    4 ≤ s.rd Reg.BU_STATUS_STATE 0 ∧ s.pwr.lossAt = none ∧ s.vlnk 0 = true ∧ s.rd Reg.CK_STATUS_SOURCE 0 = 0 ∧ s.rd Reg.CK_STATUS_PLL_LOCK
      0 = 1 ∧ s.clk.unlocks = [] ∧ s.clk.pllOut = [] ∧ s.clk.pllBack = [] ∧ (v.pickSource 0).isSome = true ∧ w.rd Reg.CK_STATUS_PLL_LOCK 0
      = 1 ∧ w.pickSource 0 = none ∧ back.rd Reg.CK_STATUS_SOURCE 0 ≠ 0 ∧ back.rd Reg.CK_STATUS_PLL_RETIRED 0 = 0 ∧ 90000 ≤ back.now ∧
      (live.wr Reg.CK_STATUS_PLL_LOCK 0 0).rd Reg.CK_STATUS_PLL_LOCK 0 = 0 ∧ (live.wr Reg.CK_STATUS_PLL_LOCK 0 0).pickSource 0 = none
  := by decide +kernel

theorem witness_ClocksAndMargins_margins :
    let r : PathReport := ⟨7, 7, 6, false⟩
    r.site = 7 ∧ r.path.val < 8 ∧ r.broken = false ∧ clocked.rd Reg.CK_SITE_REPLICA_BAD 0 7 = 0 ∧ stretchSize (clocked.rd
      Reg.CK_CTL_STRETCH_TH 0) 63 = 0 ∧ stretchSize (clocked.rd Reg.CK_CTL_STRETCH_TH 0) 0 ≠ 0 ∧ mget 0 clocked.sch.events 0 < 3 ∧
      clocked.rd Reg.CK_STATUS_MARGIN_WARN 0 = 0 ∧ 1800 < 1801 ∧ clocked.divBlocked 0 = false ∧ State.divBlocked { clocked with sch := {
      clocked.sch with holdAt := some 2 } } 0 = true ∧
    (
    let s : State := { live with now := 900000, clk := { live.clk with warnSince := [(0, 1)] } }
    isWhey s.slotIx = true ∧ mget 0 s.clk.warnSince 0 = 0 + 1 ∧ 0 + 900000 ≤ s.now ∧ s.rd Reg.CK_STATUS_VTRIM 0 < 30) := by decide +kernel

theorem witness_SlotsSkewAndTime_slots :
    live.clk.started = true ∧ live.sch.evWait = [] ∧ live.clk.divWait = [] ∧ live.flt.migrs = [] ∧ live.boot.rstWait = none ∧
      live.host.disables = [] ∧ live.lnk.chanDue = [] ∧ live.sch.injDue = [] ∧ live.sch.inHeld = false ∧ live.sch.holdAt ≠ some
      (live.sch.slots + 1) ∧ sched.sch.inHeld = false ∧ isWhey sched.slotIx = false ∧
    (
    let h : State := { live with sch := { live.sch with holdAt := some 1 } }
    h.sch.holdAt = some (h.sch.slots + 1)) ∧
    (
    let h : State := { live with sch := { live.sch with inHeld := true } }
    h.sch.inHeld = true ∧ h.clk.pllOut = [] ∧ h.clk.pllBack = []) := by decide +kernel

theorem witness_SlotsSkewAndTime_skew :
    clocked.edgeLive 0 1 = true ∧ isWhey clocked.slotIx = true ∧
    (
    let s : State := { clocked with sch := { clocked.sch with slots := 1 } }
    s.edgeLive 0 1 = true ∧ isWhey s.slotIx = false) ∧
    (-127 : Int) ≤ -127 ∧
    (
    let s := sets clocked [(Reg.CK_SKEW_SKEW, 0, 1, 36), (Reg.CK_SKEW_TRIM, 0, 1, 136)]
    s.edgeLive 0 1 = true ∧ 35 < toSigned 8 (s.rd Reg.CK_SKEW_SKEW 0 1) ∧ toSigned 8 (s.rd Reg.CK_SKEW_TRIM 0 1) = -120 ∧ mget 0
        s.clk.skewSince (0 * 4 + 1) = 0) := by decide +kernel

theorem witness_SlotsSkewAndTime_time :
    let s := (sets (inSystem 5) [(Reg.TM_STATUS_MASTER, 0, 0, 0), (Reg.TM_STATUS_MASTER_MODULE, 0, 0, 4), (Reg.RP_STATUS_STATE, 6, 0, 2)])
    let t := s.wr Reg.RP_STATUS_STATE 6 0
    let synced : State := { s with clk := { s.clk with synced := true } }
    let b := s.wr Reg.BU_STATUS_STATE 0 11
    s.hasParent = true ∧ s.parentPort = some 6 ∧ (-2 : Int) ^ 31 ≤ -2001 ∧ synced.hasParent = true ∧ synced.parentPort = some 6 ∧
      synced.clk.synced = true ∧ b.clk.synced = false ∧ b.rd Reg.BU_STATUS_STATE 0 ≠ 12 ∧ b.parentPort = some 6 ∧ t.hasParent = true ∧
      t.parentPort = none ∧ t.rd Reg.TM_STATUS_HOLDOVER 0 = 0 ∧ s.host.inSystem = true ∧ s.ownMod < 64 ∧ (∀ m ∈ [9, 63], s.ownMod ≤ m)
  := by decide +kernel

theorem witness_EnergyLedger :
    let s : State := { one with now := 900000000, pwr := { one.pwr with admitQ := [1] } }
    4000 ≤ (4000 : BitVec 15).toNat ∧ (17500 : BitVec 15).toNat ≤ 17500 ∧ (3999 : BitVec 15).toNat < 4000 ∧ 17500 < (17501 : BitVec
      15).toNat ∧
    (
    let t : State := { one with now := 900000000 }
    t.pwr.winStart + 900000000 ≤ t.now ∧ t.pwr.admitQ = [] ∧ ∀ v ∈ t.vats, v.granted = false) ∧
    s.pwr.admitQ = [1] ∧ s.vat? 1 = some { vat with clus := [0] } ∧ (∀ w ∈ s.vats, w.granted = false) ∧ (s.rd Reg.LG_VAT_CLAIM 0 1 * 1000
      : Int) ≤ s.left ∧
    (
    let t : State := { s with pwr := { s.pwr with budget := 0 } }
    t.left < (t.rd Reg.LG_VAT_CLAIM 0 1 * 1000 : Int) ∧ t.pwr.admitQ = [1] ∧ vat.waitingSince = none) ∧
    live.cellOn 0 = true ∧
    (
    let x : EnergySample := { tile := 0, cell := 5, dies := [0, 0, 0, 0, 0, 0, 0], acts := [] }
    x.dies.length = 7 ∧ x.dies.sum ≤ x.cell ∧ ∀ e ∈ x.dies, e = 0) := by decide +kernel

theorem witness_EnergyLedger_throttles :
    let v : Vat := { vat with level := 7, clus := [0], overSince := some 0 }
    let s : State := { one with now := 9000000, vats := [v] }
    s.vats = [v] ∧ s.pwr.throttled = [] ∧ v ∈ s.ledVats ∧ s.sch.slots / 256 % 8 < s.levelOf v ∧ 0 ∈ s.engines [v.id] ∧
    (
    let t : State := { one with vats := [{ vat with clus := [0] }], pwr := { one.pwr with throttled := [0] } }
    (∀ v ∈ t.ledVats, t.levelOf v ≤ t.sch.slots / 256 % 8) ∧ 0 ∈ t.pwr.throttled) ∧
    s.led? (1 : BitVec 8).toNat = some v ∧ s.rd Reg.LG_VAT_OVER 0 (1 : BitVec 8).toNat = 0 ∧ v.overSince = some 0 ∧ 0 + 9000000 ≤ s.now ∧
      (s.wr Reg.LG_VAT_OVER 0 1 1).rd Reg.LG_VAT_OVER 0 1 ≠ 0 ∧ v.raisedAt + 900000 ≤ s.now ∧ s.rd Reg.LG_MOD_MOD_LEVEL 0 ≤ 7 ∧ s.rd
      Reg.LG_MOD_MOD_LEVEL 0 = 0 ∧ (s.readInput 48000 100).powerLimit < 65535 ∧
    (
    let t := s.wr Reg.LG_MOD_MOD_LEVEL 0 4
    t.rd Reg.LG_MOD_MOD_LEVEL 0 = 3 + 1 ∧ t.pwr.modAt + 900000 ≤ t.now ∧ 100 * 1 < 95 * (t.readInput 48000 100).powerLimit) ∧
    s.pwr.limiting = [] ∧
    (
    let t : State := { s with pwr := { s.pwr with limiting := [0] } }
    t.pwr.limiting = [0] ∧ t.pwr.hot = []) := by decide +kernel

/-- An input that is mated, with the e-fuse in state `fuse` at time `age`. -/
def input (fuse age : Nat) : State :=
  let s := State.reset.wr Reg.IN_STATUS_EFUSE 0 fuse
  { s with age := age, pwr := { s.pwr with mated := true, pin := true } }

theorem witness_InputAndFuse :
    State.reset.pwr.pin = false ∧ (input 0 0).pwr.mated = true ∧ (input 2 0).fuseLive = true ∧ (input 1 0).fuseLive = true ∧ (input 2
      0).pwr.pin = true ∧ ((input 2 0).wr Reg.RM_STATUS_LATCH_OPEN 0 1).rd Reg.RM_STATUS_LATCH_OPEN 0 = 1 ∧ ((input 2 0).wr
      Reg.RM_STATUS_LATCH_OPEN 0 1).fuseLive = true ∧ (input 0 0).mayPrecharge = true ∧ 0 + 2000 < 2001 ∧
    (
    let s : State := { input 1 135000000 with pwr := { (input 1 0).pwr with precharge := some 0 } }
    s.pwr.precharge = some 0 ∧ 0 + 135000000 ≤ s.age) ∧
    ((input 2 0).wr Reg.IN_STATUS_COOLANT_WAIT 0 1).rd Reg.IN_STATUS_COOLANT_WAIT 0 = 1 ∧ (input 2 0).pwr.lossAt = none ∧
    (
    let s : State := { input 0 90000000 with pwr := { (input 0 0).pwr with ovAt := some 0 } }
    s.pwr.ovAt = some 0 ∧ 0 + 90000000 ≤ s.age ∧ s.pwr.pin = true ∧ s.pwr.inputGone = false ∧ s.pwr.lossAt = none ∧ s.rd
        Reg.IN_STATUS_EFUSE 0 = 0 ∧ s.tray.cutAt = none ∧ s.rd Reg.TR_CMP_LOCKOUT 0 = 0 ∧ s.rd Reg.RM_STATUS_PHASE 0 = 0) ∧
    (
    let s : State := { input 2 522000 with pwr := { (input 2 0).pwr with lossAt := some 0 } }
    s.pwr.lossAt = some 0 ∧ 0 + 522000 ≤ s.age) := by decide +kernel

/-- What a short of tile (0, 0) has done before VLNK is looked at. -/
def shorted (s : State) : State × List Nat :=
  let d := (((s.wr Reg.PW_STATUS_CELL 0 3).wr Reg.PW_STATUS_TRIP 0 1).wr Reg.PW_STATUS_FEED_OWN 0 0).diesDark 0
  ((d.1.recEach d.2 { type := evRailShort, tile := 0 }).powerDirty).dropFeeds 0

set_option maxRecDepth 100000 in
theorem witness_CellsAndRemoval_cells :
    let s := sets live [(Reg.PW_STATUS_FEED_ALT, 0, 0, 1)]
    s.cellOn 0 = true ∧ (shorted live).1.rd Reg.PW_STATUS_FEED_ALT 0 ≠ 1 ∧ (shorted s).1.rd Reg.PW_STATUS_FEED_ALT 0 = 1 ∧ s.vlnk 0 = true
      ∧ s.rd Reg.PW_STATUS_FEED_ALT 0 = 1 ∧ s.vlnk 1 = false ∧ (s.wr Reg.PW_STATUS_FEED_OWN 0 1).rd Reg.PW_STATUS_FEED_OWN 0 = 1 ∧ live.rd
      Reg.PW_STATUS_FEED_ALT 0 = 0 ∧
    (
    let t : State := { s with now := 89999, flt := { s.flt with beats := [(0, 1)] } }
    mget 0 t.flt.beats 0 = 0 + 1 ∧ t.now < 0 + 90000) ∧
    (
    let t : State := { s.wr Reg.PW_STATUS_VLNK_GOOD (altFeed 0) 1 with now := 90000, flt := { s.flt with beats := [(0, 1)] } }
    t.cellOn 0 = true ∧ t.vlnk 0 = true ∧ t.vlnk (altFeed 0) = true ∧ mget 0 t.flt.beats 0 = 0 + 1 ∧ 0 + 90000 ≤ t.now)
  := by decide +kernel

set_option maxRecDepth 100000 in
theorem witness_CellsAndRemoval_sensors :
    let few := List.replicate 8 700 ++ List.replicate 56 800
    let many := List.replicate 9 700 ++ List.replicate 55 800
    few.length = 64 ∧ (few.filter fun x => decide (2 * x + 160 < median2 few)).length ≤ 8 ∧ many.length = 64 ∧ 8 < (many.filter fun x =>
      decide (2 * x + 160 < median2 many)).length ∧ live.rd Reg.PW_STATUS_SENSOR_BAD 0 = 0 := by decide +kernel

theorem witness_CellsAndRemoval_removal :
    (input 0 0).rd Reg.RM_STATUS_PHASE 0 = 0 ∧ (input 0 0).pwr.mated = true ∧ (input 0 0).fuseLive = false ∧ (input 2 0).fuseLive = true ∧
      (input 2 0).rd Reg.BU_STATUS_STATE 0 ≠ 12 ∧ withVat.rd Reg.RM_STATUS_PHASE 0 = 0 ∧ withVat.pwr.mated = true ∧ withVat.fuseLive =
      true ∧ withVat.rd Reg.BU_STATUS_STATE 0 = 12 ∧ withVat.vats ≠ [] ∧ withVat.host.cmds = [] ∧ ((input 2 0).wr Reg.RM_STATUS_PHASE 0
      1).rd Reg.RM_STATUS_PHASE 0 = 1 ∧
    (
    let s : State := { (input 2 (900000000 * 2 ^ 16)).wr Reg.RM_STATUS_PHASE 0 1 with pwr := { (input 2 0).pwr with drainAt := some 0 } }
    s.pwr.drainAt = some 0 ∧ s.rd Reg.RM_STATUS_PHASE 0 = 1 ∧ 0 + 900000000 * s.rd Reg.RM_CTL_DRAIN_TIMEOUT 0 ≤ s.age ∧ s.rd
        Reg.RM_CTL_FORCE 0 = 0 ∧ (s.wr Reg.RM_CTL_FORCE 0 1).rd Reg.RM_CTL_FORCE 0 = 1) ∧
    12900 ≤ 12900 ∧ ((input 0 0).wr Reg.RM_STATUS_PHASE 0 3).rd Reg.RM_STATUS_PHASE 0 = 3 ∧ ((input 0 0).wr Reg.RM_STATUS_PHASE 0
      3).pwr.inputGone = false ∧
    (
    let s : State := { input 0 1800000000 with pwr := { (input 0 0).pwr with dischargeAt := some 0 } }
    12900 < 12901 ∧ s.pwr.dischargeAt = some 0 ∧ 0 + 1800000000 ≤ s.age) := by decide +kernel

/-- A migration of logical site 0 of tile (0, 0) to the dry die, and its power-up. -/
def migr (ph : Nat) : Migr := ⟨0, 0, 0, 6, [], ph, 0, true, false⟩
def ups (c r : Option Nat) : PowerUp := ⟨0, 6, 0, c, r, 0⟩
def poweringUp (c r : Option Nat) : State := { live with now := 5000000, flt := { live.flt with migrs := [migr 0] }, pwr := { live.pwr with ups := [ups c r] } }

theorem witness_DiePowerUp :
    (State.wantsPower { live with flt := { live.flt with migrs := [migr 0] } } 0 6) = some 0 ∧ (poweringUp none none).pwr.ups = [ups none
      none] ∧ (ups none none).tile = 0 ∧ (poweringUp none none).rd Reg.PW_POWER_P1MS 0 ≤ 510 ∧ (poweringUp none none).rd
      Reg.CK_STATUS_CHANGING 0 = 0 ∧ ((poweringUp none none).setSiteSt 0 6 4).rampCheck 0 = true ∧ ((sets (poweringUp none none)
      [(Reg.PW_POWER_P1MS, 1, 0, 511)]).setSiteSt 0 6 4).rampCheck 0 = false ∧ (ups (some 0) none).checkAt = some 0 ∧ (ups (some 0)
      none).rampAt = none ∧ (poweringUp (some 0) none).rampCheck 0 = true ∧ (sets (poweringUp (some 0) none) [(Reg.PW_POWER_P1MS, 1, 0,
      511)]).rampCheck 0 = false ∧ 5000 ≤ ((poweringUp (some 0) none).now - 0) / 900 ∧ ((poweringUp (some 4000000) none).now - 4000000) /
      900 < 5000 ∧ (ups none none).since + 4500000 ≤ (poweringUp none none).now ∧ (poweringUp none none).flt.migrs = [migr 0] ∧ (migr
      0).tile = 0 ∧ (migr 0).fresh = (ups none none).site ∧
    (
    let s : State := { poweringUp (some 0) (some 0) with flt := {} }
    (ups (some 0) (some 0)).rampAt.isSome = true ∧ s.flt.migrs = [] ∧ s.flt.tests = []) := by decide +kernel
/-! ### Witnesses: dies, bring-up, culture, resets -/

/-- Module at READY with a subst or a migration in its lists. -/
def withMigr (m : Migr) : State := { live with now := 45000, flt := { live.flt with migrs := [m] } }
def subst : Subst := ⟨0, 0, 0, 6, [1], false, false⟩
def testing : Test := ⟨0, 6, 3, 0⟩
/-- `live` with a packet of vat 1 in the network that a migration of that vat waits for. -/
def draining : State := { withVat with now := 45000, fab := { live.fab with net := [{ pkt with vat := 1 }] },
                                       flt := { live.flt with migrs := [{ migr 1 with vats := [1] }] } }

theorem witness_DiesAndSites :
    live.psite 0 5 ≠ 7 ∧ live.siteBusy 0 = false ∧ live.rd Reg.SITE_MAP_DRY 0 ≠ 7 ∧ live.siteSt 0 (live.rd Reg.SITE_MAP_DRY 0) = 2 ∧
      (live.wr Reg.SITE_MAP_DRY 0 7).rd Reg.SITE_MAP_DRY 0 = 7 ∧ (live.wr Reg.SITE_MAP_DRY 0 7).siteBusy 0 = false ∧ (withMigr (migr
      0)).siteBusy 0 = true ∧ draining.flt.migrs = [{ migr 1 with vats := [1] }] ∧ ({ migr 1 with vats := [1] } : Migr).tile = 0 ∧ ({ migr
      1 with vats := [1] } : Migr).ph = 1 ∧ draining.drained { migr 1 with vats := [1] } = false ∧ ({ migr 1 with vats := [1] } :
      Migr).since + 45000 ≤ draining.now ∧ live.siteSt 0 0 = 1 ∧ live.flt.substs = [] ∧ live.lsite 0 0 ≠ 7 ∧ live.flt.lossQueue = [] ∧
    (
    let s : State := { live with flt := { live.flt with substs := [subst] } }
    s.flt.substs = [subst] ∧ subst.tile = 0 ∧ subst.byCmd = false) ∧
    (
    let s : State := { live.setSiteSt 0 6 3 with flt := { live.flt with tests := [testing] } }
    s.flt.tests = [⟨0, 6, 3, s.now⟩] ∧ s.siteSt 0 6 = 3) ∧
    live.flt.tests = [] ∧ live.flt.migrs = [] ∧ mget 0 live.svc.rotateSeen 0 = 0 ∧ live.dieOn 0 0 = true ∧ live.flt.ues = [] ∧
    (
    let s : State := { live with cmp := { live.cmp with ueNew := [(coreKey (core 0) * 2 ^ 21 + 5, 4)] } }
    s.dieOn 0 0 = true ∧ s.flt.ues = [] ∧ s.cmp.ueNew = [(coreKey (core 0) * 2 ^ 21 + (5 : BitVec 21).toNat, (4 : BitVec 3).toNat)]) ∧
    (1 : BitVec 6) ≠ 0 ∧ (live.resetFn ((1 : BitVec 6).toNat + 1)).vat? (mget 0 live.host.vfVat 1) = none ∧
    (
    let s : State := { withVat with host := { withVat.host with vfVat := [(1, 1)] } }
    let r := s.resetFn 2
    r.vat? (mget 0 s.host.vfVat 1) = some vat ∧ vat.killing = none ∧ r.host.disables = [] ∧ r.clk.started = true) ∧
    (
    let s : State := { withVat with host := { withVat.host with vfVat := [(1, 1)] }, clk := { withVat.clk with started := false } }
    (s.resetFn 2).clk.started = false) ∧
    (
    let v : Vat := { vat with killing := some 0 }
    let s : State := { live with vats := [v] }
    s.vat? (1 : BitVec 8).toNat = some v ∧ v.killing = some 0 ∧ s.underWay (s.subtree 1) = false ∧ (
    let w : State := { s with now := 4500000 }
    0 + 4500000 ≤ w.now)) := by decide +kernel

/-- A module in a state of its bring-up, at time `age`. -/
def booting (st age : Nat) : State :=
  let s := sets (input 2 age) [(Reg.BU_STATUS_STATE, 0, 0, st)]
  { s with boot := { s.boot with baseUp := [0] } }
/-- The same with tile (0, 0) on and its dies active. -/
def bootLive (st : Nat) : State :=
  sets (booting st 0) [(Reg.PW_STATUS_CELL, 0, 0, 2), (Reg.PW_STATUS_VLNK_GOOD, 0, 0, 1), (Reg.SITE_STATE_SITE_ST, 0, 0, 0x2111111)]

/-- The SHA-384 of 4 KiB of zeros. -/
@[irreducible] def zeroDigest : List Byte :=
  [192, 229, 154, 62, 63, 251, 211, 181, 199, 84, 40, 251, 54, 67, 47, 172, 171, 199, 69, 148, 66, 150, 255, 81, 95, 115,
   124, 79, 239, 78, 252, 100, 88, 104, 9, 247, 161, 111, 86, 53, 74, 30, 174, 207, 42, 168, 215, 116]
/-- A culture image of a manifest and one chunk of zeros for each target. -/
@[irreducible] def manifest : List Byte :=
  toBytes (leBytes 8 (1 + 5 * 16) ++ List.replicate 56 0 ++
    ((List.range 4).flatMap fun i => leBytes 8 (1 + 2 * i + (i + 1) * 2 ^ 16 + 2 ^ 28) ++ leBytes 8 0)) ++
    zeroDigest ++ zeroDigest ++ zeroDigest ++ zeroDigest ++ List.replicate (4096 - 0x140) 0
@[irreducible] def cultureImage : List Byte := manifest ++ List.replicate (4 * 4096) 0
/-- Its section for a target. -/
def sectionAt (i : Nat) : Section := ⟨i + 1, 1, 0, 0, zeroDigest⟩
theorem cultureImage_head : imageChunks cultureImage = 5 ∧ manifestZeros cultureImage = true ∧ ldList cultureImage 0 8 % 16 = 1 ∧
    ∀ i ∈ [0, 1, 2, 3], manifestSection cultureImage i = some (sectionAt i) := by decide +kernel
set_option maxRecDepth 1000000 in
theorem cultureImage_body : cultureImage.length = 4096 * 5 ∧
    ∀ i ∈ [0, 1, 2, 3], (sectionAt i).bytes cultureImage = List.replicate 4096 0 := by decide +kernel
set_option maxRecDepth 1000000 in
theorem zeros_digest : sha384 (List.replicate 4096 0) = zeroDigest := by decide +kernel
theorem witness_cultureImage : manifestOk cultureImage = true := by
  obtain ⟨hn, hz, hv, hs⟩ := cultureImage_head
  obtain ⟨hl, hb⟩ := cultureImage_body
  have r : List.range 4 = [0, 1, 2, 3] := rfl
  have e : [0, 1, 2, 3].filterMap (manifestSection cultureImage) = [0, 1, 2, 3].map sectionAt := by
    simp [hs 0, hs 1, hs 2, hs 3]
  have g : (([0, 1, 2, 3].map sectionAt).all fun x => sha384 (x.bytes cultureImage) == x.digest) = true := by
    rw [List.all_eq_true]
    intro x hx
    obtain ⟨i, hi, rfl⟩ := List.mem_map.mp hx
    rw [hb i hi, zeros_digest]
    exact beq_self_eq_true zeroDigest
  have o : ([0, 1, 2, 3].all fun t => (manifestSection cultureImage t).any (sectionOk 5 t)) = true := by
    simp only [List.all_cons, List.all_nil, hs 0 (by decide), hs 1 (by decide), hs 2 (by decide), hs 3 (by decide)]
    decide
  unfold manifestOk
  simp only [hn, hz, hv, hl, r, e, g, o]
  decide

/-- The slots of a flash with that image in culture slot A; its signatures have verified. -/
def cultured (s : State) : State :=
  { s with boot := { s.boot with cul := [{ written := true, data := cultureImage, sigOk := true }, {}], svc := [{ written := true }, {}] } }
/-- A SELF_TEST in which nothing fails. -/
def selfTest : SelfTestIn := ⟨[], [], [], [], 7, [], []⟩
def bootIn : BootIn := ⟨⟨true, true⟩, ⟨false, false⟩, ⟨true, true⟩, ⟨false, false⟩⟩

theorem chosen (s : State) (h : s.boot.cul = [{ written := true, data := cultureImage, sigOk := true }, {}])
    (hk : bitOf (s.rd Reg.LC_SVN_KEY_REVOKED 0) 0 = false) (hm : s.mgmt.culMin = 0) : s.chooseCulture.2 = true := by
  have h0 : s.culOk 0 = true := by simp [State.culOk, h, State.imageOk, hk, hm, witness_cultureImage]
  have h1 : s.culOk 1 = false := by simp [State.culOk, h, State.imageOk]
  simp [State.chooseCulture, pickSlot, h0, h1]

theorem witness_BringUp_svcBoot : let s := cultured (booting 1 0)
    s.rd Reg.BU_STATUS_FAILED 0 = 0 ∧ s.pwr.lossAt = none ∧ s.buSt = 1 ∧ s.rd Reg.IN_STATUS_EFUSE 0 = 2 ∧
      s.rd Reg.IN_STATUS_COOLANT_WAIT 0 = 0 ∧ s.mgmt.eraseDue = false ∧ s.tray.cutDue = false := by decide +kernel

theorem witness_BringUp :
    (∀ k ∈ [2, 3, 4, 5, 6, 7, 8, 9, 11],
    let s := booting k 0
    s.buSt = k ∧ s.rd Reg.BU_STATUS_FAILED 0 = 0 ∧ s.pwr.lossAt = none) ∧
    (booting 2 0).rd Reg.LC_STATUS_STATE 0 ≠ 4 ∧ (booting 3 0).boot.baseUp ≠ [] ∧ (booting 4 0).host.inSystem = false ∧ (bootLive 4).vlnk
      0 = true ∧ (booting 5 0).linksTrain = false ∧ (booting 5 0).boot.present = [] ∧ selfTest.baseFail = [] ∧
    (
    let s : State := { booting 6 0 with boot := { present := [0], fuseBad := [0] } }
    let k := dieKey (core 0).tile.val (core 0).site.val
    s.buSt = 6 ∧ s.boot.present.contains k = true ∧ s.boot.condemned = [] ∧ s.boot.fuseBad.contains k = true) ∧
    (booting 9 0).boot.warm = 0 ∧ 2 ≤ (booting 2 (900000 * 2001)).buSt ∧ (booting 2 (900000 * 2001)).boot.warm = 0 ∧ (booting 2 (900000 *
      2001)).boot.enteredAt + 900000 * stateBound 2 0 < (booting 2 (900000 * 2001)).age := by decide +kernel

theorem witness_BringUp_maps :
    let s := bootLive 7
    let r := ((s.enterBu 8).each ((List.range 36).filter s.vlnk) State.reconcile).saveStored
    let t : State := { s with boot := { s.boot with present := [0, 1, 2, 3, 4, 5, 6] } }
    let q := ((t.enterBu 8).each ((List.range 36).filter t.vlnk) State.reconcile).saveStored
    s.buSt = 7 ∧ r.psite 0 0 = 7 ∧ t.buSt = 7 ∧ q.psite 0 0 ≠ 7 ∧ q.cellOn 0 = true ∧ (∀ k ∈ [8], (bootLive k).vlnk 0 = true)
  := by decide +kernel

theorem witness_BringUp_ready :
    let s : State := { bootLive 11 with boot := { (bootLive 11).boot with confirmed := baseKey 0 :: (bootLive 11).moduleCores } }
    s.buSt = 11 ∧ s.culKeys.all s.culDone = true ∧ s.vat0Up = true ∧ s.dieActive 0 (s.psite 0 0) = true ∧ s.host.inSystem = false
  := by decide +kernel

theorem witness_CultureBroadcast_culture : let s := cultured (booting 10 0)
    s.buSt = 10 ∧ (s.wr Reg.LC_STATUS_STATE 0 2).rd Reg.LC_STATUS_STATE 0 ≠ 0 ∧ (s.wr Reg.LC_STATUS_STATE 0 2).chooseCulture.2 = true :=
  ⟨by decide +kernel, by decide +kernel, chosen _ rfl (by decide +kernel) rfl⟩

/-- In CULTURE with the image sent, `r` repair rounds, 45 ms after the first chunk. -/
def culturing (r : Nat) : State :=
  let s := (bootLive 11).wr Reg.CUL_STATUS_ROUNDS 0 r
  { s with now := 45000000, boot := { s.boot with image := cultureImage } }
/-- Everything but the last chunk of the section has reached the base die; every core is confirmed. -/
def lastChunk : State :=
  let s := culturing 3
  { s with boot := { s.boot with bits := [(baseKey 0, 1)], confirmed := s.moduleCores } }

set_option maxRecDepth 1000000 in
theorem witness_CultureBroadcast_chunks :
    let s := culturing 0
    s.buSt = 11 ∧ (4 : BitVec 12).toNat < s.culN ∧ s.culKeys.contains (baseKey 0) = true ∧ s.culDone (baseKey 0) = false ∧ s.needs
      (baseKey 0) 4 = true ∧ s.hasChunk (baseKey 0) 4 = false ∧ s.boot.passEnd + 9000 ≤ s.now ∧ s.rd Reg.CUL_STATUS_ROUNDS 0 < 3 ∧
      lastChunk.rd Reg.CUL_STATUS_ROUNDS 0 = 3 ∧ lastChunk.missing (baseKey 0) = [4] ∧ lastChunk.culDone (baseKey 0) = false ∧
      (lastChunk.culKeys.filter fun k => !lastChunk.culDone k) = [baseKey 0] ∧
    (
    let t : State := { lastChunk with boot := { lastChunk.boot with confirmed := baseKey 0 :: lastChunk.moduleCores.drop 1 } }
    (t.culKeys.filter fun k => !t.culDone k) = [0] ∧ t.boot.sentAt + 45000000 ≤ t.now) := by decide +kernel

set_option maxRecDepth 1000000 in
theorem witness_CultureBroadcast_gone :
    ((List.range lastChunk.culN).filter fun i => lastChunk.culKeys.any fun k => !lastChunk.culDone k && lastChunk.needs k i &&
      !lastChunk.hasChunk k i) ≠ [] := by decide +kernel

/-- The SHA-384 of the manifest. -/
@[irreducible] def manifestSha : List Byte :=
  [163, 11, 188, 22, 127, 116, 27, 224, 161, 26, 190, 197, 178, 91, 220, 3, 192, 230, 55, 247, 151, 230, 15, 134, 220, 73,
   125, 230, 172, 84, 241, 245, 85, 195, 251, 201, 162, 135, 49, 182, 140, 105, 100, 101, 234, 11, 55, 185]
set_option maxRecDepth 1000000 in
theorem manifest_sha : sha384 manifest = manifestSha := by decide +kernel

/-- `live` with the image in its service area and a zero-filled S-core to reload. -/
@[irreducible] def reloading : State :=
  let s := (live.stBytes svcT1 manifest).each (List.range 6) fun s w => s.wr Reg.CUL_DIGEST_DIGEST 0 (ldList manifestSha (8 * w) 8) w
  { s with boot := { s.boot with reload := [coreKey (core 4)] } }
theorem reloading_digest : reloading.manifestDigest = manifestSha := by decide +kernel

/-- Lines whose unit is live and that carry no mark come from T1 and change nothing. -/
theorem cultureLines_clean (s : State) : ∀ (n i : Nat), (∀ j ∈ List.range n, (rangeUnits (svcT1 + 64 * (i + j)) 64).any s.unitLost = false ∧
    s.badLines (svcT1 + 64 * (i + j)) 64 = []) →
    State.cultureLines n i s = (s, some ((List.range n).flatMap fun j => s.ldBytes (svcT1 + 64 * (i + j)) 64))
  | 0, _, _ => rfl
  | n + 1, i, h => by
    obtain ⟨h1, h2⟩ := h 0 (by simp)
    have hr : s.readTier (svcT1 + 64 * i) 64 = (s, false) := by
      have h1' : (rangeUnits (svcT1 + 64 * i) 64).any s.unitLost = false := h1
      have h2' : s.badLines (svcT1 + 64 * i) 64 = [] := h2
      simp [State.readTier, h1', h2']
    have ih := cultureLines_clean s n (i + 1) fun j hj => by
      have := h (j + 1) (by simpa using hj)
      rwa [show i + (j + 1) = i + 1 + j by omega] at this
    simp [State.cultureLines, hr, ih, List.range_succ_eq_map, List.flatMap_map, show ∀ j, i + 1 + j = i + (j + 1) by intro j; omega]

set_option maxRecDepth 1000000 in
theorem reloading_clean : ∀ j ∈ List.range 128, (rangeUnits (svcT1 + 64 * j) 64).any reloading.unitLost = false ∧
    reloading.badLines (svcT1 + 64 * j) 64 = [] := by decide +kernel
set_option maxRecDepth 1000000 in
theorem manifest_lines : ((List.range 64).flatMap fun j => (manifest.drop (64 * j)).take 64) = manifest ∧ manifest.length = 4096 ∧
    ((List.range 64).flatMap fun _ => List.replicate 64 (0 : Byte)) = List.replicate 4096 0 := by decide +kernel
set_option maxRecDepth 1000000 in
theorem manifest_section : manifestSection manifest 0 = some ⟨1, 1, 0, 0, zeroDigest⟩ := by decide +kernel

theorem each_wr_mem (s : State) (l : List Nat) (g : Nat → Nat) (f : Fld) : (s.each l fun s w => s.wr f 0 (g w) w).mem = s.mem :=
  each_keeps (fun t => t.mem = s.mem) (fun s w => s.wr f 0 (g w) w) (fun _ _ h => h) l s rfl

theorem reloading_bytes (a n : Nat) : reloading.ldBytes a n = (live.stBytes svcT1 manifest).ldBytes a n := by
  have h : reloading.mem = (live.stBytes svcT1 manifest).mem := by
    unfold reloading
    dsimp only
    exact each_wr_mem (live.stBytes svcT1 manifest) (List.range 6) (fun w => ldList manifestSha (8 * w) 8) Reg.CUL_DIGEST_DIGEST
  unfold State.ldBytes State.byte; rw [h]

theorem reloading_manifest : State.cultureLines 64 0 reloading = (reloading, some manifest) := by
  rw [cultureLines_clean reloading 64 0 fun j hj => by
    rw [Nat.zero_add]; exact reloading_clean j (by simp at hj ⊢; omega)]
  refine Prod.ext rfl (congrArg some (Eq.trans ?_ manifest_lines.1))
  rw [List.flatMap_def, List.flatMap_def]
  refine congrArg List.flatten (List.map_congr_left fun j hj => ?_)
  have hj : j < 64 := by simpa using hj
  rw [Nat.zero_add]
  rw [reloading_bytes]
  exact ldBytes_stBytes live svcT1 (64 * j) 64 manifest (by rw [manifest_lines.2.1]; omega)

theorem reloading_section : State.cultureLines 64 64 reloading = (reloading, some (List.replicate 4096 0)) := by
  rw [cultureLines_clean reloading 64 64 fun j hj => by
    have := reloading_clean (64 + j) (by simp at hj ⊢; omega); exact this]
  refine Prod.ext rfl (congrArg some (Eq.trans ?_ manifest_lines.2.2))
  rw [List.flatMap_def, List.flatMap_def]
  refine congrArg List.flatten (List.map_congr_left fun j _ => ?_)
  rw [reloading_bytes]
  refine (ldBytes_stBytes_ne live svcT1 (svcT1 + 64 * (64 + j)) 64 manifest (by rw [manifest_lines.2.1]; omega)).trans ?_
  exact List.eq_replicate_iff.mpr ⟨by simp, fun b hb => by
    obtain ⟨i, _, rfl⟩ := List.mem_map.mp hb
    unfold State.byte live ready
    exact mget_not_mem 0 _ _ fun e he => by cases he⟩

theorem loadCulture_ok (s : State) (core t : Nat) (m bs dg : List Byte) (hm : State.cultureLines 64 0 s = (s, some m))
    (hd : sha384 m = s.manifestDigest) (ht : slotTarget (slotOf core) = t) (hx : manifestSection m t = some ⟨1, 1, 0, 0, dg⟩)
    (hb : State.cultureLines 64 64 s = (s, some bs)) (hs : sha384 bs = dg) :
    s.loadCulture core = (s.placeSection core 0 bs, some 0) := by
  simp [State.loadCulture, hm, hd, ht, hx, hb, hs]

theorem placeSection_rst (s : State) (core off : Nat) (bs : List Byte) : (s.placeSection core off bs).boot.rst = s.boot.rst := by
  unfold State.placeSection State.writeFull
  split
  · split
    · rfl
    · dsimp only
      split <;> rfl
  · rfl

theorem witness_CultureBroadcast_reload : (reloading.loadCulture (coreKey (core 4))).2 = some 0 ∧
    (reloading.loadCulture (coreKey (core 4))).1.boot.rst = none := by
  rw [loadCulture_ok reloading (coreKey (core 4)) 0 manifest (List.replicate 4096 0) zeroDigest reloading_manifest
    (manifest_sha.trans reloading_digest.symm) (by decide) manifest_section reloading_section zeros_digest]
  refine ⟨rfl, ?_⟩
  rw [placeSection_rst]
  decide +kernel

theorem witness_CultureBroadcast_reload_state :
    11 ≤ reloading.buSt ∧ reloading.boot.reload.contains (coreKey (core 4)) = true ∧ reloading.dieActive (coreKey (core 4) / 256) (coreKey
      (core 4) / 32 % 8) = true := by decide +kernel

theorem witness_Resets :
    let good : State := { live with boot := { live.boot with stored := { valid := true, training := true } } }
    live.pwr.lossAt = none ∧ live.buSt = 12 ∧ live.boot.rst = none ∧ live.boot.rstWait = none ∧ live.dieActive (coreKey (core 4) / 256)
      (coreKey (core 4) / 32 % 8) = true ∧ live.siteBusy 0 = false ∧ live.tileCores 0 ≠ [] ∧ live.moduleCores ≠ [] ∧ (∀ t : Tile,
      live.siteBusy t.val = false) ∧ good.warmCheck = 0 ∧ live.warmCheck = 3 + 1 ∧ 2 ≤ (booting 2 0).buSt ∧ (booting 2 0).buSt ≠ 12 ∧
    (
    let s : State := { booting 13 0 with boot := { warm := 1 } }
    s.buSt = 13 ∧ s.boot.warm = 1 ∧ s.inWarm = true ∧ s.linksTrain = false) ∧
    (
    let s : State := { booting 13 0 with boot := { warm := 2 } }
    s.buSt = 13 ∧ s.boot.warm = 2 ∧ s.inWarm = true ∧ s.linksTrain = false) ∧
    (
    let s : State := { booting 9 0 with boot := { warm := 1 } }
    s.buSt = 9 ∧ s.boot.warm = 1 ∧ s.inWarm = true ∧ s.linksTrain = false) ∧
    (
    let s := (booting 13 0).wr Reg.LK_STATUS_STATE 575 4
    s.rd Reg.LK_STATUS_STATE 575 = 4) ∧
    (linkEnds 0 1).any ([1] : List Nat).contains = true ∧ 0 = (booting 13 0).boot.stored.digest ∧ 1 ≠ (booting 13 0).boot.stored.digest ∧
      ({ stackFail := [], pkgFail := [], ports := [] } : MemTrainIn).stackFail = [] := by decide +kernel
/-! ### Witnesses: the host, services, management -/

/-- Queue 31 of PF1, or another queue, set up with rings of two entries. -/
def queued (on : Nat) : State :=
  sets live [(Reg.Q_SQ_BASE_SQ_BASE, qInst 0 0, 0, 1), (Reg.Q_CQ_BASE_CQ_BASE, qInst 0 0, 0, 2), (Reg.Q_CFG_SQ_LOG2, qInst 0 0, 0, 1),
    (Reg.Q_CFG_CQ_LOG2, qInst 0 0, 0, 1), (Reg.Q_CFG_ENABLE, qInst 0 0, 0, 1), (Reg.Q_STATUS_ENABLED, qInst 0 0, 0, on)]

theorem witness_RegistersAndQueues :
    live.vlnk 0 = true ∧ (17500 : Word).toNat % 2 ^ 16 = 17500 ∧ (live.wr Reg.LINJ_STATUS_REFUSED 0 1).rd Reg.LINJ_STATUS_REFUSED 0 = 1 ∧
      (w64 (2 ^ 33)).toNat / 2 ^ 33 % 2 = 1 ∧ live.host.up = true ∧ (live.wr Reg.CSR_ADDR_ADDR 0 7).rd Reg.CSR_ADDR_ADDR 0 % 8 ≠ 0 ∧
      (live.wr Reg.CSR_ADDR_ADDR 0 (0xE * 2 ^ 52 + 7 * 2 ^ 28 + 0x14 * 2 ^ 20)).rd Reg.CSR_ADDR_ADDR 0 = 0xE * 2 ^ 52 + 7 * 2 ^ 28 + 0x14
      * 2 ^ 20 ∧ live.host.inSystem = false ∧ (queued 0).queueAt 0 0 = true ∧ (queued 0).qOn 0 0 = false ∧ (queued 0).queueCheck 0 0 = 0 ∧
      live.queueCheck 0 0 ≠ 0 ∧ live.qOn 0 0 = false ∧ live.host.cmds = [] ∧ live.host.held = [] ∧ (queued 1).qOn 0 0 = true ∧ (queued
      1).rd Reg.Q_STATUS_HALTED (qInst 0 0) = 0 ∧ (queued 1).rd Reg.Q_CFG_ENABLE (qInst 0 0) = 1 ∧ 2 ^ (queued 1).rd Reg.Q_CFG_SQ_LOG2
      (qInst 0 0) ≤ 2 ∧ 2 ≤ 2 ^ (queued 1).rd Reg.Q_CFG_SQ_LOG2 (qInst 0 0) ∧ (queued 1).rd Reg.Q_STATUS_SQ_HEAD (qInst 0 0) < 2 ^ (queued
      1).rd Reg.Q_CFG_SQ_LOG2 (qInst 0 0) ∧ 1 < 2 ^ (queued 1).rd Reg.Q_CFG_CQ_LOG2 (qInst 0 0) := by decide +kernel

/-- A fetched command of PF1's queue 0, the only one, and words in host memory. -/
def hcmd (op : Nat) (opds : List Nat) : HCmd := ⟨7, 1, 0, op, false, 3, opds.map w64, false⟩
def commanded (s : State) (op : Nat) (opds : List Nat) : State := { s with host := { s.host with cmds := [hcmd op opds] } }
def hostPut (s : State) (a : Nat) (ws : List Nat) : State := s.stBytes (hostKey a) (toBytes (ws.flatMap (leBytes 8)))

theorem witness_canStart (s : State) (op : Nat) (opds : List Nat) : CanStart (commanded s op opds) 7 op (hcmd op opds) := by
  refine ⟨rfl, rfl, ?_⟩
  simp [State.mayStart, commanded, hcmd, State.queueCmds]

/-- A placement record of vat 2 on tile (0, 0). -/
def placing : State := hostPut live 0x1000 [2 + 2 ^ 16, 1, (2 ^ 24 - 1 - 8) * 2 ^ 12]

theorem witness_AdminCommands :
    let t := (startedCmd (commanded placing 1 [0x1000, 24]) 7).reserve [(1, 2)]
    let w := startedCmd (commanded withVat 4 [1, 2 ^ 57 - 1 - 8 - 2 ^ 53]) 7
    (hcmd 1 [0x1000, 24]).opd 2 = 24 ∧ t.hostWords ((hcmd 1 [0x1000, 24]).opd 1) 3 = [2 + 2 ^ 16, 1, (2 ^ 24 - 1 - 8) * 2 ^ 12] ∧ bitsOf
      (2 + 2 ^ 16) 31 16 = 1 ∧ bitsOf (2 + 2 ^ 16) 15 8 = 0 ∧ bitsOf (2 + 2 ^ 16) 7 0 ≠ 0 ∧ t.vats = [] ∧ bitsOf ((2 ^ 24 - 1 - 8) * 2 ^
      12) 5 0 = t.ownMod ∧ t.isModule t.ownMod = true ∧ t.placeBad 0 [(2 ^ 24 - 1 - 8) * 2 ^ 12] = false ∧ t.claimRefused 0 1 = false ∧
      (startedCmd (commanded withVat 2 [1]) 7).vat? ((hcmd 2 [1]).opd 1) ≠ none ∧ bitsOf ((hcmd 3 [63 + 2 ^ 8]).opd 1) 5 0 = 63 ∧ bitsOf
      ((hcmd 3 [63 + 2 ^ 8]).opd 1) 15 8 = 1 ∧ (startedCmd (commanded withVat 3 [63 + 2 ^ 8]) 7).topLevel 1 = true ∧ (startedCmd
      (commanded withVat 3 [63 + 2 ^ 8]) 7).vfBound 1 = false ∧ w.topLevel (bitsOf ((hcmd 4 [1, 2 ^ 57 - 1 - 8 - 2 ^ 53]).opd 1) 7 0) =
      true ∧ (hcmd 4 [1, 2 ^ 56 + 1 + 4 * 3]).opd 2 < 2 ^ 57 ∧ grantsSvc ((hcmd 4 [1, 2 ^ 56 + 1 + 4 * 3]).opd 2) = false ∧ (hcmd 5
      [5]).opd 1 = 5 ∧ live.buSt = 12 ∧ bitsOf ((hcmd 6 [2 + 4096 * 2 ^ 19]).opd 1) 31 19 = 4096 ∧ bitsOf ((hcmd 6 [2 + 4096 * 2 ^
      19]).opd 1) 1 0 ≠ 3 ∧ live.host.up = true ∧
    (
    let e : State := { live with host := { live.host with events := [9] } }
    (commanded e 7 []).host.events = [9]) ∧
    (commanded live 7 []).host.events = [] ∧ ((startedCmd (commanded live 7 []) 7).host.cmds.filter fun c => c.started && c.opcode ==
      7).length ≤ 8 := by decide +kernel

/-- Vat 1 on cluster 0 of tile (0, 0), which it runs as `run`: queue 0 of PF1 is its queue, all of T1 but the service area its
window 0; its cores are confirmed, and host memory holds what the commands name. -/
def served (run : VRun) : State :=
  let s := sets live [(Reg.Q_CFG_VAT, qInst 1 0, 0, 1), (Reg.GRANT_VALID, 0, 16, 1), (Reg.GRANT_TIER, 0, 16, 1), (Reg.GRANT_WRITE, 0, 16, 1),
    (Reg.GRANT_PAGES_M1, 0, 16, 1023)]
  let s := hostPut (hostPut s 0x1000 [2 ^ 52, 4096, 0, 0x8000]) 0x2000 [1, 1]
  let s := hostPut (hostPut s 0x3000 [0, 2 ^ 52]) 0x4000 [5 + 2 ^ 32, 0x5000, 16777215, 0, 2 ^ 32 - 1]
  { s with vats := [{ vat with clus := [0], run := run }], boot := { s.boot with confirmed := coresOfClu 0 } }
def servedVat (run : VRun) : Vat := { vat with clus := [0], run := run }

theorem witness_VatCommands :
    (∀ x ∈ ([(0x20, [0x8000, 2 ^ 52, 4096]), (0x21, [8]), (0x28, []), (0x29, [])] : List (Nat × List Nat)),
    let t := startedCmd (commanded (served .running) x.1 x.2) 7
    t.vat? (t.queueVat (hcmd x.1 x.2).fn (hcmd x.1 x.2).q) = some (servedVat .running)) ∧
    bitOf ((hcmd 0x20 [0x8000, 2 ^ 52, 4096]).opd 3) 63 = false ∧ bitOf ((hcmd 0x20 [0x8000, 2 ^ 52, 4096 + 2 ^ 63]).opd 3) 63 = true ∧
      (startedCmd (commanded (served .running) 0x20 [0x8000, 2 ^ 52, 4096 + 2 ^ 63]) 7).vatLoc 1 (2 ^ 52) 4096 false = (0, .t1 0) ∧
      ((startedCmd (commanded (served .running) 0x20 [0x8000, 2 ^ 52, 4096 + 2 ^ 63]) 7).mvRead (.t1 0) 4096).2.2 = 0 ∧ (hcmd 0x20
      [0x8000, 2 ^ 52, 4096]).opd 3 % 2 ^ 32 % 8 = 0 ∧ (startedCmd (commanded (served .running) 0x20 [0x8000, 2 ^ 52, 4096]) 7).vatLoc 1
      (2 ^ 52) 4096 true = (0, .t1 0) ∧ (served .running).host.up = true ∧ (hcmd 0x21 [8]).opd 1 % 8 = 0 ∧ (startedCmd (commanded (served
      .stopped) 0x21 [8]) 7).vats = [servedVat .stopped] ∧ (servedVat .stopped).run = .stopped ∧ (servedVat .stopped).killing = none ∧
      (servedVat .stopped).parent = 0 ∧ (startedCmd (commanded (served .stopped) 0x21 [8]) 7).vatConfirmed 1 = true ∧ (servedVat
      .paused).run = .paused ∧ (servedVat .paused).svcPaused = false ∧ (startedCmd (commanded (served .paused) 0x29 []) 7).vatConfirmed 1
      = true := by decide +kernel

theorem witness_VatCommands_data :
    let c := hcmd 0x23 [0x1000, 1]
    let t := startedCmd (commanded (served .running) 0x23 [0x1000, 1]) 7
    let r := startedCmd (commanded (served .stopped) 0x25 [0, 0, 0, 0x2000]) 7
    t.regionList 1 (c.opd 1) (c.opd 2) true true = (0, [⟨.t1 0, 4096, 0, 0x8000⟩]) ∧ (servedVat .running).stepOpen = false ∧ ({ servedVat
      .running with stepOpen := true } : Vat).run = .running ∧ r.targetOk 0 = true ∧ (r.svc.steps.any fun x => x.vat == 1) = false ∧
      r.regionList 1 0 0 true false = (0, []) ∧ r.vatRecs 1 = [] ∧ (r.targetRead 0 0x2000 64).2 = toBytes ((leBytes 8 1 ++ leBytes 8 1) ++
      List.replicate 48 0) ∧ ldList (r.targetRead 0 0x2000 64).2 0 8 = 1 ∧ ldList (r.targetRead 0 0x2000 64).2 8 8 = 1 ∧ ldList
      (r.targetRead 0 0x2000 64).2 24 8 = 0 ∧ ldList (r.targetRead 0 0x2000 64).2 32 8 = 0 ∧ ldList (r.targetRead 0 0x2000 64).2 40 8 =
      crc32c (ofBytes ((r.targetRead 0 0x2000 64).2.drop 64)) := by decide +kernel

theorem witness_VatCommands_runs :
    let t := startedCmd (commanded (served .running) 0x22 [1, 0x3000]) 7
    let d := t.hostWords 0x3000 8
    let u := startedCmd (commanded (served .running) 0x26 [0x4000]) 7
    let q : State := { served .running with svc := { (served .running).svc with seqs := [⟨1, 5, 3, 1, 0⟩], steps := [⟨1, 7, 1, 0, 0, [],
        true, false, 0, 0, 0, 0⟩] } }
    (t.svc.steps.any fun x => x.vat == 1) = false ∧ (hcmd 0x22 [1, 0x3000]).opd 1 ≠ 0 ∧ d.getD 0 0 < 2 ^ 16 ∧ d.getD 1 0 < 2 ^ 56 ∧ d.getD
      2 0 < 2 ^ 24 ∧ d.getD 3 0 < 2 ^ 32 ∧ t.vatLoc 1 (d.getD 1 0 % 2 ^ 56 + t.ownMod * 2 ^ 56) (16 * max 1 (d.getD 0 0)) false = (0, .t1
      0) ∧ u.batchAt 1 ≠ none ∧ u.seq? 1 (bitsOf ((u.hostWords 0x4000 8).getD 0 0) 31 0) = none ∧ u.hostWords 0x4000 8 = [5 + 2 ^ 32,
      0x5000, 16777215, 0, 2 ^ 32 - 1, 0, 0, 0] ∧ bitsOf (5 + 2 ^ 32) 55 32 + 16777215 ≤ 16777216 ∧ (startedCmd (commanded q 0x27 [5])
      7).svc.reqs = [] ∧ (startedCmd (commanded q 0x27 [5]) 7).seq? 1 ((hcmd 0x27 [5]).opd 1) = some ⟨1, 5, 3, 1, 0⟩ ∧ (q.svc.steps.find?
      fun r => r.vat == (1 : BitVec 8).toNat) = some ⟨1, 7, 1, 0, 0, [], true, false, 0, 0, 0, 0⟩ ∧ (q.shards ⟨1, 7, 1, 0, 0, [], true,
      false, 0, 0, 0, 0⟩ (servedVat .running)).2 = [] ∧ q.vat? (1 : BitVec 8).toNat = some (servedVat .running) ∧ q.batchAt (1 : BitVec
      8).toNat = some (0, 1024 * 2 ^ 21) ∧ mget 0 q.svc.rounds (1 : BitVec 8).toNat = 2 * 0 := by decide +kernel

/-- A run of the step loop whose bucket table at T1 offset 0 names two FP32 elements at offset 64 and tree 2, in a phase of its
exchange, and its only shard; the sink of the tree is there where `sink` says so. -/
def bucketRun (phase sent : Nat) : StepRun := ⟨1, 7, 1, 0, 0, [1, w64 (2 ^ 52)], true, false, 0, phase, 0, sent⟩
def shard : Shard := ⟨0, 0, 0, 2, 2 ^ 52 + 64, 0, 2⟩
def stepping (phase sent sink : Nat) : State :=
  let s := sets (served .running) [(Reg.CH_SINK_VALID, 0, 0, sink), (Reg.CH_SINK_VAT, 0, 0, 1), (Reg.CH_SINK_TREE, 0, 0, 2)]
  let s := s.stBytes (t1Key 0) (toBytes (leBytes 8 (2 ^ 52 + 64) ++ leBytes 8 (8 + 2 * 2 ^ 32)))
  { s with svc := { s.svc with steps := [bucketRun phase sent] } }

theorem witness_VatCommands_steps :
    let s := stepping 2 0 1
    let q := (s.shards (bucketRun 2 0) (servedVat .running)).1
    let e := sets (stepping 1 0 1) [(Reg.CH_VAT_MODE, 0, 1, 1), (Reg.EXP_BIND_VALID, 0, 0, 1), (Reg.EXP_BIND_VAT, 0, 0, 1)]
    let g := (e.shards (bucketRun 1 0) (servedVat .running)).1
    s.vat? (1 : BitVec 8).toNat = some (servedVat .running) ∧ (s.svc.steps.find? fun r => r.vat == (1 : BitVec 8).toNat) = some (bucketRun
      2 0) ∧ (s.shards (bucketRun 2 0) (servedVat .running)).2 = [shard] ∧ (s.loopClu).isSome = true ∧ q.loopClu = s.loopClu ∧
      ((q.contribute (q.loopClu.getD 0) 1 0 (s.chMode 0 1) (q.lanesOf 1) shard).map fun w => w.shardOpen 1 0 shard) = some true ∧
      (([shard] : List Shard).any (((stepping 2 1 1).shards (bucketRun 2 1) (servedVat .running)).1.shardOpen 1 0)) = true ∧ (([shard] :
      List Shard).any (((stepping 2 1 0).shards (bucketRun 2 1) (servedVat .running)).1.shardOpen 1 0)) = false ∧ e.chMode 0 1 = 1 ∧
      (e.shards (bucketRun 1 0) (servedVat .running)).2 ≠ [] ∧ (g.sealExps (bucketRun 1 0) 0 (g.lanesOf 1)).2 = false ∧ ({ bucketRun 0 0
      with svcCalled := false } : StepRun).svcCalled = false := by decide +kernel

theorem witness_SystemOfModules :
    let s := inSystem 5
    let f := s.wr Reg.FN_SYS_FORMED 0 0
    let g : State := { f with host := { f.host with announced := (List.range 16) } }
    let l := s.wr Reg.FN_SYS_LEAD 0 4
    let m : State := { s with host := { s.host with upMods := [5, 63] } }
    let x : State := { s with age := 54000000000, host := { s.host with leadLostAt := some 0 } }
    s.host.up = true ∧ (s.wr Reg.FN_SYS_LEAD 0 5).isLead = true ∧ s.buSt = 12 ∧ s.host.inSystem = true ∧ (15 : BitVec 6).toNat ≠ s.ownMod
      ∧ (15 : BitVec 6).toNat < 16 * s.host.depthZ ∧ f.rd Reg.FN_SYS_FORMED 0 = 0 ∧ s.rd Reg.FN_SYS_FORMED 0 = 1 ∧ s.host.upMods.contains
      (15 : BitVec 6).toNat = false ∧ g.host.leadLostAt = none ∧ g.host.announced.length = 16 * g.host.depthZ ∧ (([5, 9] : List
      Nat).filter g.host.announced.contains).min? = some 5 ∧ g.ownMod = 5 ∧ (3 : BitVec 6).toNat ≠ f.ownMod ∧ f.host.leadLostAt = none ∧
      ([3] : List Nat).contains f.ownMod = false ∧ l.rd Reg.FN_SYS_LEAD 0 ≠ l.ownMod ∧ l.rd Reg.FN_SYS_FORMED 0 = 1 ∧ l.vats = [] ∧
      m.host.upMods.contains (63 : BitVec 6).toNat = true ∧ m.vats = [] ∧ x.host.leadLostAt = some 0 ∧ 0 + 54000000000 ≤ x.age
  := by decide +kernel

def update (interrupted : Bool) : UpdateIn := ⟨false, [], 0, 0, 0, ⟨true, true⟩, interrupted⟩

theorem witness_Management :
    2 ≤ live.buSt ∧ (3 : BitVec 2).toNat < (4 : BitVec 3).toNat ∧ (∀ b : Bool, (update b).culture = false ∧ (update b).interrupted = b) ∧
      (live.wr Reg.LC_STATUS_STATE 0 1).rd Reg.LC_STATUS_STATE 0 ≠ 0 ∧
    (
    let s : State := { live.wr Reg.CM_CTL_ENABLE 0 1 with now := 900000 }
    s.clk.started = true ∧ s.rd Reg.CM_CTL_ENABLE 0 = 1 ∧ s.now / 900000 = s.cong.at_ + 1) := by decide +kernel

/-- A module of a life-cycle state with an owner and a nonce; the body of a token that fits it. -/
def owned (st : Nat) : State :=
  let s := live.wr Reg.LC_STATUS_STATE 0 st
  { s with mgmt := { s.mgmt with ownerKey := some 1, nonce := some (9, 1) }, boot := { s.boot with svc := [{ svn := 1 }, {}] } }
def tokenBody : BitVec 384 := BitVec.ofNat 384 (1 + 2 ^ 4 + 9 * 2 ^ 128 + 86400 * 2 ^ 256)
def sigs : Sigs := ⟨true, true⟩

theorem witness_LifeCycle :
    sigsBoth sigs = true ∧ 2 ≤ (owned 1).buSt ∧ (owned 1).rd Reg.LC_STATUS_STATE 0 = 1 ∧ (owned 2).rd Reg.LC_STATUS_STATE 0 = 2 ∧ (owned
      3).rd Reg.LC_STATUS_STATE 0 = 3 ∧ (owned 3).pwr.lossAt = none ∧ (owned 2).mgmt.ownerKey ≠ none ∧ (owned 2).vats = [] ∧ 1 = ((owned
      2).boot.svc.getD (owned 2).boot.svcInUse {}).svn ∧ (owned 2).mgmt.svcMin < 1 ∧ (owned 2).rd Reg.LC_SVN_SVN_STEPS_SVC 0 < 32 ∧ (owned
      2).tokenOk tokenBody.toNat = true ∧ bitOf ((owned 2).rd Reg.LC_SVN_KEY_REVOKED 0) (3 : BitVec 2).toNat = false ∧ ((List.range
      4).filter fun k => !bitOf ((owned 2).rd Reg.LC_SVN_KEY_REVOKED 0) k) ≠ [(3 : BitVec 2).toNat] ∧ mget 0 (owned 3).mgmt.grades (dieKey
      35 6) = 0 ∧ ({ bad := true, crcOk := true, clearLanes := [], clearGroups := [], clearEdges := [], digest := 1 } : Grade).crcOk =
      true ∧
    (
    let s : State := { sets live [(Reg.LC_STATUS_STATE, 0, 0, 2), (Reg.TR_FP_PRESENCE_OPEN, 0, 0, 1)] with mgmt := { live.mgmt with
        presenceEnd := 1 } }
    2 ≤ s.buSt ∧ s.rd Reg.LC_STATUS_STATE 0 = 2 ∧ s.mgmt.ownerKey = none ∧ s.rd Reg.TR_FP_PRESENCE_OPEN 0 = 1 ∧ s.age <
        s.mgmt.presenceEnd) ∧
    (
    let s : State := { live with mgmt := { live.mgmt with token := some 0 } }
    s.mgmt.token ≠ none ∧ s.mgmt.tokenEnd ≤ s.age ∧ 2 ≤ s.buSt) := by decide +kernel

theorem witness_ThermalAndTray :
    let x : TempSample := ⟨0, List.replicate 31 40⟩
    let live0 := (List.range x.readings.length).filter fun i => decide (28 ≤ i) || live.dieOn x.tile.val (i / 4)
    let cut : State := { input 0 54000000000 with tray := { cutAt := some 0 } }
    live.vlnk x.tile.val = true ∧ live0 ≠ [] ∧ live0.foldl (fun m i => max m (x.readings.getD i 0)) 0 = 40 ∧ 2 ≤ live.buSt ∧
    (
    let s : State := { live with age := 540000000000 }
    s.tray.savedAt + 540000000000 ≤ s.age) ∧
    0 < 1023 ∧ 1023 < 2 ^ 10 ∧ live.cellOn 0 = true ∧ live.pwr.hot = [] ∧
    (
    let s : State := { live with pwr := { live.pwr with hot := [0] } }
    s.pwr.hot = [0] ∧ s.pwr.limiting = []) ∧
    (input 2 0).fuseLive = true ∧ cut.tray.cutAt = some 0 ∧ 0 + 54000000000 ≤ cut.age ∧ 549 < 550 ∧ cut.restarts < 3 ∧ cut.pwr.pin = true
      ∧ cut.pwr.inputGone = false ∧ cut.pwr.ovAt = none ∧ cut.pwr.lossAt = none ∧ cut.rd Reg.IN_STATUS_EFUSE 0 = 0 ∧ cut.rd
      Reg.TR_CMP_LOCKOUT 0 = 0 ∧ cut.rd Reg.RM_STATUS_PHASE 0 = 0 ∧
    (
    let s : State := { cut with tray := { cut.tray with restartAt := [1, 2, 3] } }
    3 ≤ s.restarts) ∧
    (input 0 0).pwr.mated = true ∧
    (
    let s := live.wr Reg.TR_FP_PRESENCE_OPEN 0 1
    s.rd Reg.TR_FP_PRESENCE_OPEN 0 = 1 ∧ s.mgmt.presenceEnd ≤ s.age) := by decide +kernel

/-! ### Witnesses: pails, poison, frames -/

theorem witness_FixedPails :
    slotOf (coreKey (core 4)) < 5 ∧ (fp 63).slot.toNat ≤ 4 ∧ (fp 63).rs3 = 0 ∧ (fp 63).sigCtr = 0 ∧ (fp 63).sigEn = false ∧ (fp 63).rsv =
      0 ∧ (fp 63).pail = 63 := by decide +kernel

theorem witness_FixedPails_fetches : Fetches live (cluKey clu) ∧ Fetches liveVat (cluKey clu) := ⟨witness_fetches, witness_fetches_priv⟩
/-- The last line of T1 poisoned. -/
def poisonedLine : State := { live with tier := { live.tier with poison := [(t1Key (t1Cap - 64) / 64, 1)] } }

theorem witness_PoisonedLines :
    let lk := t1Key (t1Cap - 64) / 64
    t1Cap - 64 < t1Cap ∧ mwf 0 poisonedLine.tier.poison = true ∧ mget 0 poisonedLine.tier.poison lk = 1 ∧ t1Cap - 1 + 1 ≤ t1Cap ∧ t1Key
      (t1Cap - 1) / 64 ≤ lk ∧ lk ≤ (t1Key (t1Cap - 1) + 1 - 1) / 64 ∧ (t1Cap - 64) % 64 + 64 ≤ 64 ∧ (t1Cap - 64) % 64 = 0 ∧
      poisonedLine.unitLost ((t1Cap - 64) / 4096 % 24) = false := by decide +kernel

theorem witness_RegisterFrame : registerOnly clu (.add clu (fr 3 1 2)) = true ∧ (live.sc (cluKey clu)).inSH = false ∧
    ∃ t, exec (.add clu (fr 3 1 2)) live = .next t := ⟨by decide, by decide +kernel, _, rfl⟩
theorem witness_StepKeepsSafe : Safe State.reset ∧ ∃ t, step State.reset = .next t := ⟨⟨rfl⟩, _, rfl⟩
/-! ### Ill-formed commands -/

theorem test_wf_refused_registers : Instr.wf (.registerWrite .csr (2 ^ 56) 0) = false ∧ Instr.wf (.registerWrite (.bar 65) 0 0) = false ∧
    Instr.wf (.registerWrite (.bar 0) (2 ^ 16) 0) = false := by decide

theorem test_wf_refused_meter : Instr.wf (.meterTick [⟨0, 0, [0], List.replicate 7 (List.replicate 4 ⟨0, 0, 0⟩)⟩]) = false ∧
    Instr.wf (.meterTick [⟨0, 0, List.replicate 7 0, List.replicate 6 (List.replicate 4 ⟨0, 0, 0⟩)⟩]) = false ∧
    Instr.wf (.meterTick [⟨0, 0, List.replicate 7 0, List.replicate 7 (List.replicate 3 ⟨0, 0, 0⟩)⟩]) = false := by decide

theorem test_wf_refused_self_test : Instr.wf (.selfTest ⟨[7], [], [], [], 0, [], []⟩) = false ∧
    Instr.wf (.selfTest ⟨[], [288], [], [], 0, [], []⟩) = false ∧ Instr.wf (.selfTest ⟨[], [], [15], [], 0, [], []⟩) = false ∧
    Instr.wf (.selfTest ⟨[], [], [], [36], 0, [], []⟩) = false := by decide

theorem test_wf_refused_lanes : Instr.wf (.selfTest ⟨[], [], [], [], 0, [1152 * 16384], []⟩) = false ∧
    Instr.wf (.selfTest ⟨[], [], [], [], 0, [], [1152 * 8]⟩) = false ∧
    Instr.wf (.bistComplete 0 0 ⟨true, 1, 0, false, [2 * 16384], []⟩) = false ∧
    Instr.wf (.bistComplete 0 0 ⟨true, 1, 0, false, [], [16]⟩) = false := by decide

theorem test_wf_refused_training : Instr.wf (.memTrain ⟨[24], [], []⟩) = false ∧ Instr.wf (.memTrain ⟨[], [72], []⟩) = false ∧
    Instr.wf (.memRestore ⟨[24], [], []⟩) = false ∧ Instr.wf (.memRestore ⟨[], [72], []⟩) = false := by decide

theorem test_wf_refused_lists : Instr.wf (.thermalSample [⟨0, []⟩]) = false ∧ Instr.wf (.timeMasterChange [64]) = false := by decide

theorem test_wf_refused_queues : Instr.wf (.sqTailDoorbell 65 0 0) = false ∧ Instr.wf (.cqHeadDoorbell 65 0 0) = false ∧
    Instr.wf (.queueEnable 65 0) = false ∧ Instr.wf (.queueDisable 65 0) = false := by decide

theorem test_wf_accepted : Instr.wf (.registerWrite .csr 0xE0001710000010 1) = true ∧ Instr.wf (.registerWrite (.bar 64) 0xFFF8 1) = true ∧
    Instr.wf (.selfTest ⟨[0, 286], [], [], [35], 0, [], []⟩) = true ∧ Instr.wf .lifeCounterSave = true := by decide

/-- No row of the table has bits. -/
theorem test_no_word_is_a_command (n w : Nat) : decodeTableWord n w = none := rfl

/-! ### Words of the S-core (Tables 5.2 to 5.14) -/

/-- The M.MMA of 5.8: class 0x4, opcode 0x01, QUEUE 0, DPAIL 5, DOFF 0x400. -/
theorem test_word_mma : decodeAssyn clu 0x4010005000000400 = some (.cmdEntryCreate clu true 1 ⟨0, 0, 0, 5, 0, 0x400⟩) := by decide

/-- Class and opcode in bits 63:60 and 59:52, RD, RS1, RS2 from bits 51, 46 and 41 down: ADD x7, x5, x6; LI x5, 0x31; LD x3, 8(x1). -/
theorem test_words : decodeAssyn clu (w64 (0x02 * 2 ^ 52 + 7 * 2 ^ 47 + 5 * 2 ^ 42 + 6 * 2 ^ 37)) = some (.add clu ⟨7, 5, 6, 0, 0, 0⟩) ∧
    decodeAssyn clu (w64 (0x17 * 2 ^ 52 + 5 * 2 ^ 47 + 0x31)) = some (.li clu ⟨5, 0, 0x31⟩) ∧
    decodeAssyn clu (w64 (2 * 2 ^ 60 + 0x04 * 2 ^ 52 + 3 * 2 ^ 47 + 1 * 2 ^ 42 + 8)) = some (.ld clu ⟨3, 1, false, 0, 8⟩) := by decide

/-- ILLEGAL (R122, R124): a word of zeros, a reserved class, a reserved opcode, an unused field that is not 0, RM = 4. -/
theorem test_words_illegal : ∀ w ∈ ([0, 0xF * 2 ^ 60 + 2 ^ 52, 0xFF * 2 ^ 52, 0x02 * 2 ^ 52 + 1, 0x30 * 2 ^ 52 + 4 * 2 ^ 29] : List Nat),
    decodeAssyn clu (w64 w) = none := by decide

/-! ### Names and addresses (the worked examples of 1.6, 7.8, 9.2, 19.3) -/

/-- Core id 0x1D93: tile index 23, site 4, cluster 2, slot 3. -/
theorem test_core_id : cidTile 0x1D93 = 23 ∧ cidSite 0x1D93 = 4 ∧ cidClu 0x1D93 = 2 ∧ cidSlot 0x1D93 = 3 ∧ mkCid 23 4 2 3 = 0x1D93 := by
  decide

/-- The scratch address of that core, and the T2 page of the worked example of 7.8. -/
theorem test_panel_addresses : decodePa 0x1D93123400 = some (.scr 0x1D93 0x123400) ∧
    decodePa 0x2003A89E540000 = some (.t2 29 0x89E540000) ∧ decodePa 0x40000000000000 = none := by decide

/-- CTR5 of cluster 2 on physical site 6 of tile 23, and the west skew record of the tile. -/
theorem test_register_addresses : csrFind 0xE0001763240028 = some (.cmdCounter, 23 * 32 + 6 * 4 + 2, 0x28) ∧
    csrFind 0xE0001771300058 = some (.clock, 23, 0x58) := by decide

/-- Fields 5, 2, 3, 3, 3, 0 make RR 0x36D5; the packets of the transfer have 33, 33 and 17 flits. -/
theorem test_route : packRoute [5, 2, 3, 3, 3] = 0x36D5 ∧ (List.range 6).map (routeFld 0x36D5) = [5, 2, 3, 3, 3, 0] ∧
    ([8192, 8192, 4096].map fun n => Pkt.flits { blankPkt with len := n }) = [33, 33, 17] := by decide

/-- DADDR 0x0000_0B48_0300_1000: offset 0x1000 of pail 3 of core 0x2D20. -/
theorem test_pail_address : pailAddr 0x00000B4803001000 = ⟨0x1000, 3, 0x2D20, 0, 0⟩ := by decide

/-- The injection entry of 8.9 names slot 50 and link group 0. -/
theorem test_injection_entry : injSlot 0xEDB8080000800032 = 50 ∧ injLg 0xEDB8080000800032 = 0 := by decide

/-! ### Numbers -/

/-- The WIDE word of 2.13 in FP32 and in BF16. -/
theorem test_wide : (fpRound fp32 0 0 false (wideVal 0x040B0000000000000024000100000000)).1 = 0x40100004 ∧
    (fpRound bf16 0 0 false (wideVal 0x040B0000000000000024000100000000)).1 = 0x4010 := by decide

/-- The descriptor words of 5.8. -/
theorem test_descriptor : let d := [0x0000000401108202, 0x000000FFF0FF03FF]
    mM d = 1024 ∧ mN d = 256 ∧ mK d = 4096 ∧ mFmtA d = 4 ∧ mFmtB d = 4 ∧ mFmtOut d = 2 ∧ mSat d = true := by decide

set_option maxRecDepth 20000 in
/-- The check value that CRC-32C has for the nine digits. -/
theorem test_crc32c : crc32c [0x31, 0x32, 0x33, 0x34, 0x35, 0x36, 0x37, 0x38, 0x39] = 0xE3069283 := by decide

/-- The turning points 40, 85, 48, 80, 35 close the cycle of 32 K (17.5). -/
theorem test_rainflow : rainflow 64 [35, 80, 48, 85, 40] = ([32], [35, 85, 40]) := by decide

/-! ### Single commands -/

/-- A register of the S-core after one command on `live`. -/
def after (r : Host.Outcome State Fault Refusal) (n : Nat) : Option Word :=
  match r with
  | .next s => some ((s.sc 0).getX n)
  | _ => none

/-- `live` with x5 and x6 set. -/
def withXs (a b : Word) : State := live.setSc 0 (((live.sc 0).setX 5 a).setX 6 b)

/-- R125: results wrap. -/
theorem test_add_wraps : after (exec (.add ⟨0, 0, 0⟩ ⟨7, 5, 6, 0, 0, 0⟩) (withXs (BitVec.allOnes 64) 3)) 7 = some 2 := by decide

/-- R125: a quotient by 0 is all ones, a remainder by 0 is the dividend. -/
theorem test_div_by_zero : after (exec (.div ⟨0, 0, 0⟩ ⟨7, 5, 6, 0, 0, 0⟩) (withXs 9 0)) 7 = some (BitVec.allOnes 64) ∧
    after (exec (.rem ⟨0, 0, 0⟩ ⟨7, 5, 6, 0, 0, 0⟩) (withXs 9 0)) 7 = some 9 := by decide

/-- R125: shifts use bits 5:0 of the amount. -/
theorem test_shift_amount : after (exec (.shl ⟨0, 0, 0⟩ ⟨7, 5, 6, 0, 0, 0⟩) (withXs 3 65)) 7 = some 6 := by decide

/-- R125: bits 127:64 of the full unsigned product. -/
theorem test_mulhu : after (exec (.mulhu ⟨0, 0, 0⟩ ⟨7, 5, 6, 0, 0, 0⟩) (withXs (BitVec.allOnes 64) (BitVec.allOnes 64))) 7 =
    some (BitVec.allOnes 64 - 1) := by decide

/-- Writes to x0 are discarded. -/
theorem test_x0 : after (exec (.add ⟨0, 0, 0⟩ ⟨0, 5, 6, 0, 0, 0⟩) (withXs 1 2)) 0 = some 0 := by decide

/-- Table 18.8: 32,022 W at 30 L/min with the inlet at 42 °C and OUT_LIMIT 60, 13,876 W at 13 L/min. -/
theorem test_thermal_limit :
    ((ready.wr Reg.TR_CTL_OUT_LIMIT 0 60).doThermalForecast 420 500 300).rd Reg.TR_FCST_THERM_LIMIT_W 0 = 32022 ∧
    ((ready.wr Reg.TR_CTL_OUT_LIMIT 0 60).doThermalForecast 420 500 130).rd Reg.TR_FCST_THERM_LIMIT_W 0 = 13876 := by decide

end Sys2Proof.Tests
end

section
/-! PROOFS. Registers, doorbells and queues (16.2, 16.3): the panel addresses of the base dies' CSR blocks, writes under the
access codes of Table 0.4, the CSR window, and the host queues' enable, disable, doorbells and function reset. -/

namespace Sys2Proof.Machine

/-! ### Register fields -/

/-- A write leaves the other fields of its record: those of the block at another offset or bit. -/
theorem rd_wr_of_place_ne (s : State) (f g : Fld) (i v : Nat) (hb : f.blk = g.blk)
    (h : f.off * 64 + f.lo ≠ g.off * 64 + g.lo) : (s.wr f i v).rd g i = s.rd g i := by
  apply rd_wr_ne
  simp only [fkey, hb]
  omega

/-- Reading a field back whose value fits its width. -/
theorem rd_wr_self_of_lt (s : State) (f : Fld) (i v : Nat) (h : v < 2 ^ f.w) : (s.wr f i v).rd f i = v := by
  rw [rd_wr_self, Nat.mod_eq_of_lt h]

theorem rd_with_host (s : State) (h : HostPort) (f : Fld) (i k : Nat) : State.rd { s with host := h } f i k = s.rd f i k := rfl

@[simp] theorem queueVat_wr_cfgEnable (s : State) (i v fn q : Nat) :
    (s.wr Reg.Q_CFG_ENABLE i v).queueVat fn q = s.queueVat fn q := by
  have hne : fkey Reg.Q_CFG_ENABLE i 0 ≠ fkey Reg.Q_CFG_VAT (qInst fn q) 0 := by
    simp only [fkey, Reg.Q_CFG_ENABLE, Reg.Q_CFG_VAT]
    omega
  simp only [State.queueVat, rd_wr_ne _ _ _ _ _ _ _ _ hne, wr_host]

/-! ### Addresses of the base dies' blocks (R31, Table 19.1) -/

/-- The panel address of offset `x` in block `b` of tile `t`'s base die. -/
def baseCsr (t b x : Nat) : Nat := 0xE * 2 ^ 52 + t * 2 ^ 32 + 7 * 2 ^ 28 + b * 2 ^ 20 + x

section
variable {t b x : Nat} (ht : t < 36) (hb : b < 2 ^ 8) (hx : x < 2 ^ 20)
include ht hb hx

/-- The parts of a base-die address that the checks of R31 look at. -/
theorem baseCsr_parts : bitsOf (baseCsr t b x) 55 52 = 0xE ∧ bitsOf (baseCsr t b x) 51 38 = 0 ∧
    bitOf (baseCsr t b x) 31 = false ∧ bitsOf (baseCsr t b x) 37 32 = t ∧ baseCsr t b x % 8 = x % 8 ∧
    baseCsr t b x < 2 ^ 56 := by
  refine ⟨?sel, ?mid, ?low, ?tile, ?align, ?small⟩
  case low => exact decide_eq_false (by simp only [baseCsr]; omega)
  all_goals simp only [bitsOf, baseCsr]; omega

theorem csrFind_baseCsr : csrFind (baseCsr t b x % 2 ^ 38) = csrBase t b x := by
  have tile : bitsOf (baseCsr t b x % 2 ^ 38) 37 32 = t := by simp only [bitsOf, baseCsr]; omega
  have base : bitsOf (baseCsr t b x % 2 ^ 38) 30 28 = 7 := by simp only [bitsOf, baseCsr]; omega
  have block : baseCsr t b x % 2 ^ 38 % 2 ^ 28 / 2 ^ 20 = b := by simp only [baseCsr]; omega
  have offset : baseCsr t b x % 2 ^ 38 % 2 ^ 28 % 2 ^ 20 = x := by simp only [baseCsr]; omega
  simp only [csrFind, tile, base, block, offset, if_true]

theorem csrLive_baseCsr (s : State) : s.csrLive (baseCsr t b x % 2 ^ 38) = s.vlnk t := by
  have tile : bitsOf (baseCsr t b x % 2 ^ 38) 37 32 = t := by simp only [bitsOf, baseCsr]; omega
  have base : bitsOf (baseCsr t b x % 2 ^ 38) 30 28 = 7 := by simp only [bitsOf, baseCsr]; omega
  rw [State.csrLive, tile, base]
  simp

/-- A write of a block of a base die with VLNK is a write of its register. -/
theorem csrWrite_baseCsr (s : State) (v : Nat) {k : Blk} {i off : Nat} (hv : s.vlnk t = true)
    (hf : csrBase t b x = some (k, i, off)) : s.csrWrite (baseCsr t b x % 2 ^ 38) v = s.regWrite k i off v := by
  rw [State.csrWrite, csrLive_baseCsr ht hb hx, hv, csrFind_baseCsr ht hb hx, hf]
  rfl

/-- So is a store at its aligned panel address. -/
theorem csrStore_baseCsr (s : State) (v : Nat) {k : Blk} {i off : Nat} (h8 : x % 8 = 0) (hv : s.vlnk t = true)
    (hf : csrBase t b x = some (k, i, off)) : s.csrStore (baseCsr t b x) v = s.regWrite k i off v := by
  obtain ⟨sel, mid, low, tile, align, small⟩ := baseCsr_parts ht hb hx
  rw [State.csrStore, if_pos ⟨sel, mid, by simp [low], by omega, by omega, small⟩, csrWrite_baseCsr ht hb hx s v hv hf]

end

/-! ### Writes (R7, Table 0.4) -/

/-- A write of a register whose fields are all read-only changes nothing. -/
theorem wrFields_of_readOnly (s : State) (b : Blk) (i off v : Nat) (h : ∀ e ∈ fldsAt b off, e.1.acc = .ro) :
    s.wrFields b i off v = s := by
  unfold State.wrFields
  generalize fldsAt b off = l at h
  induction l with
  | nil => rfl
  | cons e r ih =>
    have he : s.wrAcc e.1 i e.2 (v / 2 ^ e.1.lo % 2 ^ e.1.w) = s := by simp [State.wrAcc, h e List.mem_cons_self]
    simp only [State.each, List.foldl_cons, he]
    exact ih fun e' h' => h e' (List.mem_cons_of_mem _ h')

/-- LG_CAP with a cap in range and CFG_CLAMP written 0. -/
theorem capWrite_of_cap (s : State) (v w : Nat) (hw : v % 2 ^ 16 = w) (hi : w ≤ 17500) : s.capWrite v = s.setCap w := by
  have clamp : bitOf v 15 = false := by simp only [bitOf, decide_eq_false_iff_not]; omega
  have cap : bitsOf v 14 0 = w := by simp only [bitsOf]; omega
  simp [State.capWrite, clamp, cap]

/-- LINJ_STATUS: REFUSED clears where it is written 1, the read-only fields beside it stand. -/
theorem regWrite_linjStatus (s : State) (t v : Nat) : s.regWrite .linkInj t 8 v =
    s.wr Reg.LINJ_STATUS_REFUSED t (s.rd Reg.LINJ_STATUS_REFUSED t - (s.rd Reg.LINJ_STATUS_REFUSED t &&& v / 2 ^ 33 % 2)) := rfl

theorem exec_registerWrite_csr (s : State) (a : Nat) (v : Word) :
    exec (.registerWrite .csr a v) s = .next (s.csrStore a v.toNat) := rfl

theorem exec_capWWrite (s : State) (w : BitVec 15) : exec (.capWWrite w) s = .next (s.setCap w.toNat) := rfl

/-- A write of LG_CAP at its panel address sets the cap. -/
theorem exec_registerWrite_cap (s : State) (v : Word) (w : Nat) (hv : s.vlnk 0 = true) (hw : v.toNat % 2 ^ 16 = w) (hi : w ≤ 17500) :
    exec (.registerWrite .csr (baseCsr 0 0x11 0) v) s = exec (.capWWrite (BitVec.ofNat 15 w)) s := by
  have cap : (BitVec.ofNat 15 w).toNat = w := by rw [BitVec.toNat_ofNat]; omega
  have store : s.csrStore (baseCsr 0 0x11 0) v.toNat = s.regWrite .ledger 0 0 v.toNat :=
    csrStore_baseCsr (by decide) (by decide) (by decide) s _ rfl hv rfl
  have write : s.regWrite .ledger 0 0 v.toNat = s.capWrite v.toNat := rfl
  rw [exec_registerWrite_csr, store, write, capWrite_of_cap s _ w hw hi, exec_capWWrite, cap]

theorem exec_registerWrite_time (s : State) (v : Word) (hv : s.vlnk 0 = true) :
    exec (.registerWrite .csr (baseCsr 0 0x14 0) v) s = .next s := by
  have store : s.csrStore (baseCsr 0 0x14 0) v.toNat = s.regWrite .time 0 0 v.toNat :=
    csrStore_baseCsr (by decide) (by decide) (by decide) s _ rfl hv rfl
  have write : s.regWrite .time 0 0 v.toNat = s.wrFields .time 0 0 v.toNat := rfl
  rw [exec_registerWrite_csr, store, write, wrFields_of_readOnly s _ _ _ _ (by decide)]

/-- Writing 1 to LINJ_STATUS.REFUSED clears it and leaves INJECTED. -/
theorem exec_registerWrite_linjStatus (s : State) (t : Tile) (v : Word) (hv : s.vlnk t.val = true)
    (hr : s.rd Reg.LINJ_STATUS_REFUSED t.val = 1) (h1 : v.toNat / 2 ^ 33 % 2 = 1) :
    ∃ u, exec (.registerWrite .csr (baseCsr t.val 0x0F 8) v) s = .next u ∧ u.mem = s.mem ∧
      u.rd Reg.LINJ_STATUS_REFUSED t.val = 0 ∧ u.rd Reg.LINJ_STATUS_INJECTED t.val = s.rd Reg.LINJ_STATUS_INJECTED t.val := by
  have store : s.csrStore (baseCsr t.val 0x0F 8) v.toNat = s.regWrite .linkInj t.val 8 v.toNat :=
    csrStore_baseCsr t.isLt (by decide) (by decide) s _ rfl hv rfl
  rw [regWrite_linjStatus, hr, h1] at store
  refine ⟨s.wr Reg.LINJ_STATUS_REFUSED t.val (1 - (1 &&& 1)), by rw [exec_registerWrite_csr, store], rfl, ?refused, ?injected⟩
  case refused => rw [rd_wr_self]; rfl
  case injected => simp (disch := decide) only [rd_wr_of_place_ne]

/-! ### The CSR window (R464) -/

theorem exec_csrDataAccess_of_up (s : State) (write : Bool) (v : Word) (h : s.host.up = true) :
    exec (.csrDataAccess write v) s = .next (s.csrWindow write v.toNat) := by
  show Host.Outcome.next (if s.host.up then _ else _) = _
  rw [if_pos h]

/-- An unaligned address is refused. -/
theorem csrWindow_unaligned (s : State) (write : Bool) (v : Nat) (h : s.rd Reg.CSR_ADDR_ADDR 0 % 8 ≠ 0) :
    s.csrWindow write v = (s.wr Reg.CSR_STAT_ERR 0 1).wr Reg.CSR_DATA_DATA 0 0 := by
  simp [State.csrWindow, h]

/-- A window read at a base-die address of the own module, which forms no system. -/
theorem csrWindow_read_baseCsr (s : State) (v : Nat) {t b x : Nat} (ht : t < 36) (hb : b < 2 ^ 8) (hx : x < 2 ^ 20) (h8 : x % 8 = 0)
    (ha : s.rd Reg.CSR_ADDR_ADDR 0 = baseCsr t b x) (hs : s.host.inSystem = false) :
    s.csrWindow false v = (s.csrRead (baseCsr t b x % 2 ^ 38)).1.wr Reg.CSR_DATA_DATA 0 (s.csrRead (baseCsr t b x % 2 ^ 38)).2 := by
  obtain ⟨sel, mid, low, tile, align, small⟩ := baseCsr_parts ht hb hx
  have ht' : t ≤ 35 := by omega
  have own : s.ownMod = 0 := by simp [State.ownMod, hs]
  have modn : bitsOf (baseCsr t b x) 61 56 = 0 := by simp only [bitsOf]; omega
  have mods : s.isModule 0 = true := by simp [State.isModule, own]
  have small' : baseCsr t b x < 2 ^ 62 := by omega
  simp only [State.csrWindow, ha, own, modn, mods, sel, mid, low, tile, align, h8, small', ht']
  rfl

/-- TM_NOW reads CK_T. -/
theorem csrRead_time (s : State) (hv : s.vlnk 0 = true) : s.csrRead (baseCsr 0 0x14 0 % 2 ^ 38) = (s, s.now % 2 ^ 64) := by
  have live : s.csrLive (baseCsr 0 0x14 0 % 2 ^ 38) = true := by rw [csrLive_baseCsr (by omega) (by omega) (by omega), hv]
  have find : csrFind (baseCsr 0 0x14 0 % 2 ^ 38) = some (.time, 0, 0) := csrFind_baseCsr (by omega) (by omega) (by omega)
  have value : s.regValue .time 0 0 = s.now % 2 ^ 64 * 2 ^ 0 + 0 := rfl
  have flds : ((fldsAt .time 0).filter fun e => decide (e.1 = Reg.CK_SITE_MIN_MARGIN)) = [] := by decide
  simp only [State.csrRead, live, find, flds, value, State.each]
  simp

theorem csrWindow_read_time (s : State) (v : Nat) (ha : s.rd Reg.CSR_ADDR_ADDR 0 = baseCsr 0 0x14 0) (hs : s.host.inSystem = false)
    (hv : s.vlnk 0 = true) : s.csrWindow false v = s.wr Reg.CSR_DATA_DATA 0 (s.now % 2 ^ 64) := by
  rw [csrWindow_read_baseCsr s v (by omega) (by omega) (by omega) rfl ha hs, csrRead_time s hv]

/-! ### Queues (R465, R466) -/

/-- The checks of R465 do not read ENABLE. -/
@[simp] theorem queueCheck_wr_cfgEnable (s : State) (fn q v : Nat) :
    (s.wr Reg.Q_CFG_ENABLE (qInst fn q) v).queueCheck fn q = s.queueCheck fn q := by
  simp (disch := decide) only [State.queueCheck, queueVat_wr_cfgEnable, rd_wr_of_place_ne, State.topLevel, State.vfBound, vat_wr,
    wr_host]
  rfl

/-- The codes of R465 fit ERR. -/
theorem queueCheck_lt (s : State) (fn q : Nat) : s.queueCheck fn q < 8 := by
  simp only [State.queueCheck]
  split_ifs <;> omega

theorem haltQueue_mem (s : State) (fn q err : Nat) : (s.haltQueue fn q err).mem = s.mem := rfl

theorem haltQueue_halted (s : State) (fn q err : Nat) : (s.haltQueue fn q err).rd Reg.Q_STATUS_HALTED (qInst fn q) = 1 := by
  simp (disch := decide) only [State.haltQueue, rd_wr_of_place_ne, rd_wr_self_of_lt]

theorem haltQueue_err (s : State) (fn q err : Nat) (h : err < 8) : (s.haltQueue fn q err).rd Reg.Q_STATUS_ERR (qInst fn q) = err :=
  rd_wr_self_of_lt _ _ _ _ h

theorem haltQueue_enabled (s : State) (fn q err : Nat) :
    (s.haltQueue fn q err).rd Reg.Q_STATUS_ENABLED (qInst fn q) = s.rd Reg.Q_STATUS_ENABLED (qInst fn q) := by
  simp (disch := decide) only [State.haltQueue, rd_wr_of_place_ne]

/-- The registers of a queue as QUEUE_ENABLE leaves them where every check passes. -/
def State.queueStarted (s : State) (i : Nat) : State :=
  (((((s.wr Reg.Q_CFG_ENABLE i 1).wr Reg.Q_STATUS_SQ_HEAD i 0).wr Reg.Q_STATUS_CQ_TAIL i 0).wr Reg.Q_STATUS_HALTED i 0).wr
    Reg.Q_STATUS_ERR i 0).wr Reg.Q_STATUS_ENABLED i 1

theorem queueStarted_mem (s : State) (i : Nat) : (s.queueStarted i).mem = s.mem := by simp only [State.queueStarted, wr_mem]

theorem queueStarted_rd (s : State) (i : Nat) : (s.queueStarted i).rd Reg.Q_STATUS_ENABLED i = 1 ∧
    (s.queueStarted i).rd Reg.Q_STATUS_HALTED i = 0 ∧ (s.queueStarted i).rd Reg.Q_STATUS_SQ_HEAD i = 0 ∧
    (s.queueStarted i).rd Reg.Q_STATUS_CQ_TAIL i = 0 := by
  unfold State.queueStarted
  refine ⟨?enabled, ?halted, ?head, ?tail⟩ <;> simp (disch := decide) only [rd_wr_self_of_lt, rd_wr_of_place_ne]

theorem doQueueEnable_of_check_eq_zero (s : State) (fn q : Nat) (ha : s.queueAt fn q = true) (ho : s.qOn fn q = false)
    (hc : s.queueCheck fn q = 0) : ∃ h, s.doQueueEnable fn q = { s.queueStarted (qInst fn q) with host := h } := by
  simp only [State.doQueueEnable, ha, ho, queueCheck_wr_cfgEnable, hc]
  exact ⟨_, rfl⟩

/-- A queue that passes the checks is in service with both rings at their start. -/
theorem doQueueEnable_passes (s : State) (fn q : Nat) (ha : s.queueAt fn q = true) (ho : s.qOn fn q = false)
    (hc : s.queueCheck fn q = 0) : (s.doQueueEnable fn q).mem = s.mem ∧
    (s.doQueueEnable fn q).rd Reg.Q_STATUS_ENABLED (qInst fn q) = 1 ∧ (s.doQueueEnable fn q).rd Reg.Q_STATUS_HALTED (qInst fn q) = 0 ∧
    (s.doQueueEnable fn q).rd Reg.Q_STATUS_SQ_HEAD (qInst fn q) = 0 ∧
    (s.doQueueEnable fn q).rd Reg.Q_STATUS_CQ_TAIL (qInst fn q) = 0 := by
  obtain ⟨h, enable⟩ := doQueueEnable_of_check_eq_zero s fn q ha ho hc
  rw [enable]
  simp only [rd_with_host]
  exact ⟨queueStarted_mem s _, queueStarted_rd s _⟩

theorem doQueueEnable_of_check_ne_zero (s : State) (fn q : Nat) (ha : s.queueAt fn q = true) (ho : s.qOn fn q = false)
    (hc : s.queueCheck fn q ≠ 0) :
    s.doQueueEnable fn q = (s.wr Reg.Q_CFG_ENABLE (qInst fn q) 1).haltQueue fn q (s.queueCheck fn q) := by
  simp only [State.doQueueEnable, ha, ho, queueCheck_wr_cfgEnable]
  split
  · contradiction
  · rfl

/-- A queue that fails a check halts with its code. -/
theorem doQueueEnable_fails (s : State) (fn q : Nat) (ha : s.queueAt fn q = true) (ho : s.qOn fn q = false)
    (hc : s.queueCheck fn q ≠ 0) : (s.doQueueEnable fn q).mem = s.mem ∧
    (s.doQueueEnable fn q).rd Reg.Q_STATUS_HALTED (qInst fn q) = 1 ∧
    (s.doQueueEnable fn q).rd Reg.Q_STATUS_ERR (qInst fn q) = s.queueCheck fn q ∧
    (s.doQueueEnable fn q).rd Reg.Q_STATUS_ENABLED (qInst fn q) = s.rd Reg.Q_STATUS_ENABLED (qInst fn q) := by
  rw [doQueueEnable_of_check_ne_zero s fn q ha ho hc]
  refine ⟨haltQueue_mem _ _ _ _, haltQueue_halted _ _ _ _, haltQueue_err _ _ _ _ (queueCheck_lt s fn q), ?_⟩
  simp (disch := decide) only [haltQueue_enabled, rd_wr_of_place_ne]

/-- A disable that waits for no completion ends. -/
theorem settleQueue_of_disabled (s : State) (fn q : Nat) (he : s.rd Reg.Q_CFG_ENABLE (qInst fn q) = 0) (hh : s.host.held = []) :
    s.settleQueue fn q = (s.wr Reg.Q_STATUS_ENABLED (qInst fn q) 0).wr Reg.Q_STATUS_HALTED (qInst fn q) 0 := by
  simp [State.settleQueue, he, hh]

/-- A queue that is not under disable stays. -/
theorem settleQueue_of_enabled (s : State) (fn q : Nat) (he : s.rd Reg.Q_CFG_ENABLE (qInst fn q) = 1) : s.settleQueue fn q = s := by
  simp [State.settleQueue, he]

/-- A disable with no command fetched and no completion held ends at once. -/
theorem doQueueDisable_of_idle (s : State) (fn q : Nat) (ha : s.queueAt fn q = true) (hc : s.host.cmds = []) (hh : s.host.held = []) :
    s.doQueueDisable fn q =
      ((s.wr Reg.Q_CFG_ENABLE (qInst fn q) 0).wr Reg.Q_STATUS_ENABLED (qInst fn q) 0).wr Reg.Q_STATUS_HALTED (qInst fn q) 0 := by
  have noStarted : ((s.wr Reg.Q_CFG_ENABLE (qInst fn q) 0).queueCmds fn q).filter HCmd.started = [] := by simp [State.queueCmds, hc]
  have keep : (s.host.cmds.filter fun c => !(c.fn == fn && c.q == q)) = s.host.cmds := by simp [hc]
  have drop : s.doQueueDisable fn q = (s.wr Reg.Q_CFG_ENABLE (qInst fn q) 0).settleQueue fn q := by
    simp only [State.doQueueDisable, ha, noStarted, State.each, List.foldl_nil, wr_host, keep]
    rfl
  rw [drop, settleQueue_of_disabled _ fn q (rd_wr_self_of_lt _ _ _ _ (by decide)) hh]

theorem doQueueDisable_idle_rd (s : State) (fn q : Nat) (ha : s.queueAt fn q = true) (hc : s.host.cmds = [])
    (hh : s.host.held = []) : (s.doQueueDisable fn q).mem = s.mem ∧
    (s.doQueueDisable fn q).rd Reg.Q_STATUS_ENABLED (qInst fn q) = 0 ∧ (s.doQueueDisable fn q).rd Reg.Q_CFG_ENABLE (qInst fn q) = 0 := by
  rw [doQueueDisable_of_idle s fn q ha hc hh]
  refine ⟨rfl, ?enabled, ?enable⟩ <;> simp (disch := decide) only [rd_wr_of_place_ne, rd_wr_self_of_lt]

/-! ### Doorbells (R466) -/

/-- Is a doorbell of the tail heeded (R466): the queue is of the port, in service, not halted, not under disable? -/
def State.tailHeeded (s : State) (fn q : Nat) : Prop :=
  s.queueAt fn q = true ∧ s.qOn fn q = true ∧ s.rd Reg.Q_STATUS_HALTED (qInst fn q) = 0 ∧ s.rd Reg.Q_CFG_ENABLE (qInst fn q) = 1

/-- A tail beyond the ring halts the queue. -/
theorem doSqTail_beyond (s : State) (fn q tail : Nat) (h : s.tailHeeded fn q) (ht : 2 ^ s.rd Reg.Q_CFG_SQ_LOG2 (qInst fn q) ≤ tail) :
    s.doSqTail fn q tail = s.haltQueue fn q 4 := by
  obtain ⟨port, on, halted, enabled⟩ := h
  simp [State.doSqTail, port, on, halted, enabled, ht]

/-- From the head to the entry after it there is one entry to fetch. -/
theorem ring_step_count {size head : Nat} (h2 : 2 ≤ size) (hh : head < size) : ((head + 1) % size + size - head) % size = 1 := by
  by_cases wrap : head + 1 < size
  · rw [Nat.mod_eq_of_lt wrap, show head + 1 + size - head = 1 + size by omega, Nat.add_mod_right, Nat.mod_eq_of_lt (by omega)]
  · rw [show head + 1 = size by omega, Nat.mod_self, show 0 + size - head = 1 by omega, Nat.mod_eq_of_lt (by omega)]

/-- A tail one entry ahead fetches the entry at the head, or halts the queue where it cannot be read. -/
theorem doSqTail_next (s : State) (fn q size head a : Nat) (h : s.tailHeeded fn q)
    (hs : size = 2 ^ s.rd Reg.Q_CFG_SQ_LOG2 (qInst fn q)) (hd : head = s.rd Reg.Q_STATUS_SQ_HEAD (qInst fn q)) (h2 : 2 ≤ size)
    (hh : head < size) (ha : a = s.rd Reg.Q_SQ_BASE_SQ_BASE (qInst fn q) * 4096 + 64 * head) :
    s.doSqTail fn q ((head + 1) % size) = if s.hostBad a 64 then s.haltQueue fn q 5
      else (s.wr Reg.Q_STATUS_SQ_HEAD (qInst fn q) ((head + 1) % size)).takeEntry fn q
        ((List.range 8).map fun w => s.ld (hostKey (a + 8 * w)) 8) := by
  obtain ⟨port, on, halted, enabled⟩ := h
  have inside : ¬ size ≤ (head + 1) % size := by have := Nat.mod_lt (head + 1) (by omega : 0 < size); omega
  have one : List.range 1 = [0] := rfl
  simp only [State.doSqTail, port, on, halted, enabled, ← hs, ← hd, inside, ring_step_count h2 hh, one, State.each, List.foldl_cons,
    List.foldl_nil, Nat.add_zero, Nat.mod_eq_of_lt hh, ← ha]
  rfl

/-- A CQ head within the ring of a queue in service that holds no completion is noted. -/
theorem doCqHead_of_no_held (s : State) (fn q head : Nat) (ha : s.queueAt fn q = true) (ho : s.qOn fn q = true)
    (he : s.rd Reg.Q_CFG_ENABLE (qInst fn q) = 1) (hd : head < 2 ^ s.rd Reg.Q_CFG_CQ_LOG2 (qInst fn q)) (hh : s.host.held = []) :
    s.doCqHead fn q head = { s with host := { s.host with cqHead := mset 0 s.host.cqHead (qInst fn q) head } } := by
  have noHeld : s.host.held.length = 0 := by simp [hh]
  have flush : s.doCqHead fn q head =
      State.settleQueue { s with host := { s.host with cqHead := mset 0 s.host.cqHead (qInst fn q) head } } fn q := by
    simp only [State.doCqHead, ha, ho, Nat.not_le.2 hd, noHeld, State.flushHeld]
    rfl
  exact flush.trans (settleQueue_of_enabled _ fn q he)

/-! ### Function reset (R472) -/

theorem each_dropService_frame (ids : List Nat) (s : State) : ∃ v, s.each ids State.dropService = { s with svc := v } := by
  induction ids generalizing s with
  | nil => exact ⟨s.svc, rfl⟩
  | cons id r ih => exact (ih (s.dropService id)).imp fun v h => h.trans rfl

/-- A function reset keeps memory and leaves no command of the function. -/
theorem resetFn_mem (s : State) (fn : Nat) : (s.resetFn fn).mem = s.mem := by
  obtain ⟨v, h⟩ := each_dropService_frame ((s.host.cmds.filter fun c => c.fn == fn).map HCmd.id) s
  simp only [State.resetFn, h]

theorem resetFn_cmds (s : State) (fn : Nat) : ∀ c ∈ (s.resetFn fn).host.cmds, c.fn ≠ fn := by
  intro c hc
  have hc : c ∈ List.filter _ _ := hc
  simpa using (List.mem_filter.1 hc).2

/-- PF0's function reset drops the held events too. -/
theorem doPfFlr_zero (s : State) : s.doPfFlr 0 =
    ({ s.resetFn 0 with host := { (s.resetFn 0).host with events := [] } }).wr Reg.FN_EVT_PENDING 0 0 := rfl

/-! ### The commands -/

theorem exec_queueEnable (s : State) (fn : BitVec 7) (q : BitVec 5) :
    exec (.queueEnable fn q) s = .next (s.doQueueEnable fn.toNat q.toNat) := rfl

theorem exec_queueDisable (s : State) (fn : BitVec 7) (q : BitVec 5) :
    exec (.queueDisable fn q) s = .next (s.doQueueDisable fn.toNat q.toNat) := rfl

theorem exec_sqTailDoorbell (s : State) (fn : BitVec 7) (q : BitVec 5) (tail : Nat) :
    exec (.sqTailDoorbell fn q tail) s = .next (s.doSqTail fn.toNat q.toNat tail) := rfl

theorem exec_cqHeadDoorbell (s : State) (fn : BitVec 7) (q : BitVec 5) (head : Nat) :
    exec (.cqHeadDoorbell fn q head) s = .next (s.doCqHead fn.toNat q.toNat head) := rfl

theorem exec_pfFlr_pf0 (s : State) : exec (.pfFlr false) s = .next (s.doPfFlr 0) := rfl

/-! ### The statement -/

/-- Settles O49, clause by clause from the lemmas above. -/
theorem registersAndQueues : Obligations.RegistersAndQueues := by
  intro s
  refine ⟨?cap, ?readOnly, ?clear, ?window, ?queues, ?flr⟩
  case cap => exact fun v w hv hw _ hi => exec_registerWrite_cap s v w hv hw hi
  case readOnly => exact fun v hv => exec_registerWrite_time s v hv
  case clear => exact fun t v hv hr h1 => exec_registerWrite_linjStatus s t v hv hr h1
  case window =>
    intro up v
    refine ⟨fun ha write => ?_, fun ha hs hv => ?_⟩
    · rw [exec_csrDataAccess_of_up s write v up, csrWindow_unaligned s write _ ha]
    · rw [exec_csrDataAccess_of_up s false v up, csrWindow_read_time s _ ha hs hv]
  case queues =>
    intro fn q hq i
    simp only [exec_queueEnable, exec_queueDisable, exec_sqTailDoorbell, exec_cqHeadDoorbell]
    refine ⟨fun off => ⟨fun good => ?passes, fun bad => ?fails⟩, fun hc hh => ?disable,
      fun on halted enabled => ⟨fun tail ht => ?beyond, fun h2 hh => ?fetch, fun h hd held => ?cqHead⟩⟩
    case passes => exact ⟨_, rfl, doQueueEnable_passes s _ _ hq off good⟩
    case fails => exact ⟨_, rfl, doQueueEnable_fails s _ _ hq off bad⟩
    case disable => exact ⟨_, rfl, doQueueDisable_idle_rd s _ _ hq hc hh⟩
    case beyond => rw [doSqTail_beyond s _ _ tail ⟨hq, on, halted, enabled⟩ ht, State.haltQueue]
    case fetch => rw [doSqTail_next s _ _ _ _ _ ⟨hq, on, halted, enabled⟩ rfl rfl h2 hh rfl]
    case cqHead => rw [doCqHead_of_no_held s _ _ h hq on enabled hd held]
  case flr =>
    rw [exec_pfFlr_pf0, doPfFlr_zero]
    exact ⟨_, rfl, rfl, rd_wr_self_of_lt _ _ _ _ (by decide), resetFn_mem s 0, resetFn_cmds s 0⟩

end Sys2Proof.Machine
end

section
/-! PROOFS. The administrative commands of the host (16.3): how a fetched command starts and ends, then for each operation
the case in which it completes as asked. -/

namespace Sys2Proof.Machine

/-! ### How a command that may start runs (R467) -/

section
variable {s : State} {id op : Nat} {c : HCmd} (start : CanStart s id op c) (f : HCmd → State → State × Option (Nat × Nat))
include start

/-- A command that ends at once completes with its status and result. -/
theorem runCmd_ends {u : State} {st r : Nat} (hf : f c (startedCmd s id) = (u, some (st, r))) :
    s.runCmd id op f = u.endCmd c st r := by
  obtain ⟨fetched, opcode, may⟩ := start
  simp only [startedCmd] at hf
  simp [State.runCmd, fetched, opcode, may, hf]

/-- A command that does not end yet stays among the started ones. -/
theorem runCmd_waits {u : State} (hf : f c (startedCmd s id) = (u, none)) : s.runCmd id op f = u := by
  obtain ⟨fetched, opcode, may⟩ := start
  simp only [startedCmd] at hf
  simp [State.runCmd, fetched, opcode, may, hf]

end

theorem vat?_ne_none_of_topLevel {s : State} {vat : Nat} (h : s.topLevel vat = true) : s.vat? vat ≠ none := by
  intro none
  simp [State.topLevel, none] at h

/-! ### VAT_CREATE (R24 to R27, R470) -/

theorem vatCreate_of_hostBad {s : State} {a n : Nat} (h : s.hostBad a n = true) : s.vatCreate a n = (s, some (stIoError, 0)) := by
  simp [State.vatCreate, h, fails]

/-- With no live vat no tile is owned. -/
theorem tileOwned_of_no_vats {s : State} (h : s.vats = []) (w : Nat) : s.tileOwned w = false := by
  simp [State.tileOwned, h]

/-- With no live vat every id but 0 is free. -/
theorem mem_free_ids_of_no_vats {s : State} (h : s.vats = []) {i : Nat} (h0 : i ≠ 0) (hi : i < 256) :
    i ∈ ((List.range 255).map (· + 1)).filter fun i => (s.vat? i).isNone := by
  have inRange : i ∈ (List.range 255).map (· + 1) := List.mem_map.2 ⟨i - 1, List.mem_range.2 (by omega), by omega⟩
  exact List.mem_filter.2 ⟨inRange, by simp [State.vat?, h]⟩

/-- A record of one tile word of the own module places that tile's clusters, and none elsewhere. -/
theorem placed_own_tile {s : State} {w : Nat} (h : bitsOf w 5 0 = s.ownMod) :
    s.placed [w] = (maskClus (bitsOf w 11 6) (bitsOf w 35 12), []) := by
  simp [State.placed, h]

/-- A record of one good tile word and a claim that the ledger takes, with no vat alive. -/
theorem vatCreate_one_tile {s : State} {a w0 w1 w2 : Nat} (good : s.hostBad a 24 = false) (words : s.hostWords a 3 = [w0, w1, w2])
    (h0 : w0 < 2 ^ 32) (h1 : w1 < 2 ^ 32) (count : bitsOf w0 31 16 = 1) (parent : bitsOf w0 15 8 = 0) (vid : bitsOf w0 7 0 ≠ 0)
    (noVats : s.vats = []) (own : bitsOf w2 5 0 = s.ownMod) (up : s.isModule s.ownMod = true) (place : s.placeBad 0 [w2] = false)
    (claim : s.claimRefused 0 w1 = false) :
    s.vatCreate a 24 = (s.placeVat (bitsOf w0 7 0) 0 w1 (maskClus (bitsOf w2 11 6) (bitsOf w2 35 12)) [] [s.ownMod],
      some (stOk, bitsOf w0 7 0)) := by
  have free := mem_free_ids_of_no_vats noVats vid (Nat.mod_lt _ (by decide))
  -- The record names its own, free id; then the test of every refusal is false.
  simp only [State.vatCreate, show 24 / 8 = 3 from rfl, words, List.getD_cons_zero, if_neg vid, List.contains_eq_mem, free, decide_true]
  simp [-Nat.reducePow, good, Nat.not_le.2 h0, Nat.not_le.2 h1, count, parent, vid, own, up, place, claim, tileOwned_of_no_vats noVats,
    placed_own_tile own]

/-! ### The other operations (R189, R421, R455, R472) -/

theorem vfBind_of_unbound {s : State} {vf vat : Nat} (h0 : vf ≠ 0) (top : s.topLevel vat = true) (unbound : s.vfBound vat = false) :
    s.vfBind vf vat = ({ s with host := { s.host with vfVat := mset 0 s.host.vfVat vf vat } }, some (stOk, 0)) := by
  simp [State.vfBind, h0, vat?_ne_none_of_topLevel top, top, unbound]

theorem windowGrant_of_topLevel {s : State} {vat v : Nat} (win : Nat) (top : s.topLevel vat = true) (small : v < 2 ^ 57)
    (clear : grantsSvc v = false) : s.windowGrant vat win v = (s.doGrantWrite vat win v, some (stOk, 0)) := by
  simp [-Nat.reducePow, State.windowGrant, vat?_ne_none_of_topLevel top, top, Nat.not_le.2 small, clear]

theorem hostReset_warm {s : State} (ready : s.buSt = 12) : s.hostReset 5 = (s.doWarmReset, none) := by
  simp [State.hostReset, ready]

theorem logRead_of_up {s : State} {w : Nat} (a : Nat) (area : bitsOf w 1 0 ≠ 3) (low : 1 ≤ bitsOf w 31 19)
    (high : bitsOf w 31 19 ≤ 4096) (up : s.host.up = true) :
    s.logRead w a =
      (s.hostWrite a (toBytes ((((s.logArea (bitsOf w 1 0)).drop (bitsOf w 18 2)).take (bitsOf w 31 19)).flatten.flatMap
          fun x => leBytes 8 x.toNat)),
        some (stOk, (((s.logArea (bitsOf w 1 0)).drop (bitsOf w 18 2)).take (bitsOf w 31 19)).length)) := by
  simp [State.logRead, area, Nat.ne_of_gt low, Nat.not_lt.2 high, up]

theorem eventWait_of_held {s : State} {e : Word} {r : List Word} (h : s.host.events = e :: r) :
    s.eventWait = (State.wr { s with host := { s.host with events := r } } Reg.FN_EVT_PENDING 0 r.length, some (stOk, e.toNat)) := by
  simp [State.eventWait, h]

theorem eventWait_of_none {s : State} (h : s.host.events = [])
    (few : (s.host.cmds.filter fun c => c.started && c.opcode == 7).length ≤ 8) : s.eventWait = (s, none) := by
  simp [State.eventWait, h, Nat.not_lt.2 few]

/-! ### The statement -/

/-- Settles O50: `exec` runs each command by `runCmd`, and its operation answers as the lemmas above say. -/
theorem adminCommands : Obligations.AdminCommands := by
  intro s id c t
  refine ⟨fun start l q hq w0 w1 w2 => ?create, fun start => ?release, fun start vf vat => ?bind, fun start vat => ?grant,
    fun start => ?reset, fun start n => ?log, fun start => ⟨fun e r held => ?event, fun none few => ?wait⟩⟩
  case create =>
    intro bytes words h0 h1 count parent vid noVats own up place claim
    subst hq
    refine congrArg Host.Outcome.next ?_
    cases bad : (t.reserve l).hostBad (c.opd 1) 24 with
    | true => exact runCmd_ends start _ ((congrArg _ bytes).trans (vatCreate_of_hostBad bad))
    | false => exact runCmd_ends start _ ((congrArg _ bytes).trans
        (vatCreate_one_tile bad words h0 h1 count parent vid noVats own up place claim))
  case release =>
    intro live
    exact congrArg Host.Outcome.next (runCmd_ends start _ (if_neg live))
  case bind =>
    rintro rfl rfl h0 top unbound
    exact congrArg Host.Outcome.next (runCmd_ends start _ (vfBind_of_unbound h0 top unbound))
  case grant =>
    rintro rfl top small clear
    exact congrArg Host.Outcome.next (runCmd_ends start _ (windowGrant_of_topLevel _ top small clear))
  case reset =>
    intro scope ready
    exact congrArg Host.Outcome.next (runCmd_waits start _ ((congrArg _ scope).trans (hostReset_warm (s := t) ready)))
  case log =>
    rintro rfl area low high up _ rfl
    exact congrArg Host.Outcome.next (runCmd_ends start _ (logRead_of_up (s := t) _ area low high up))
  case event => exact congrArg Host.Outcome.next (runCmd_ends start _ (eventWait_of_held (s := t) held))
  case wait => exact congrArg Host.Outcome.next (runCmd_waits start _ (eventWait_of_none (s := t) none few))

end Sys2Proof.Machine
end

section
/-! PROOFS. M.MMA (R68, R76, R91): its dispatch, and folds over a scratch without error marks, which neither fail nor leave a mark. -/

namespace Sys2Proof.Machine

/-! ### A core's scratch without error marks (R151 to R155, Table 6.6) -/

/-- No word of a core's scratch has an error mark, and none is about to get one. -/
structure State.Unmarked (s : State) (core : Nat) : Prop where
  hasMarks : s.hasMarks core = false
  inject : s.rd Reg.SCR_CTL_INJECT core = 0

section
variable {s t : State} {core : Nat}

theorem hasMarks_eq_false_of_subset (sub : t.cmp.ecc ⊆ s.cmp.ecc) (h : s.hasMarks core = false) : t.hasMarks core = false := by
  simp only [State.hasMarks, List.any_eq_false] at h ⊢
  exact fun e he => h e (sub he)

/-- A word that gets valid check bits leaves no entry that was not there. -/
theorem setEcc_zero_ecc_subset (s : State) (w : Nat) : (s.setEcc w 0).cmp.ecc ⊆ s.cmp.ecc := by
  simp only [State.setEcc, mset, if_true, merase_eq]
  exact List.filter_subset_self _

/-- A write of another register of the scratch block, such as its error counters. -/
theorem wr_unmarked (h : s.Unmarked core) (f : Fld) (v : Nat) (block : f.blk = .scratch)
    (place : f.off * 64 + f.lo ≠ Reg.SCR_CTL_INJECT.off * 64 + Reg.SCR_CTL_INJECT.lo) : (s.wr f core v).Unmarked core :=
  ⟨h.hasMarks, (rd_wr_of_place_ne s f _ core v block place).trans h.inject⟩

theorem bump_unmarked (h : s.Unmarked core) (f : Fld) (n : Nat) (block : f.blk = .scratch)
    (place : f.off * 64 + f.lo ≠ Reg.SCR_CTL_INJECT.off * 64 + Reg.SCR_CTL_INJECT.lo) : (s.bump f core n).Unmarked core :=
  wr_unmarked h f _ block place

theorem noteUe_unmarked (h : s.Unmarked core) (w src : Nat) : (s.noteUe core w src).Unmarked core := by
  have queued : ({ s with cmp := { s.cmp with ueNew := s.cmp.ueNew ++ [(core * 2 ^ 21 + w, src)] } } : State).Unmarked core :=
    ⟨h.hasMarks, h.inject⟩
  have counted := bump_unmarked queued Reg.SCR_ECC_UNCORRECTED 1 rfl (by decide)
  have lastUe := wr_unmarked counted Reg.SCR_ECC_LAST_UE w rfl (by decide)
  have lastSrc := wr_unmarked lastUe Reg.SCR_ECC_LAST_SRC src rfl (by decide)
  exact wr_unmarked lastSrc Reg.SCR_ECC_UE_NEW 1 rfl (by decide)

theorem setEcc_zero_unmarked (h : s.Unmarked core) (w : Nat) : (s.setEcc w 0).Unmarked core :=
  ⟨hasMarks_eq_false_of_subset (setEcc_zero_ecc_subset s w) h.hasMarks, h.inject⟩

theorem writePart_unmarked (h : s.Unmarked core) (off : Nat) (bs : List Byte) : (s.writePart core off bs).Unmarked core := by
  unfold State.writePart
  split
  · exact h
  · simp only
    split
    · exact noteUe_unmarked h _ _
    · split
      · have corrected : ((s.bump Reg.SCR_ECC_CORRECTED core).setEcc (scrKey core off / 8) 0).Unmarked core :=
          setEcc_zero_unmarked (bump_unmarked h _ 1 rfl (by decide)) _
        exact ⟨corrected.hasMarks, corrected.inject⟩
      · exact ⟨h.hasMarks, h.inject⟩

theorem writeFull_unmarked (h : s.Unmarked core) (off : Nat) (bs : List Byte) : (s.writeFull core off bs).Unmarked core := by
  unfold State.writeFull
  split
  · exact h
  · simp only [h.inject]
    exact ⟨hasMarks_eq_false_of_subset (List.filter_subset_self _) h.hasMarks, h.inject⟩

theorem writeScr_unmarked (h : s.Unmarked core) (off : Nat) (bs : List Byte) : (s.writeScr core off bs).Unmarked core :=
  writePart_unmarked (writeFull_unmarked (writePart_unmarked h _ _) _ _) _ _

theorem writeView_unmarked (h : s.Unmarked core) (p : Pail) (l : Nat) (bs : List Byte) : (s.writeView core p l bs).Unmarked core := by
  unfold State.writeView
  split
  · exact writeScr_unmarked h _ _
  · exact each_keeps (·.Unmarked core) _ (fun _ _ hs => writeScr_unmarked hs _ _) _ s h

end

/-! ### A fold over an unmarked scratch (R68, R91) -/

section
variable {s : State} {core : Nat} (d : List Nat) (run : MRun)

theorem readAll_of_hasMarks (h : s.hasMarks core = false) (l : List (Nat × Nat × Nat)) : s.readAll core l = (s, true) := by
  simp [State.readAll, h]

theorem loadBlk_of_hasMarks (h : s.hasMarks core = false) (nb kb : Nat) :
    s.loadBlk core d nb kb = (s, some (s.blkOf core d nb kb)) := by
  simp [State.loadBlk, readAll_of_hasMarks h]

theorem frontBlk_of_hasMarks (h : s.hasMarks core = false) (nb kb : Nat) : ∃ b, s.frontBlk core d run nb kb = (s, some b) := by
  unfold State.frontBlk
  split
  · split
    · exact ⟨_, rfl⟩
    · exact ⟨_, loadBlk_of_hasMarks d h nb kb⟩
  · exact ⟨_, loadBlk_of_hasMarks d h nb kb⟩

theorem backBlk_of_hasMarks (h : s.hasMarks core = false) (nb mg kb : Nat) : ∃ b, s.backBlk core d nb mg kb = (s, some b) := by
  unfold State.backBlk
  split
  · exact ⟨_, rfl⟩
  · exact ⟨_, by rw [loadBlk_of_hasMarks d h]⟩

theorem buffers_of_hasMarks (h : s.hasMarks core = false) (nb mg kb fr : Nat) :
    ∃ b, s.buffers core d run nb mg kb fr = (s, some b) := by
  obtain ⟨front, hf⟩ := frontBlk_of_hasMarks d run h nb kb
  obtain ⟨back, hb⟩ := backBlk_of_hasMarks d h nb mg kb
  unfold State.buffers
  split
  · exact ⟨_, rfl⟩
  · exact ⟨_, by simp only [hf, hb]; rfl⟩

/-- Nothing that a fold reads fails, and what it writes leaves no mark. -/
theorem doFold_keeps_unmarked (h : s.Unmarked core) : ∃ t r, s.doFold core d run = (t, some r) ∧ t.Unmarked core := by
  unfold State.doFold
  obtain ⟨nb, mg, kb, fr⟩ := mCoord d run.fold
  obtain ⟨b, hb⟩ := buffers_of_hasMarks d run h.hasMarks nb mg kb fr
  simp only [hb, State.foldReads, readAll_of_hasMarks h.hasMarks, Bool.not_true, Bool.false_eq_true, if_false]
  refine ⟨_, _, rfl, ?_⟩
  split
  · exact List.foldlRecOn _ _ (motive := fun z : State × Nat => z.1.Unmarked core) h fun z hz r _ => writeView_unmarked hz _ _ _
  · exact h

/-- A fold over an unmarked scratch moves the run on by one. -/
theorem doFold_of_unmarked (h : s.Unmarked core) : ∃ t r, s.doFold core d run = (t, some r) ∧ t.Unmarked core ∧
    ScrStep core s t ∧ r.fold = run.fold + 1 ∧ r.desc = run.desc ∧ r.anchor = run.anchor := by
  obtain ⟨t, r, fold, unmarked⟩ := doFold_keeps_unmarked d run h
  obtain ⟨step, next⟩ := doFold_step s core d run
  rw [fold] at step next
  obtain ⟨count, desc, anchor, -⟩ := next r rfl
  exact ⟨t, r, fold, unmarked, step, count, desc, anchor⟩

end

/-! ### The folds of one command -/

section
variable {s t : State} {ck q : Nat} {e : QEntry} {d : List Nat} {run r : MRun}

/-- The last fold ends the command's work without a cause. -/
theorem doFolds_succ_of_last (n : Nat) (fold : s.doFold (coreOf ck q) d run = (t, some r)) (last : mFolds d ≤ r.fold) :
    s.doFolds ck q e d (n + 1) run =
      (t.setCore (coreOf ck q) { t.core (coreOf ck q) with run := some r }).endWork ck q e 0 r.arith := by
  simp only [State.doFolds, fold, if_pos last]

/-- After any other fold the rest of the folds follow. -/
theorem doFolds_succ_of_not_last (n : Nat) (fold : s.doFold (coreOf ck q) d run = (t, some r)) (more : r.fold < mFolds d) :
    s.doFolds ck q e d (n + 1) run = t.doFolds ck q e d n r := by
  simp only [State.doFolds, fold, if_neg (Nat.not_le.2 more)]

end

section
variable {ck q : Nat} {e : QEntry} {d : List Nat}

/-- Folds short of the last: the run moves on by their number. -/
theorem doFolds_of_fewer (n : Nat) : ∀ {s : State} {run : MRun}, s.Unmarked (coreOf ck q) → run.fold + n < mFolds d →
    ∃ t r, s.doFolds ck q e d n run = t.setCore (coreOf ck q) { t.core (coreOf ck q) with run := some r } ∧
      ScrStep (coreOf ck q) s t ∧ r.fold = run.fold + n ∧ r.desc = run.desc ∧ r.anchor = run.anchor := by
  induction n with
  | zero => exact fun {s run} _ _ => ⟨s, run, rfl, .refl _ s, rfl, rfl, rfl⟩
  | succ n ih =>
    intro s run unmarked fewer
    obtain ⟨t, r, fold, unmarked, step, count, desc, anchor⟩ := doFold_of_unmarked d run unmarked
    obtain ⟨u, r', rest, step', count', desc', anchor'⟩ := ih unmarked (by omega : r.fold + n < mFolds d)
    exact ⟨u, r', (doFolds_succ_of_not_last n fold (by omega)).trans rest, step.trans step', by omega, desc'.trans desc,
      anchor'.trans anchor⟩

/-- Folds up to the last: the command's work ends without a cause. -/
theorem doFolds_of_enough (n : Nat) : ∀ {s : State} {run : MRun}, s.Unmarked (coreOf ck q) → mFolds d ≤ run.fold + (n + 1) →
    ∃ t r, s.doFolds ck q e d (n + 1) run =
        (t.setCore (coreOf ck q) { t.core (coreOf ck q) with run := some r }).endWork ck q e 0 r.arith ∧
      ScrStep (coreOf ck q) s t := by
  induction n with
  | zero =>
    intro s run unmarked enough
    obtain ⟨t, r, fold, -, step, count, -⟩ := doFold_of_unmarked d run unmarked
    exact ⟨t, r, doFolds_succ_of_last 0 fold (by omega), step⟩
  | succ n ih =>
    intro s run unmarked enough
    obtain ⟨t, r, fold, unmarked, step, count, -⟩ := doFold_of_unmarked d run unmarked
    by_cases last : mFolds d ≤ r.fold
    · exact ⟨t, r, doFolds_succ_of_last _ fold last, step⟩
    · obtain ⟨u, r', rest, step'⟩ := ih unmarked (by omega : mFolds d ≤ r.fold + (n + 1))
      exact ⟨u, r', (doFolds_succ_of_not_last _ fold (by omega)).trans rest, step.trans step'⟩

end

/-- The head whose work has ended. -/
theorem endWork_que (s : State) (ck q : Nat) (e : QEntry) (cause arith : Nat) :
    (s.endWork ck q e cause arith).que (ck * 4 + q) =
      { e with st := .ended cause, arith := arith % 256 } :: (s.que (ck * 4 + q)).tail :=
  que_setQue_self _ _ _

/-! ### Dispatch and progress (R70, R76, R79) -/

section
variable {s : State} {ck q : Nat} {e : QEntry} (n : Nat)

/-- A dispatch that nothing stops: the descriptor is good, the checks pass, M1 is claimed for a twin instruction, and the
pre-pass finds no cause. -/
theorem startMma_of_good (desc : (s.readDesc (coreOf ck q) e).2 = 0) {t u : State} {d : List Nat}
    (ht : t = (s.readDesc (coreOf ck q) e).1) (hd : d = t.descWords (coreOf ck q) e) (checks : (t.mChecks (coreOf ck q) e d).1 = 0)
    (claim : mTwin d = true → (t.core (coreOf ck 1)).twin = true ∨ t.twinFree ck = true)
    (hu : u = if mTwin d then t.setCore (coreOf ck 1) { t.core (coreOf ck 1) with twin := true } else t)
    (scales : (u.prepass (coreOf ck q) d).2.1 = 0) :
    s.startMma ck q e n = (u.prepass (coreOf ck q) d).1.doFolds ck q e d n (u.prepass (coreOf ck q) d).2.2 := by
  have claimed : (mTwin d && !(t.core (coreOf ck 1)).twin && !t.twinFree ck) = false := by
    cases twin : mTwin d with
    | false => rfl
    | true =>
      rcases claim twin with had | free
      · simp [had]
      · simp [free]
  subst ht hd hu
  simp only [State.startMma, desc, checks, claimed, scales, ne_eq, not_true, if_false, Bool.false_eq_true]

variable (running : s.running ck q true 1 = some e) (noSpill : (s.core (coreOf ck q)).spillReq = none)
include running noSpill

theorem doMma_of_not_begun (run : (s.core (coreOf ck q)).run = none) : s.doMma ck q n = s.startMma ck q e n := by
  simp [State.doMma, running, noSpill, run]

theorem doMma_of_begun {run : MRun} (begun : (s.core (coreOf ck q)).run = some run) (prepass : run.prepass = true) :
    s.doMma ck q n = s.doFolds ck q e (run.desc.map BitVec.toNat) n run := by
  simp [State.doMma, running, noSpill, begun, prepass]

end

theorem exec_mMma (c : Clu) (q : Queue) (n : Nat) (s : State) : exec (.mMma c q n) s = .next (s.doMma (cluKey c) q.val n) := rfl

/-- Settles O22: a dispatch is `startMma`, a command that has begun goes on by `doFolds`, and its folds are counted by induction. -/
theorem matrixFolds : Obligations.MatrixFolds := by
  intro c q n s e k core running noSpill
  refine ⟨fun run desc => ?dispatch, fun run begun prepass marks inject => ⟨fun fewer => ?fewer, fun some_folds enough => ?enough⟩,
    fun run t r begun prepass fold last => ?last⟩
  case dispatch =>
    intro t d checks claim u scales
    rw [exec_mMma, doMma_of_not_begun n running noSpill run, startMma_of_good n desc rfl rfl checks claim rfl scales]
  case fewer =>
    obtain ⟨t, r, folds, step, count, desc, anchor⟩ := doFolds_of_fewer (e := e) n ⟨marks, inject⟩ fewer
    rw [exec_mMma, doMma_of_begun n running noSpill begun prepass, folds]
    exact ⟨_, r, rfl, by rw [core_setCore_self], count, desc, anchor, step.que _, step.vats⟩
  case enough =>
    obtain ⟨n, rfl⟩ := Nat.exists_eq_succ_of_ne_zero some_folds
    obtain ⟨t, r, folds, step⟩ := doFolds_of_enough (e := e) n ⟨marks, inject⟩ enough
    rw [exec_mMma, doMma_of_begun _ running noSpill begun prepass, folds]
    exact ⟨_, r.arith % 256, rfl, by rw [endWork_que, que_setCore, step.que], step.vats⟩
  case last =>
    rw [exec_mMma, doMma_of_begun _ running noSpill begun prepass, doFolds_succ_of_last n fold last]

end Sys2Proof.Machine
end

section
/-! PROOFS. The integer registers of the S-core (R109), and its accesses to T1, which leave the cluster as packets (R111, R251, R261). -/

namespace Sys2Proof.Machine

/-! ### Integer registers (R109) -/

@[simp] theorem getX_zero (c : SCore) : c.getX 0 = 0 := rfl

@[simp] theorem setX_zero (c : SCore) (v : Word) : c.setX 0 v = c := rfl

theorem getX_setX_self (c : SCore) {r : Nat} (v : Word) (h : r ≠ 0) : (c.setX r v).getX r = v := by
  simp [SCore.getX, SCore.setX, h]

theorem getX_setX_ne (c : SCore) {r q : Nat} (v : Word) (h : q ≠ r) : (c.setX r v).getX q = c.getX q := by
  unfold SCore.getX SCore.setX
  split
  · rfl
  · split
    · rfl
    · exact mget_mset_ne _ _ _ h.symm

/-- Settles O10: the laws of reading and writing x registers. -/
theorem registerZero : Obligations.RegisterZero := by
  intro sc r q v
  exact ⟨getX_zero sc, setX_zero sc v, getX_setX_self sc v, getX_setX_ne sc v⟩

/-! ### Accesses to T1 -/

/-- The stream of a destination tile is none of the eight of R251. -/
theorem coreStream_streamOf_t1 {m dtile : Nat} (off : Nat) (svc : Bool) (hm : m < 64) (ht : dtile < 64) :
    coreStream (streamOf m (.t1 off) dtile svc) = false := by
  refine decide_eq_false ?_
  simp only [streamOf]
  split <;> omega

section
variable {s : State} {c : Clu} {f : FmtM} {mo : MemOp}

/-- An aligned access at an address of T1 leaves the cluster. -/
theorem smem_of_t1 (fetch : Fetches s (cluKey c)) (rsv : f.rsv = 0) (space : f.space = true) (fp : mo.fp = false) (notAmo : mo.op ≠ opAmo)
    {ea : Word} (hea : ea = (s.sc (cluKey c)).getX f.rs1.toNat + BitVec.ofInt 64 f.imm.toInt) (aligned : ea.toNat % mo.size = 0)
    {m off : Nat} (resolve : (fetched s (cluKey c)).resolve ((fetched s (cluKey c)).vatIdOf (cluKey c)) (s.sc (cluKey c)).priv ea.toNat
      mo.size (mo.op != opLoad) = some (m, .t1 off)) :
    s.smem c f mo = (fetched s (cluKey c)).smemRemote (cluKey c) mo f.rd.toNat ((s.sc (cluKey c)).getX f.rd.toNat) ea m (.t1 off)
      (s.sc (cluKey c)) := by
  have legal : (f.rsv == 0 && (!mo.fp || decide (f.rd.toNat < 16))) = true := by simp [rsv, fp]
  have signed : f.imm.signExtend 64 = BitVec.ofInt 64 f.imm.toInt := rfl
  rw [State.smem, scalar_go _ _ _ _ fetch legal]
  simp [fp, space, notAmo, signed, ← hea, aligned, resolve]

end

/-- What an S-core keeps of an access that it has sent to T1. -/
def t1Acc (t : State) (sc : SCore) (mo : MemOp) (rd : Nat) (data ea : Word) (stream : Nat) : RemAcc :=
  { op := mo.op, redop := mo.redop, data := data, dst := stream, seq := mget 0 sc.seqs stream, addr := ea, isLoad := mo.op == opLoad,
    rd := rd, size := mo.size, signed := mo.signed, fp := mo.fp, priv := sc.priv, since := some t.now }

/-- The S-core after it has numbered and sent an access. -/
def SCore.sent (sc : SCore) (a : RemAcc) : SCore :=
  { sc with seqs := mset 0 sc.seqs a.dst ((a.seq + 1) % 2 ^ 16), accs := sc.accs ++ [a] }

/-- An access to T1 that nothing holds back is sent: a store is over, a load waits (R111). -/
theorem smemRemote_of_t1 {t : State} {k : Nat} {mo : MemOp} {rd : Nat} {data ea : Word} {m off : Nat} {sc : SCore} (hm : m < 64)
    (hold : t.injHeld (ckTile k) (if sc.priv then 3 else 0) (if sc.priv then 0 else t.vatIdOf k) = false)
    (tile : (t.destOf (ea.toNat % 2 ^ 62 + 2 ^ 63)).2 < 64) {a : RemAcc}
    (ha : a = t1Acc t sc mo rd data ea (streamOf m (.t1 off) (t.destOf (ea.toNat % 2 ^ 62 + 2 ^ 63)).2 sc.priv))
    (room : t.mayEnter k (t.smemPkt k a) = true) :
    (mo.op = opStore →
      t.smemRemote k mo rd data ea m (.t1 off) sc = (t.injectFrom k (t.smemPkt k a)).retire k (sc.sent a)) ∧
    (mo.op ≠ opStore → t.smemRemote k mo rd data ea m (.t1 off) sc =
      (t.injectFrom k (t.smemPkt k a)).setSc k { sc.sent a with wait := some .load }) := by
  subst ha
  have noNinth := coreStream_streamOf_t1 off sc.priv hm tile
  simp only [t1Acc] at room
  simp only [State.smemRemote, hold, noNinth, room, Bool.false_eq_true, Bool.false_and, Bool.not_true, if_false, t1Acc, SCore.sent]
  exact ⟨fun store => if_pos store, fun load => if_neg load⟩

/-- Settles O13: the access resolves to T1, so it is sent as one packet, by `smem_of_t1` and `smemRemote_of_t1`. -/
theorem remoteMemory : Obligations.RemoteMemory := by
  intro c f s fetch rsv space k sc t ea vat m off st hm aligned resolve hold tile stream seq a room r u
  have sent (mo : MemOp) (ha : a = t1Acc t sc mo f.rd.toNat (sc.getX f.rd.toNat) ea stream) :=
    smemRemote_of_t1 (off := off) hm hold tile ha room
  refine ⟨?store, ?load⟩
  case store =>
    rintro rfl
    refine congrArg Host.Outcome.next ?_
    rw [smem_of_t1 (mo := { op := opStore, size := 8 }) fetch rsv space rfl (by decide) rfl aligned resolve]
    exact (sent { op := opStore, size := 8 } rfl).1 rfl
  case load =>
    rintro rfl
    refine congrArg Host.Outcome.next ?_
    rw [smem_of_t1 (mo := { op := opLoad, size := 8, signed := true }) fetch rsv space rfl (by decide) rfl aligned resolve]
    exact (sent { op := opLoad, size := 8, signed := true } rfl).2 (by decide)

end Sys2Proof.Machine
end

section
/-! PROOFS. The cluster command queues (4.8): an entry at the tail, dispatch, the commands without a descriptor, and the release of a
head by RETRY, SKIP and FLUSH. -/

namespace Sys2Proof.Machine

/-! ### Entry (R113, R116, R131) -/

section
variable {s : State} {ck : Nat} {isM : Bool} {op : Nat} {f : FmtQ}

/-- A legal command for a queue of its class, at an aligned descriptor offset, meets the queue as it stands after the fetch. -/
theorem doCmdEntryCreate_of_legal (fetch : Fetches s ck) (known : (if isM then mOps else vOps).contains op = true) (rsvA : f.rsvA = 0)
    (rsvB : f.rsvB = 0) (sig : isSig isM op = true → f.rs = 0 ∧ f.dpail = 0 ∧ f.doff = 0) (cls : isM = decide (f.queue.toNat < 2))
    {off qk : Nat} (hoff : off = f.doff.toNat + ((s.sc ck).getX f.rs.toNat).toNat) (aligned : off % 64 = 0)
    (hqk : qk = ck * 4 + f.queue.toNat) :
    s.doCmdEntryCreate ck isM op f =
      if 32 ≤ ((fetched s ck).que qk).length then
        if (s.sc ck).fullStall then fetched s ck
        else ((fetched s ck).setSc ck { s.sc ck with fullStall := true }).bump Reg.CQ_STATS_FULL_STALLS qk
      else ((fetched s ck).setQue qk ((fetched s ck).que qk ++ [⟨isM, op, f.dpail.toNat, off, (s.sc ck).cmdtag.toNat % 2 ^ 32,
        (s.sc ck).cmdwait, (s.sc ck).cmdsig, (s.sc ck).priv, .waiting, 0, false, false, false, false, 0, []⟩])).retire ck (s.sc ck) := by
  have plain : (!isSig isM op || (f.rs == 0 && f.dpail == 0 && f.doff == 0)) = true := by
    cases hs : isSig isM op with
    | false => rfl
    | true =>
      obtain ⟨rs, dpail, doff⟩ := sig hs
      simp [rs, dpail, doff]
  have legal : ((if isM then mOps else vOps).contains op && f.rsvA == 0 && f.rsvB == 0 &&
      (!isSig isM op || (f.rs == 0 && f.dpail == 0 && f.doff == 0))) = true := by
    rw [known, rsvA, rsvB, plain]; rfl
  have queue : (isM != decide (f.queue.toNat < 2)) = false := by rw [← cls, bne_self_eq_false]
  subst hqk
  simp only [State.doCmdEntryCreate, scalar_go _ _ _ _ fetch legal, queue, ← hoff, aligned, ne_eq, not_true, Bool.false_eq_true, if_false]

end

/-! ### The head of a queue -/

section
variable {s : State} {ck q : Nat} {e : QEntry} {rest : List QEntry} (head : s.que (ck * 4 + q) = e :: rest)
include head

theorem setHead_of_head (x : QEntry) : s.setHead (ck * 4 + q) x = s.setQue (ck * 4 + q) (x :: rest) := by
  rw [State.setHead, head, List.tail_cons]

theorem doQueueDispatch_of_waiting (st : e.st = .waiting) (may : s.mayDispatch (coreOf ck q) = true) (wait : s.waitMet ck e = true) :
    s.doQueueDispatch ck q = s.setQue (ck * 4 + q) ({ e with st := .running } :: rest) := by
  simp [State.doQueueDispatch, setHead_of_head head, head, st, may, wait]

theorem running_of_head (st : e.st = .running) (up : s.coreUp (coreOf ck q) = true) : s.running ck q e.isM e.op = some e := by
  simp [State.running, head, st, up]

/-- A running command without a descriptor ends without a cause. -/
theorem doSig_of_running (st : e.st = .running) (up : s.coreUp (coreOf ck q) = true) {isM : Bool} {op : Nat} (hM : e.isM = isM)
    (hop : e.op = op) : s.doSig ck q isM op = s.setQue (ck * 4 + q) ({ e with st := .ended 0, arith := 0 } :: rest) := by
  subst hM hop
  simp only [State.doSig, running_of_head head st up, State.endWork, setHead_of_head head]

theorem headFailed_of_failed {cause : Nat} (st : e.st = .failed cause) : s.headFailed (ck * 4 + q) = true := by
  simp [State.headFailed, head, st]

/-- RETRY of a failed head. -/
theorem doRetry_of_failed {cause : Nat} (st : e.st = .failed cause) :
    s.doRetry ck q = (s.setQue (ck * 4 + q) ({ e with st := .waiting, arith := 0, oob := false, resumed := false, restarted := false,
                                                      noRec := false, fails := 0, excess := [] } :: rest)).released ck q := by
  simp [State.doRetry, headFailed_of_failed head st, setHead_of_head head, head]

/-- SKIP of a failed head. -/
theorem doSkip_of_failed {cause : Nat} (st : e.st = .failed cause) : s.doSkip ck q = (s.setQue (ck * 4 + q) rest).released ck q := by
  simp [State.doSkip, headFailed_of_failed head st, head]

/-- FLUSH of a head that no Spill has interrupted: no progress record is marked. -/
theorem doFlush_of_not_interrupted (st : e.st ≠ .interrupted) :
    s.doFlush ck q = ((((s.setCore (coreOf ck q) { s.core (coreOf ck q) with run := none }).freeTwin ck q).setQue (ck * 4 + q) []).released
      ck q) := by
  simp [State.doFlush, head, st]

end

section
variable {s : State} {ck q : Nat}

theorem doRetry_of_not_failed (h : s.headFailed (ck * 4 + q) = false) : s.doRetry ck q = s := by simp [State.doRetry, h]

theorem doSkip_of_not_failed (h : s.headFailed (ck * 4 + q) = false) : s.doSkip ck q = s := by simp [State.doSkip, h]

end

/-- The end of a twin claim changes M1's engine alone. -/
theorem freeTwin_cases (s : State) (ck q : Nat) : s.freeTwin ck q = s ∨ ∃ r, s.freeTwin ck q = s.setCore (coreOf ck 1) r := by
  unfold State.freeTwin
  split
  · exact .inr ⟨_, rfl⟩
  · exact .inl rfl

@[simp] theorem freeTwin_mem (s : State) (ck q : Nat) : (s.freeTwin ck q).mem = s.mem := by
  rcases freeTwin_cases s ck q with h | ⟨r, h⟩ <;> rw [h]
  rfl

@[simp] theorem sc_freeTwin (s : State) (ck q k : Nat) : (s.freeTwin ck q).sc k = s.sc k := by
  rcases freeTwin_cases s ck q with h | ⟨r, h⟩ <;> rw [h]
  rfl

@[simp] theorem released_mem (s : State) (ck q : Nat) : (s.released ck q).mem = s.mem := rfl

@[simp] theorem que_released (s : State) (ck q k : Nat) : (s.released ck q).que k = s.que k := rfl

/-- The release of a head clears its queue's QDLV bit (R144). -/
@[simp] theorem released_qdlv (s : State) (ck q : Nat) : ((s.released ck q).sc ck).qdlv = (s.sc ck).qdlv &&& ~~~((1 : BitVec 4) <<< q) := by
  rw [State.released, sc_setSc_self]

/-! ### The statement -/

/-- Settles O20: each command by the lemma about its operation on the head of the queue. -/
theorem commandQueues : Obligations.CommandQueues := by
  refine ⟨fun c isM op f s fetch known rsvA rsvB sig => ?entry, fun c q s e rest => ?head⟩
  case entry =>
    intro k qk sc t off cls aligned
    have entry := doCmdEntryCreate_of_legal fetch known rsvA rsvB sig cls rfl aligned rfl
    refine ⟨fun room => congrArg Host.Outcome.next ?_, fun full stall => congrArg Host.Outcome.next ?_⟩
    · rw [entry, if_neg (Nat.not_le.2 room)]
    · rw [entry, if_pos full, if_neg (Bool.eq_false_iff.1 stall)]
  case head =>
    intro k qk head
    refine ⟨fun st may wait => ?dispatch, fun st up => ?sig, fun cause st => ?failed, fun notFailed => ?notFailed, fun st => ?flush⟩
    case dispatch => exact congrArg Host.Outcome.next (doQueueDispatch_of_waiting head st may wait)
    case sig =>
      refine ⟨?_, ?_, ?_⟩ <;> exact fun hM hop => congrArg Host.Outcome.next (doSig_of_running head st up hM hop)
    case failed =>
      exact ⟨congrArg Host.Outcome.next (doRetry_of_failed head st), congrArg Host.Outcome.next (doSkip_of_failed head st)⟩
    case notFailed =>
      exact ⟨congrArg Host.Outcome.next (doRetry_of_not_failed notFailed), congrArg Host.Outcome.next (doSkip_of_not_failed notFailed)⟩
    case flush =>
      refine ⟨_, congrArg Host.Outcome.next (doFlush_of_not_interrupted head st), ?_, ?_, ?_⟩
      · rw [que_released, que_setQue_self]
      · simp
      · simp [k]

end Sys2Proof.Machine
end

section
/-! PROOFS. Class V (Chapter 4): a command whose operands are read writes the rows its meaning gives and ends (R96, R108); over a
scratch without error marks every operand is read; an uncorrectable word ends it with ECC. -/

namespace Sys2Proof.Machine

/-! ### Results draw free values and change nothing else (log 16) -/

/-- Only the counter of free values may have moved. -/
def State.Draws (s t : State) : Prop := ∃ n, t = { s with free := n }

section
variable {s t u : State}

theorem State.Draws.refl (s : State) : s.Draws s := ⟨s.free, rfl⟩

theorem State.Draws.trans (h : s.Draws t) (g : t.Draws u) : s.Draws u := by
  obtain ⟨n, rfl⟩ := h
  obtain ⟨m, rfl⟩ := g
  exact ⟨m, rfl⟩

theorem State.Draws.vats (h : s.Draws t) : t.vats = s.vats := by
  obtain ⟨n, rfl⟩ := h
  rfl

theorem State.Draws.que (h : s.Draws t) (k : Nat) : t.que k = s.que k := by
  obtain ⟨n, rfl⟩ := h
  rfl

/-- A loop each round of which only draws. -/
theorem foldl_draws {α β : Type} {f : State × β → α → State × β} (step : ∀ (z : State × β) x, z.1.Draws (f z x).1)
    (l : List α) (z : State × β) : z.1.Draws (l.foldl f z).1 :=
  List.foldlRecOn l f (motive := fun y : State × β => z.1.Draws y.1) (.refl _) fun y hy x _ => hy.trans (step y x)

end

section
variable (s : State) (core : Nat) (d : List Nat)

theorem intRes_draws (w : Nat) (v : Int) : s.Draws (s.intRes w v).1 := by
  unfold State.intRes
  split
  · exact ⟨s.free + 2, rfl⟩
  · exact .refl s

theorem scatAdd_draws (sat : Bool) (fmt x y : Nat) : s.Draws (s.scatAdd sat fmt x y).1 := by
  unfold State.scatAdd
  split
  · exact .refl s
  · exact intRes_draws s _ _

theorem vArith_draws (ff : Num → Num → Num → Num) (fi : Int → Int → Int → Int) : s.Draws (s.vArith core d ff fi).1 := by
  unfold State.vArith
  simp only
  split
  · refine foldl_draws (fun row _ => ?_) _ (s, ({} : VRes))
    refine foldl_draws (fun element _ => ?_) _ (row.1, [], 0)
    exact intRes_draws element.1 _ _
  · exact .refl s

theorem vReduce_draws (ff : Num → Num → Num) (fi : Int → Int → Int) (ident : Num) : s.Draws (s.vReduce core d ff fi ident).1 := by
  unfold State.vReduce
  simp only
  split
  · refine foldl_draws (fun row _ => ?_) _ (s, [], 0)
    exact intRes_draws row.1 _ _
  · exact .refl s

theorem vCvtRes_draws : s.Draws (s.vCvtRes core d).1 := by
  unfold State.vCvtRes
  simp only
  split <;> exact .refl s

theorem scatterRes_draws : s.Draws (s.scatterRes core d).1 := by
  unfold State.scatterRes
  simp only
  split
  · exact .refl s
  · refine foldl_draws (fun tableRow _ => ?_) _ (s, ({} : VRes))
    refine foldl_draws (fun sourceRow _ => ?_) _ (tableRow.1, _, 0)
    refine foldl_draws (fun element _ => ?_) _ (sourceRow.1, [], sourceRow.2.2)
    exact scatAdd_draws element.1 _ _ _ _

/-- What a V-class command computes changes no state but for free values. -/
theorem vMeaning_draws : ∀ p ∈ vMeaning, s.Draws (p.2.2 s core d).1 := by
  simp only [vMeaning, List.forall_mem_cons, List.not_mem_nil, false_imp_iff, implies_true, and_true]
  refine ⟨vArith_draws s core d _ _, vArith_draws s core d _ _, vArith_draws s core d _ _, vArith_draws s core d _ _,
    vArith_draws s core d _ _, vArith_draws s core d _ _, ?_⟩
  refine ⟨.refl s, .refl s, .refl s, .refl s, .refl s, .refl s, vCvtRes_draws s core d, .refl s, .refl s, .refl s, .refl s, ?_⟩
  exact ⟨vReduce_draws s core d _ _ _, vReduce_draws s core d _ _ _, vReduce_draws s core d _ _ _, .refl s, .refl s, .refl s, .refl s,
    .refl s, scatterRes_draws s core d, .refl s⟩

end

/-- Every V-class command is `vec` of its opcode, whose arithmetic is what the table of meanings says. -/
theorem vMeaning_exec : ∀ p ∈ vMeaning, (∀ c q s, exec (p.1 c q) s = .next (s.vec (cluKey c) q.val p.2.1)) ∧
    ∀ s core d, vFun p.2.1 s core d = p.2.2 s core d := by
  intro p hp
  fin_cases hp <;> exact ⟨fun _ _ _ => rfl, fun _ _ _ => rfl⟩

/-! ### Descriptor and operands -/

theorem readDesc_step (s : State) (core : Nat) (e : QEntry) : ScrStep core s (s.readDesc core e).1 := by
  unfold State.readDesc
  simp only
  split
  · exact .refl _ s
  · exact readScr_step s core _ _ 1

/-- Reading a descriptor marks no word. -/
theorem readDesc_hasMarks (s : State) (core : Nat) (e : QEntry) : (s.readDesc core e).1.hasMarks core = s.hasMarks core := by
  unfold State.readDesc
  simp only
  split
  · rfl
  · obtain ⟨r, w, u, read⟩ := readScr_frame s core ((s.pail core e.pail).base + e.off)
      (descLen e (s.ld (scrKey core ((s.pail core e.pail).base + e.off)) 8)) 1
    simp only [read]
    rfl

/-- Where no word has a mark every operand is read. -/
theorem vReads_of_hasMarks {s : State} {core : Nat} (h : s.hasMarks core = false) (op : Nat) (d : List Nat) (p : Nat → Bool) :
    s.vReads core op d p = (s, true) := by
  unfold State.vReads
  refine List.foldlRecOn _ _ (motive := fun z => z = (s, true)) rfl ?_
  rintro _ rfl o _
  simp [State.readRows, h]

theorem vPuts_step (s : State) (core : Nat) (d : List Nat) (r : VRes) : ScrStep core s (s.vPuts core d r) :=
  each_step core _ (fun s _ => writeView_step s core _ _ _) _ s

section
variable {s t : State} {ck q op : Nat} {e : QEntry} {d : List Nat}

/-- A command whose operands are read writes its results and ends without a cause. -/
theorem vec_of_reads (reads : VReads s ck q op e d t) :
    s.vec ck q op = (((vFun op t (coreOf ck q) d).1.vPuts (coreOf ck q) d (vFun op t (coreOf ck q) d).2).endWork ck q
      { e with oob := (vFun op t (coreOf ck q) d).2.oob } 0 (vFun op t (coreOf ck q) d).2.flags) := by
  obtain ⟨running, desc, rfl, checks, u, pre, prescan, rest⟩ := reads
  simp only [State.vec, running, desc, checks, pre, prescan, rest, ne_eq, not_true, if_true, if_false, Bool.not_true, Bool.false_eq_true]

/-- So the command of a row of the table writes what the row's meaning gives. -/
theorem exec_of_reads {p : (Clu → Queue → Instr) × Nat × (State → Nat → List Nat → State × VRes)} (hp : p ∈ vMeaning) {c : Clu}
    {q : Queue} (reads : VReads s (cluKey c) q.val p.2.1 e d t) {core : Nat} (hcore : core = coreOf (cluKey c) q.val) {r : State × VRes}
    (hr : r = p.2.2 t core d) :
    exec (p.1 c q) s = .next ((r.1.vPuts core d r.2).endWork (cluKey c) q.val { e with oob := r.2.oob } 0 r.2.flags) := by
  obtain ⟨run, meaning⟩ := vMeaning_exec p hp
  rw [run, vec_of_reads reads, meaning, hr, hcore]

/-- Over a scratch without error marks a command whose checks pass reads all its operands. -/
theorem vReads_of_unmarked (running : s.running ck q false op = some e) (marks : s.hasMarks (coreOf ck q) = false)
    (desc : (s.readDesc (coreOf ck q) e).2 = 0) (ht : t = (s.readDesc (coreOf ck q) e).1) (hd : d = t.descWords (coreOf ck q) e)
    (checks : (t.vChecks (coreOf ck q) e d).1 = 0) (prescan : t.vPrescan (coreOf ck q) op d = 0) : VReads s ck q op e d t := by
  subst ht hd
  have marks := (readDesc_hasMarks s (coreOf ck q) e).trans marks
  exact ⟨running, desc, rfl, checks, _, vReads_of_hasMarks marks _ _ _, prescan, vReads_of_hasMarks marks _ _ _⟩

end

/-! ### Uncorrectable operands (R96, R108) -/

theorem cluOfCore_coreKey (c : Core) : cluOfCore (coreKey c) = cluKey ⟨c.tile, c.site, c.cl⟩ := by
  simp only [cluOfCore, coreKey, cluKey]
  omega

theorem slotOf_coreKey (c : Core) : slotOf (coreKey c) = c.slot.val := by
  simp only [slotOf, coreKey]
  omega

section
variable {s t : State} {core : Nat} {e : QEntry} (slot : 2 ≤ slotOf core ∧ slotOf core < 4)
  (head : (s.que (cluOfCore core * 4 + slotOf core)).head? = some e) (running : e.st = .running) (work : isSig e.isM e.op = false)
  (up : s.coreUp core = true) (desc : s.descOk core e = true) (checks : (s.vChecks core e (s.descWords core e)).1 = 0)
include slot head running work up desc checks

/-- The error lies in what a pre-scan reads: the command ends before any output. -/
theorem doVOperandEcc_of_prescan
    (pre : s.vReads core e.op (s.descWords core e) (preSlot e.op (s.descWords core e)) = (t, false)) :
    s.doVOperandEcc core = t.endWork (cluOfCore core) (slotOf core) e cEcc 0 := by
  have vCore : ¬ (slotOf core < 2 ∨ 4 ≤ slotOf core) := by omega
  simp only [State.doVOperandEcc, if_neg vCore, head, running, work, up, desc, checks, pre, Bool.not_false, and_self, ne_eq, not_true,
    if_true, if_false, Bool.false_eq_true]

/-- The error lies in another operand: the command stops among its rows. -/
theorem doVOperandEcc_of_operand {u : State}
    (pre : s.vReads core e.op (s.descWords core e) (preSlot e.op (s.descWords core e)) = (u, true))
    (rest : u.vReads core e.op (s.descWords core e) (fun i => !preSlot e.op (s.descWords core e) i) = (t, false)) :
    s.doVOperandEcc core = t.vStop (cluOfCore core) (slotOf core) e (s.descWords core e) := by
  have vCore : ¬ (slotOf core < 2 ∨ 4 ≤ slotOf core) := by omega
  simp only [State.doVOperandEcc, if_neg vCore, head, running, work, up, desc, checks, pre, rest, Bool.not_false, and_self, ne_eq,
    not_true, if_true, if_false, Bool.false_eq_true]

end

/-! ### The statement -/

/-- Settles O24: a command that reads its operands is `vec_of_reads`; over an unmarked scratch it is such a command, and its results only
draw free values before they are written. -/
theorem vectorCommands : Obligations.VectorCommands := by
  refine ⟨fun p hp c q s t e d reads => exec_of_reads hp reads rfl rfl, fun p hp c q s e => ?unmarked, fun c s t e => ?ecc⟩
  case unmarked =>
    intro core running marks desc t d checks prescan
    have reads := vReads_of_unmarked running marks desc rfl rfl checks prescan
    have step : ScrStep core s t := readDesc_step s core e
    have draws := vMeaning_draws t core d p hp
    have puts := vPuts_step (p.2.2 t core d).1 core d (p.2.2 t core d).2
    refine ⟨_, (p.2.2 t core d).2.flags % 256, (p.2.2 t core d).2.oob, exec_of_reads hp reads rfl rfl, ?_, ?_⟩
    · exact puts.vats.trans (draws.vats.trans step.vats)
    · rw [endWork_que, puts.que, draws.que, step.que]
  case ecc =>
    intro core k low high head running work up desc checks d
    have hk : k = cluOfCore core := (cluOfCore_coreKey c).symm
    have hq : c.slot.val = slotOf core := (slotOf_coreKey c).symm
    rw [hk, hq] at head ⊢
    rw [hq] at low high
    exact ⟨fun pre => congrArg Host.Outcome.next (doVOperandEcc_of_prescan ⟨low, high⟩ head running work up desc checks pre),
      fun u pre rest => congrArg Host.Outcome.next (doVOperandEcc_of_operand ⟨low, high⟩ head running work up desc checks pre rest)⟩

end Sys2Proof.Machine
end

section
/-! PROOFS. The integer instructions of class S-ALU (Table 5.3, R124, R125): what each operation on words computes, and the
instructions, which carry it out in the state after the fetch. -/

namespace Sys2Proof.Machine

/-! ### Operations on words (R125) -/

section
variable (x y : Word)

theorem shl64_eq : shl64 x y = BitVec.ofNat 64 (x.toNat * 2 ^ (y.toNat % 64)) := by
  rw [shl64, ← Nat.shiftLeft_eq]
  rfl

theorem shr64_eq : shr64 x y = BitVec.ofNat 64 (x.toNat / 2 ^ (y.toNat % 64)) := by
  apply BitVec.eq_of_toNat_eq
  rw [shr64, BitVec.toNat_ushiftRight, Nat.shiftRight_eq_div_pow, BitVec.toNat_ofNat,
    Nat.mod_eq_of_lt ((Nat.div_le_self _ _).trans_lt x.isLt)]

theorem sra64_eq : sra64 x y = BitVec.ofInt 64 (x.toInt / 2 ^ (y.toNat % 64)) := by
  rw [sra64, BitVec.sshiftRight, Int.shiftRight_eq_div_pow]
  norm_cast

theorem slt64_eq : slt64 x y = if x.toInt < y.toInt then 1 else 0 := by
  simp only [slt64, BitVec.slt, decide_eq_true_eq]

theorem sltu64_eq : sltu64 x y = if x.toNat < y.toNat then 1 else 0 := rfl

theorem mul_eq : x * y = BitVec.ofNat 64 (x.toNat * y.toNat) := rfl

theorem mulh64_eq : mulh64 x y = BitVec.ofInt 64 (x.toInt * y.toInt / 2 ^ 64) := by
  have product : x.signExtend 128 * y.signExtend 128 = BitVec.ofInt 128 (x.toInt * y.toInt) := (BitVec.ofInt_mul _ _).symm
  apply BitVec.eq_of_toNat_eq
  simp only [mulh64, product, BitVec.truncate_eq_setWidth, BitVec.toNat_setWidth, BitVec.toNat_ushiftRight, Nat.shiftRight_eq_div_pow,
    BitVec.toNat_ofInt]
  generalize x.toInt * y.toInt = p
  omega

theorem mulhu64_eq : mulhu64 x y = BitVec.ofNat 64 (x.toNat * y.toNat / 2 ^ 64) := by
  have small : x.toNat * y.toNat < 2 ^ 128 := (Nat.mul_lt_mul'' x.isLt y.isLt).trans_eq (by norm_num)
  apply BitVec.eq_of_toNat_eq
  simp only [mulhu64, BitVec.truncate_eq_setWidth, BitVec.toNat_setWidth, BitVec.toNat_ushiftRight, Nat.shiftRight_eq_div_pow,
    BitVec.toNat_mul, BitVec.toNat_ofNat]
  rw [Nat.mod_eq_of_lt (show x.toNat < 2 ^ 128 by omega), Nat.mod_eq_of_lt (show y.toNat < 2 ^ 128 by omega), Nat.mod_eq_of_lt small]

theorem div64_eq : div64 x y = if y = 0 then BitVec.allOnes 64 else BitVec.ofInt 64 (Int.tdiv x.toInt y.toInt) := by
  have quotient : x.sdiv y = BitVec.ofInt 64 (Int.tdiv x.toInt y.toInt) := by
    apply BitVec.eq_of_toInt_eq
    rw [BitVec.toInt_sdiv, BitVec.toInt_ofInt]
  rw [div64, quotient]

theorem divu64_eq : divu64 x y = if y = 0 then BitVec.allOnes 64 else BitVec.ofNat 64 (x.toNat / y.toNat) := by
  rw [divu64, BitVec.udiv_def]

theorem rem64_eq : rem64 x y = if y = 0 then x else BitVec.ofInt 64 (Int.tmod x.toInt y.toInt) := by
  rw [rem64, ← BitVec.toInt_srem, BitVec.ofInt_toInt]

theorem remu64_eq : remu64 x y = if y = 0 then x else BitVec.ofNat 64 (x.toNat % y.toNat) := by
  rw [remu64, BitVec.umod_def]

end

/-! ### Immediates (R124) -/

/-- A sign-extended immediate keeps its low six bits, the amount of a shift. -/
theorem ofInt_toInt_toNat_mod_64 (i : BitVec 42) : (BitVec.ofInt 64 i.toInt).toNat % 64 = i.toNat % 64 := by
  rw [BitVec.toNat_ofInt, BitVec.toInt_eq_toNat_cond]
  split <;> omega

/-- LIH keeps the low 42 bits and adds the immediate above them. -/
theorem lih_value (x : Word) (i : BitVec 42) :
    (x.truncate 42).zeroExtend 64 + (i.zeroExtend 64 <<< 42) = BitVec.ofNat 64 (x.toNat % 2 ^ 42 + i.toNat * 2 ^ 42) := by
  apply BitVec.eq_of_toNat_eq
  simp only [BitVec.truncate_eq_setWidth, BitVec.toNat_add, BitVec.toNat_setWidth, BitVec.toNat_shiftLeft,
    Nat.shiftLeft_eq, BitVec.toNat_ofNat]
  omega

/-! ### Integer instructions -/

section
variable {s : State} {c : Clu} (fetch : Fetches s (cluKey c))
include fetch

theorem aluR_of_fetches {f : FmtR} (rs3 : f.rs3 = 0) (rm : f.rm = 0) (rsv : f.rsv = 0) (op : Word → Word → Word) :
    s.aluR c f op = (fetched s (cluKey c)).retire (cluKey c) ((s.sc (cluKey c)).setX f.rd.toNat
      (op ((s.sc (cluKey c)).getX f.rs1.toNat) ((s.sc (cluKey c)).getX f.rs2.toNat))) :=
  scalar_go s _ _ _ fetch (by simp [rs3, rm, rsv])

theorem aluI_of_fetches (f : FmtI) (op : Word → Word → Word) :
    s.aluI c f op = (fetched s (cluKey c)).retire (cluKey c) ((s.sc (cluKey c)).setX f.rd.toNat
      (op ((s.sc (cluKey c)).getX f.rs1.toNat) (BitVec.ofInt 64 f.imm.toInt))) :=
  scalar_go s _ _ _ fetch rfl

end

/-- Settles O4: every instruction is `aluR` of its operation, whose value the lemmas on words give. -/
theorem integerRegister : Obligations.IntegerRegister := by
  intro c f s fetch rs3 rm rsv x y put
  have run (op : Word → Word → Word) {v : Word} (value : op x y = v) : .next (s.aluR c f op) = put v := by
    rw [aluR_of_fetches fetch rs3 rm rsv, value]
  exact ⟨run _ rfl, run _ rfl, run _ rfl, run _ rfl, run _ rfl, run _ (shl64_eq x y), run _ (shr64_eq x y), run _ (sra64_eq x y),
    run _ (slt64_eq x y), run _ (sltu64_eq x y), run _ (mul_eq x y), run _ (mulh64_eq x y), run _ (mulhu64_eq x y), run _ (div64_eq x y),
    run _ (divu64_eq x y), run _ (rem64_eq x y), run _ (remu64_eq x y)⟩

/-- Settles O5: `aluI` with the operations of the register forms; LI and LIH have bodies of their own. -/
theorem integerImmediate : Obligations.IntegerImmediate := by
  intro c f s fetch x i put
  have run (op : Word → Word → Word) {v : Word} (value : op x i = v) : .next (s.aluI c f op) = put v := by
    rw [aluI_of_fetches fetch, value]
  have amount : i.toNat % 64 = f.imm.toNat % 64 := ofInt_toInt_toNat_mod_64 f.imm
  refine ⟨run _ rfl, run _ rfl, run _ rfl, run _ rfl, ?shli, ?shri, ?srai, fun rs1 => ?li, fun small => ?lih⟩
  case shli => exact run _ (amount ▸ shl64_eq x i)
  case shri => exact run _ (amount ▸ shr64_eq x i)
  case srai => exact run _ (amount ▸ sra64_eq x i)
  case li => exact congrArg Host.Outcome.next (scalar_go s _ _ _ fetch (by simp [rs1]))
  case lih =>
    have legal : (f.imm >>> 22 == 0) = true := by
      rw [beq_iff_eq]
      apply BitVec.eq_of_toNat_eq
      rw [BitVec.toNat_ushiftRight, Nat.shiftRight_eq_div_pow, Nat.div_eq_of_lt small]
      rfl
    refine congrArg Host.Outcome.next ?_
    rw [scalar_go s _ _ _ fetch legal, lih_value]

end Sys2Proof.Machine
end

section
/-! PROOFS. The floating-point instructions of class S-ALU (Table 5.3, R126): with legal fields each carries out its body in the state
after the fetch. -/

namespace Sys2Proof.Machine

section
variable {s : State} {c : Clu} {f : FmtR} (fetch : Fetches s (cluKey c)) (rsv : f.rsv = 0)
include fetch rsv

/-! ### Arithmetic -/

section
variable (rd : isF f.rd = true) (rs1 : isF f.rs1 = true)
include rd rs1

theorem fpu2_of_fetches (rs2 : isF f.rs2 = true) (rs3 : f.rs3 = 0) (rm : f.rm.toNat < 4) (p : FpF) (op : Nat → Num → Num → Num) :
    s.fpu2 c f p op = (fetched s (cluKey c)).retire (cluKey c) ((s.sc (cluKey c)).setF f.rd.toNat (fpResult p f.rm.toNat
      (op f.rm.toNat ((s.sc (cluKey c)).fpVal p f.rs1.toNat) ((s.sc (cluKey c)).fpVal p f.rs2.toNat)))) :=
  scalar_go s _ _ _ fetch (by simp [rd, rs1, rs2, rs3, rm, rsv])

theorem fpuM_of_fetches (rs2 : isF f.rs2 = true) (rs3 : f.rs3 = 0) (rm : f.rm = 0) (p : FpF) (op : Num → Num → Num) {x y : Num}
    (hx : x = (s.sc (cluKey c)).fpVal p f.rs1.toNat) (hy : y = (s.sc (cluKey c)).fpVal p f.rs2.toNat) :
    s.fpuM c f p op = (fetched s (cluKey c)).retire (cluKey c) ((s.sc (cluKey c)).setF f.rd.toNat (fpResult p f.rm.toNat
      (if x.isNan then y else if y.isNan then x else op x y))) := by
  subst hx hy
  rw [rm]
  exact scalar_go s _ _ _ fetch (by simp [rd, rs1, rs2, rs3, rm, rsv])

theorem fpuFma_of_fetches (rs2 : isF f.rs2 = true) (rs3 : isF f.rs3 = true) (rm : f.rm.toNat < 4) (p : FpF) :
    s.fpuFma c f p = (fetched s (cluKey c)).retire (cluKey c) ((s.sc (cluKey c)).setF f.rd.toNat (fpResult p f.rm.toNat
      (Num.add f.rm.toNat (Num.mul ((s.sc (cluKey c)).fpVal p f.rs1.toNat) ((s.sc (cluKey c)).fpVal p f.rs2.toNat))
        ((s.sc (cluKey c)).fpVal p f.rs3.toNat)))) :=
  scalar_go s _ _ _ fetch (by simp [rd, rs1, rs2, rs3, rm, rsv])

theorem fpuSqrt_of_fetches (rs2 : f.rs2 = 0) (rs3 : f.rs3 = 0) (rm : f.rm.toNat < 4) (p : FpF) :
    s.fpuSqrt c f p = (fetched s (cluKey c)).retire (cluKey c) ((s.sc (cluKey c)).setF f.rd.toNat (fpResult p f.rm.toNat
      ((s.sc (cluKey c)).fpVal p f.rs1.toNat).sqrt)) :=
  scalar_go s _ _ _ fetch (by simp [rd, rs1, rs2, rs3, rm, rsv])

end

/-! ### Compares -/

/-- A compare writes 1 where neither operand is NaN and the test holds of their order. -/
theorem fpuCmp_of_fetches (rs1 : isF f.rs1 = true) (rs2 : isF f.rs2 = true) (rs3 : f.rs3 = 0) (rm : f.rm = 0) (p : FpF)
    (test : Int → Prop) [DecidablePred test] {x y : Num} (hx : x = (s.sc (cluKey c)).fpVal p f.rs1.toNat)
    (hy : y = (s.sc (cluKey c)).fpVal p f.rs2.toNat) :
    s.fpuCmp c f p (fun r => decide (test r)) = (fetched s (cluKey c)).retire (cluKey c) ((s.sc (cluKey c)).setX f.rd.toNat
      (if x.isNan = false ∧ y.isNan = false ∧ test (Num.cmp x y) then 1 else 0)) := by
  have legal : (isF f.rs1 && isF f.rs2 && f.rs3 == 0 && f.rm == 0 && f.rsv == 0) = true := by simp [rs1, rs2, rs3, rm, rsv]
  have value : (if (x.isNan || y.isNan) = true then (0 : Word) else if decide (test (Num.cmp x y)) = true then 1 else 0) =
      if x.isNan = false ∧ y.isNan = false ∧ test (Num.cmp x y) then 1 else 0 := by
    cases x.isNan <;> cases y.isNan <;> simp
  subst hx hy
  rw [← value]
  exact scalar_go s _ _ _ fetch legal

end

/-! ### Conversions and moves -/

/-- The fields of a conversion or move are legal: RS2 and RS3 are 0, and RM is a rounding mode where it is used, else 0. -/
theorem cvtLegal_of_fields {f : FmtR} {rm dF sF : Bool} (rsv : f.rsv = 0) (rs2 : f.rs2 = 0) (rs3 : f.rs3 = 0)
    (mode : if rm then f.rm.toNat < 4 else f.rm = 0) (rd : dF = true → isF f.rd = true) (rs1 : sF = true → isF f.rs1 = true) : cvtLegal f rm dF sF = true := by
  have hd : (!dF || isF f.rd) = true := by cases dF <;> simp [rd]
  have hs : (!sF || isF f.rs1) = true := by cases sF <;> simp [rs1]
  cases rm <;> simp_all [cvtLegal]

/-! ### The statements -/

/-- Settles O6: both formats take the same path, each operation by the lemma on its form. -/
theorem floatArithmetic : Obligations.FloatArithmetic := by
  intro c f s p single format fetch rsv rd rs1 sc x y z rm put
  have two (op : Nat → Num → Num → Num) (mode : rm < 4) (rs3 : f.rs3 = 0) (rs2 : isF f.rs2 = true) :
      .next (s.fpu2 c f p op) = put (op rm x y) := congrArg _ (fpu2_of_fetches fetch rsv rd rs1 rs2 rs3 mode p op)
  have extreme (op : Num → Num → Num) (mode : rm = 0) (rs3 : f.rs3 = 0) (rs2 : isF f.rs2 = true) :
      .next (s.fpuM c f p op) = put (if x.isNan then y else if y.isNan then x else op x y) :=
    congrArg _ (fpuM_of_fetches fetch rsv rd rs1 rs2 rs3 (BitVec.eq_of_toNat_eq mode) p op rfl rfl)
  have fma (mode : rm < 4) (rs2 : isF f.rs2 = true) (rs3 : isF f.rs3 = true) :
      .next (s.fpuFma c f p) = put (Num.add rm (Num.mul x y) z) := congrArg _ (fpuFma_of_fetches fetch rsv rd rs1 rs2 rs3 mode p)
  have sqrt (mode : rm < 4) (rs2 : f.rs2 = 0) (rs3 : f.rs3 = 0) : .next (s.fpuSqrt c f p) = put x.sqrt :=
    congrArg _ (fpuSqrt_of_fetches fetch rsv rd rs1 rs2 rs3 mode p)
  subst format
  cases single <;> exact ⟨fun mode rs3 rs2 => ⟨two _ mode rs3 rs2, two _ mode rs3 rs2, two _ mode rs3 rs2, two _ mode rs3 rs2⟩, fma, sqrt,
    fun mode rs3 rs2 => ⟨extreme _ mode rs3 rs2, extreme _ mode rs3 rs2⟩⟩

/-- Settles O7: compares by `fpuCmp_of_fetches`; a conversion or move with legal fields carries out its body. -/
theorem floatCompareConvert : Obligations.FloatCompareConvert := by
  intro c f s fetch rsv rs3 sc t a b putX putF eq lt
  have run (rm dF sF : Bool) (rs2 : f.rs2 = 0) (mode : if rm then f.rm.toNat < 4 else f.rm = 0)
      (rd : dF = true → isF f.rd = true) (rs1 : sF = true → isF f.rs1 = true) (body : SCore → State → State) :
      (.next (s.scalar (cluKey c) (cvtLegal f rm dF sF) body) : Host.Outcome State Fault Refusal) = .next (body sc t) :=
    congrArg _ (scalar_go s _ _ _ fetch (cvtLegal_of_fields rsv rs2 rs3 mode rd rs1))
  refine ⟨fun rs1 rs2 rm => ?compare, fun rs2 mode rd rs1 => ?floats, fun rs2 mode rd => ?fromInt, fun rs2 mode rs1 => ?toInt,
    fun rs2 rm rs1 => ?moveX, fun rs2 rm rd => ?moveF⟩
  case compare =>
    have compare (p : FpF) (test : Int → Prop) [DecidablePred test] :
        .next (s.fpuCmp c f p fun r => decide (test r)) =
          putX (if (a p).isNan = false ∧ (b p).isNan = false ∧ test (Num.cmp (a p) (b p)) then 1 else 0) :=
      congrArg _ (fpuCmp_of_fetches fetch rsv rs1 rs2 rs3 rm p test rfl rfl)
    exact ⟨compare fp32 (· = 0), compare fp32 (· < 0), compare fp64 (· = 0), compare fp64 (· < 0)⟩
  case floats =>
    exact ⟨run true true true rs2 mode (fun _ => rd) (fun _ => rs1) _, run true true true rs2 mode (fun _ => rd) (fun _ => rs1) _⟩
  case fromInt => exact ⟨run true true false rs2 mode (fun _ => rd) nofun _, run true true false rs2 mode (fun _ => rd) nofun _⟩
  case toInt => exact ⟨run true false true rs2 mode nofun (fun _ => rs1) _, run true false true rs2 mode nofun (fun _ => rs1) _⟩
  case moveX => exact run false false true rs2 rm nofun (fun _ => rs1) _
  case moveF => exact run false true false rs2 rm (fun _ => rd) nofun _

end Sys2Proof.Machine
end

section
/-! PROOFS. The rows of class S-ALU that act on the command registers, the cluster counters and the special registers (Tables 4.6, 5.3 and
5.16, R115, R126, R142), and class S-BR (Table 5.4, R123, R127, R147). -/

namespace Sys2Proof.Machine

/-! ### Fields of the command registers (Table 4.6) -/

/-- A mask of the low bits is a remainder. -/
theorem and_ofNat_two_pow_sub_one (v : Word) {n : Nat} (h : n ≤ 64) :
    v &&& BitVec.ofNat 64 (2 ^ n - 1) = BitVec.ofNat 64 (v.toNat % 2 ^ n) := by
  have mask : 2 ^ n - 1 < 2 ^ 64 := by have := Nat.pow_le_pow_right (by omega : 0 < 2) h; omega
  apply BitVec.eq_of_toNat_eq
  rw [BitVec.toNat_and, BitVec.toNat_ofNat, BitVec.toNat_ofNat, Nat.mod_eq_of_lt mask, Nat.and_two_pow_sub_one_eq_mod,
    Nat.mod_eq_of_lt ((Nat.mod_le _ _).trans_lt v.isLt)]

/-- CMD.WAIT keeps bits 4:0 and 63:32. -/
theorem and_cmdwait_mask (v : Word) :
    v &&& 0xFFFFFFFF0000001F = BitVec.ofNat 64 (v.toNat % 2 ^ 5 + v.toNat / 2 ^ 32 * 2 ^ 32) := by
  have low : v.toNat % 2 ^ 5 < 2 ^ 32 := by omega
  have mask : (0xFFFFFFFF0000001F : Word) = BitVec.ofNat 64 (2 ^ 32 * (2 ^ 32 - 1) + (2 ^ 5 - 1)) := by decide
  apply BitVec.eq_of_getLsbD_eq
  intro i hi
  rw [mask, Nat.add_comm (v.toNat % 2 ^ 5), Nat.mul_comm (v.toNat / 2 ^ 32)]
  simp only [BitVec.getLsbD_and, BitVec.getLsbD_ofNat, hi, decide_true, Bool.true_and, Nat.testBit_two_pow_mul_add _ low,
    Nat.testBit_two_pow_mul_add _ (show 2 ^ 5 - 1 < 2 ^ 32 by decide), Nat.testBit_two_pow_sub_one, Nat.testBit_mod_two_pow,
    Nat.testBit_div_two_pow]
  by_cases high : i < 32
  · simp only [high, if_true, BitVec.getLsbD]
    exact Bool.and_comm _ _
  · simp only [high, if_false, BitVec.getLsbD]
    rw [Nat.sub_add_cancel (Nat.le_of_not_lt high), decide_eq_true (show i - 32 < 32 by omega), Bool.and_true]

/-! ### Special registers (Table 5.16) -/

/-- The numbers of the special registers: those that a vat program may name, and those of the service. -/
def vatXregs : List Nat := [1, 2, 3, 4, 5, 6]
def svcXregs : List Nat := [0x11, 0x12, 0x13, 0x14, 0x15]

theorem xreg_isSome (sc : SCore) {n : Nat} (h : n ∈ vatXregs ∨ n ∈ svcXregs) : (sc.xreg n).isSome = true := by
  have : n ∈ vatXregs ++ svcXregs := List.mem_append.2 h
  fin_cases this <;> rfl

section
variable {s : State} {c : Clu} (fetch : Fetches s (cluKey c))
include fetch

/-- XRD or XWR of a register that the S-core may name. -/
theorem special_of_allowed {f : FmtI} {unused : BitVec 5} (zero : unused = 0)
    (allowed : f.imm.toNat ∈ vatXregs ∨ (f.imm.toNat ∈ svcXregs ∧ (s.sc (cluKey c)).priv = true)) (act : SCore → Nat → SCore) :
    s.special c f unused act = (fetched s (cluKey c)).retire (cluKey c) (act (s.sc (cluKey c)) f.imm.toNat) := by
  have known := xreg_isSome {} (allowed.imp_right And.left)
  have permitted : ¬ (0x11 ≤ f.imm.toNat ∧ (s.sc (cluKey c)).priv = false) := by
    rintro ⟨high, vat⟩
    rcases allowed with number | ⟨-, priv⟩
    · have low : ∀ n ∈ vatXregs, n < 0x11 := by decide
      exact absurd (low _ number) (Nat.not_lt.2 high)
    · rw [priv] at vat
      contradiction
  rw [State.special, scalar_go s _ _ _ fetch (by rw [zero, known]; rfl), if_neg permitted]

/-- A service register at vat privilege is a PRIV exception. -/
theorem special_of_denied {f : FmtI} {unused : BitVec 5} (zero : unused = 0) (number : f.imm.toNat ∈ svcXregs)
    (vat : (s.sc (cluKey c)).priv = false) (act : SCore → Nat → SCore) :
    s.special c f unused act = (fetched s (cluKey c)).trapNoAddr (cluKey c) cPriv := by
  have known := xreg_isSome {} (.inr number)
  have high : ∀ n ∈ svcXregs, 0x11 ≤ n := by decide
  rw [State.special, scalar_go s _ _ _ fetch (by rw [zero, known]; rfl), if_pos ⟨high _ number, vat⟩]

theorem setCmd_of_fetches {f : FmtR} (rd : f.rd = 0) (rs2 : f.rs2 = 0) (rs3 : f.rs3 = 0) (rm : f.rm = 0) (rsv : f.rsv = 0)
    (set : SCore → Word → SCore) : s.setCmd c f set =
      (fetched s (cluKey c)).retire (cluKey c) (set (s.sc (cluKey c)) ((s.sc (cluKey c)).getX f.rs1.toNat)) :=
  scalar_go s _ _ _ fetch (by simp [rd, rs2, rs3, rm, rsv])

/-! ### Branches (Table 5.4) -/

/-- A conditional branch goes on at its target where its condition holds, else at the next instruction. -/
theorem branch_of_fetches {f : FmtB} (rd : f.rd = 0) (rsv : f.rsv = 0) {cond : Word → Word → Bool} {b : Bool}
    (hb : cond ((s.sc (cluKey c)).getX f.rs1.toNat) ((s.sc (cluKey c)).getX f.rs2.toNat) = b) :
    s.branch c f cond = (fetched s (cluKey c)).setSc (cluKey c) { s.sc (cluKey c) with
      pc := if b then (s.sc (cluKey c)).pc + (f.off.signExtend 64 <<< 3) else (s.sc (cluKey c)).pc + 8, fullStall := false } := by
  rw [State.branch, scalar_go s _ _ _ fetch (by simp [rd, rsv]), hb]
  cases b <;> rfl

end

/-- A branch offset counts instructions of eight bytes. -/
theorem signExtend_shiftLeft_three (off : BitVec 32) : off.signExtend 64 <<< 3 = BitVec.ofInt 64 (off.toInt * 8) := by
  have eight : (8 : Word) = BitVec.ofInt 64 8 := by decide
  rw [BitVec.shiftLeft_eq_mul_twoPow, show BitVec.twoPow 64 3 = (8 : Word) by decide, eight, BitVec.ofInt_mul]
  rfl

/-! ### The statements -/

/-- Settles O8: each row carries out its body; the masks are those of Table 4.6. -/
theorem commandAndSpecialRegisters : Obligations.CommandAndSpecialRegisters := by
  intro c r i s fetch k sc t n v
  refine ⟨fun plain => ?nop, fun rd rs2 rs3 rm rsv => ?command, fun counter => ?counters, fun allowed => ?special⟩
  case nop => exact congrArg Host.Outcome.next (scalar_go s _ _ _ fetch (decide_eq_true plain))
  case command =>
    have run (set : SCore → Word → SCore) :
        (.next (s.setCmd c r set) : Host.Outcome State Fault Refusal) = .next (t.retire k (set sc v)) :=
      congrArg _ (setCmd_of_fetches fetch rd rs2 rs3 rm rsv set)
    rw [← and_ofNat_two_pow_sub_one v (by decide), ← and_ofNat_two_pow_sub_one v (by decide), ← and_cmdwait_mask]
    exact ⟨run _, run _, run _⟩
  case counters =>
    have legal {b : BitVec 5} (zero : b = 0) : (b == 0 && decide (i.imm.toNat < 16)) = true := by simp [zero, counter, n]
    exact ⟨fun rs1 => congrArg Host.Outcome.next (scalar_go s _ _ _ fetch (legal rs1)),
      fun rd => ⟨congrArg Host.Outcome.next (scalar_go s _ _ _ fetch (legal rd)),
        congrArg Host.Outcome.next (scalar_go s _ _ _ fetch (legal rd))⟩⟩
  case special =>
    refine ⟨fun rs1 => ?read, fun rd => congrArg Host.Outcome.next (special_of_allowed fetch rd allowed _)⟩
    obtain ⟨w, value⟩ := Option.isSome_iff_exists.1 (xreg_isSome sc (allowed.imp_right And.left))
    refine ⟨w, value, congrArg Host.Outcome.next ?_⟩
    rw [special_of_allowed fetch rs1 allowed, value]
    rfl

/-- Settles O9: the branches by `branch_of_fetches`, the others by their bodies. -/
theorem branchesAndJumps : Obligations.BranchesAndJumps := by
  intro c f s fetch rsv k sc t x y far go
  have hfar : f.off.signExtend 64 <<< 3 = far := signExtend_shiftLeft_three f.off
  refine ⟨fun rd => ?branches, fun rs1 rs2 => ?jal, fun rs2 aligned => ?jalr, fun rs2 rd counter => ?waitc, fun plain => ?retx⟩
  case branches =>
    have run {cond : Word → Word → Bool} {b : Bool} (hb : cond x y = b) : .next (s.branch c f cond) = go b := by
      rw [branch_of_fetches fetch rd rsv hb, hfar]
    exact ⟨run rfl, run decide_not.symm, run rfl, run (decide_not.symm.trans (decide_eq_decide.2 Int.not_lt)), run rfl,
      run (decide_not.symm.trans (decide_eq_decide.2 Nat.not_lt))⟩
  case jal =>
    refine congrArg Host.Outcome.next ?_
    rw [scalar_go s _ _ _ fetch (by simp [rs1, rs2, rsv]), hfar]
  case jalr =>
    refine congrArg Host.Outcome.next ?_
    rw [scalar_go s _ _ _ fetch (by simp [rs2, rsv])]
    exact if_neg (not_not.2 aligned)
  case waitc =>
    refine congrArg Host.Outcome.next ?_
    rw [scalar_go s _ _ _ fetch (by simp [rs2, rd, rsv, counter])]
    simp only [ctrReached, Nat.mod_mod, decide_eq_true_eq]
    rfl
  case retx =>
    refine ⟨fun inSH => ?service, fun inSH inVH => ?vat⟩ <;> refine congrArg Host.Outcome.next ?_ <;>
      rw [scalar_go s _ _ _ fetch (decide_eq_true plain)]
    case service => exact if_pos inSH
    case vat => exact (if_neg (Bool.eq_false_iff.1 inSH)).trans (if_pos inVH)

end Sys2Proof.Machine
end

section
/-! PROOFS. Class S-MEM in the own scratch (Table 5.5, R128 to R130): values as bytes spell them, the access that passes the checks, and the
checks that trap. -/

namespace Sys2Proof.Machine

/-! ### Values in memory -/

theorem leNat_lt (bs : List Nat) : leNat bs < 256 ^ bs.length := by
  induction bs with
  | nil => exact Nat.one_pos
  | cons b r ih =>
    rw [leNat, List.length_cons, Nat.pow_succ]
    omega

/-- The number that n bytes spell fits n bytes. -/
theorem ld_lt (s : State) (a n : Nat) : s.ld a n < 256 ^ n := by
  have lt := leNat_lt (ofBytes (s.ldBytes a n))
  rwa [ofBytes, List.length_map, ldBytes_length] at lt

/-- A scratch read leaves every byte. -/
@[simp] theorem ld_readScr (s : State) (core off len src a n : Nat) : (s.readScr core off len src).1.ld a n = s.ld a n := by
  simp only [State.ld, State.ldBytes, State.byte, readScr_mem]

/-- A word read as signed is the word. -/
theorem ofInt_toSigned_64 {n : Nat} (h : n < 2 ^ 64) : BitVec.ofInt 64 (toSigned 64 n) = w64 n := by
  apply BitVec.eq_of_toNat_eq
  rw [w64, BitVec.toNat_ofInt, BitVec.toNat_ofNat, toSigned, Nat.mod_eq_of_lt h]
  split <;> omega

/-- What a load's register takes of the value that stands in memory (R128). -/
theorem MemOp.value_ld (m : MemOp) (s : State) (a : Nat) : m.value (s.ld a m.size) =
    if m.signed then BitVec.ofInt 64 (toSigned (8 * m.size) (s.ld a m.size)) else w64 (s.ld a m.size) := by
  rw [MemOp.value, Nat.mod_eq_of_lt (ld_lt s a m.size)]

theorem MemOp.put_of_int (m : MemOp) (int : m.fp = false) (sc : SCore) (rd v : Nat) : m.put sc rd v = sc.setX rd (m.value v) :=
  if_neg (Bool.eq_false_iff.1 int)

theorem MemOp.put_of_float (m : MemOp) (float : m.fp = true) (sc : SCore) (rd v : Nat) : m.put sc rd v = sc.setF rd (m.value v) :=
  if_pos float

/-! ### The access (R128, R129) -/

section
variable (t : State) {k core off : Nat} {m : MemOp} (rd data : Nat) (ea : Word) (sc : SCore)

theorem smemLocal_of_store (store : m.op = opStore) :
    t.smemLocal k core off m rd data ea sc = (t.writeScr core off (toBytes (leBytes m.size data))).retire k sc := if_pos store

section
variable (readOk : (t.readScr core off m.size 2).2 = true)
include readOk

theorem smemLocal_of_load (load : m.op = opLoad) :
    t.smemLocal k core off m rd data ea sc =
      (t.readScr core off m.size 2).1.retire k (m.put sc rd (t.ld (scrKey core off) m.size)) := by
  have noStore : m.op ≠ opStore := by rw [load]; decide
  have noAmo : m.op ≠ opAmo := by rw [load]; decide
  simp only [State.smemLocal, noStore, noAmo, readOk, if_false, Bool.not_true, Bool.false_eq_true, ld_readScr]

theorem smemLocal_of_amo (amo : m.op = opAmo) :
    t.smemLocal k core off m rd data ea sc =
      ((t.readScr core off m.size 2).1.writeScr core off
        (toBytes (leBytes 8 (amoNew m.redop (t.ld (scrKey core off) m.size) data)))).retire k
          (m.put sc rd (t.ld (scrKey core off) m.size)) := by
  have noStore : opAmo ≠ opStore := by decide
  simp only [State.smemLocal, noStore, amo, readOk, if_true, if_false, Bool.not_true, Bool.false_eq_true, ld_readScr]

end

end

/-! ### The checks (R128, R130) -/

section
variable {s : State} {c : Clu} {f : FmtM} {m : MemOp} (fetch : Fetches s (cluKey c)) (rsv : f.rsv = 0)
  (reg : m.fp = false ∨ f.rd.toNat < 16) {ea : Word} (hea : ea = (s.sc (cluKey c)).getX f.rs1.toNat + BitVec.ofInt 64 f.imm.toInt)
include fetch rsv reg hea

/-- A legal access checks its alignment first; with SPACE = 0 it then goes to the own scratch, where it may. -/
theorem smem_of_fetches (space : f.space = false ∨ ea.toNat % m.size ≠ 0) : s.smem c f m =
    if ea.toNat % m.size ≠ 0 then (fetched s (cluKey c)).trap (cluKey c) cAlign ea
    else if 0x200000 ≤ ea.toNat ∨ ((s.sc (cluKey c)).priv = false ∧ pail63At 4 ≤ ea.toNat) then
      (fetched s (cluKey c)).trap (cluKey c) cBounds ea
    else (fetched s (cluKey c)).smemLocal (cluKey c) (coreOf (cluKey c) 4) ea.toNat m f.rd.toNat
      (if m.fp then (s.sc (cluKey c)).getF f.rd.toNat else (s.sc (cluKey c)).getX f.rd.toNat).toNat ea (s.sc (cluKey c)) := by
  have legal : (f.rsv == 0 && (!m.fp || decide (f.rd.toNat < 16))) = true := by
    rcases reg with int | low
    · simp [rsv, int]
    · simp [rsv, low]
  have signed : f.imm.signExtend 64 = BitVec.ofInt 64 f.imm.toInt := rfl
  rw [State.smem, scalar_go _ _ _ _ fetch legal]
  simp only [signed, ← hea]
  rcases space with own | misaligned
  · simp only [own, Bool.not_false, if_true]
  · simp only [misaligned, ne_eq, not_false_eq_true, if_true]

theorem smem_of_misaligned (misaligned : ea.toNat % m.size ≠ 0) : s.smem c f m = (fetched s (cluKey c)).trap (cluKey c) cAlign ea := by
  rw [smem_of_fetches fetch rsv reg hea (.inr misaligned), if_pos misaligned]

section
variable (space : f.space = false) (aligned : ea.toNat % m.size = 0)
include space aligned

theorem smem_of_outside (outside : 0x200000 ≤ ea.toNat ∨ ((s.sc (cluKey c)).priv = false ∧ pail63At 4 ≤ ea.toNat)) :
    s.smem c f m = (fetched s (cluKey c)).trap (cluKey c) cBounds ea := by
  rw [smem_of_fetches fetch rsv reg hea (.inl space), if_neg (not_not.2 aligned), if_pos outside]

theorem smem_of_inside (below : ea.toNat < 0x200000) (allowed : (s.sc (cluKey c)).priv = true ∨ ea.toNat < pail63At 4) :
    s.smem c f m = (fetched s (cluKey c)).smemLocal (cluKey c) (coreOf (cluKey c) 4) ea.toNat m f.rd.toNat
      (if m.fp then (s.sc (cluKey c)).getF f.rd.toNat else (s.sc (cluKey c)).getX f.rd.toNat).toNat ea (s.sc (cluKey c)) := by
  have inside : ¬ (0x200000 ≤ ea.toNat ∨ ((s.sc (cluKey c)).priv = false ∧ pail63At 4 ≤ ea.toNat)) := by
    rintro (high | ⟨vat, service⟩)
    · exact absurd below (Nat.not_lt.2 high)
    · rcases allowed with priv | low
      · simp [priv] at vat
      · exact absurd low (Nat.not_lt.2 service)
  rw [smem_of_fetches fetch rsv reg hea (.inl space), if_neg (not_not.2 aligned), if_neg inside]

end

end

/-- Outside the service handler a trap writes its S-core alone. -/
theorem trap_mem {s : State} {ck : Nat} (h : (s.sc ck).inSH = false) (cause : Nat) (addr : Word) : (s.trap ck cause addr).mem = s.mem := by
  obtain ⟨r, entry⟩ := takeExc_sc s ck cause 4 0 0 (s.sc ck).priv addr h
  rw [State.trap, entry]
  rfl

/-! ### The statements -/

/-- Settles O11: the access passes the checks, so it is carried out; a load's register takes the value by `MemOp.value_ld`. -/
theorem localMemory : Obligations.LocalMemory := by
  intro c f s fetch rsv space k core sc t ea rd fit val readOk load store amo
  have inside (m : MemOp) (reg : m.fp = false ∨ rd < 16) (ok : fit m.size) :
      s.smem c f m = t.smemLocal k core ea m rd (if m.fp then sc.getF rd else sc.getX rd).toNat
        (sc.getX f.rs1.toNat + BitVec.ofInt 64 f.imm.toInt) sc := by
    obtain ⟨aligned, below, allowed⟩ := ok
    exact smem_of_inside fetch rsv reg rfl space aligned below allowed
  have loads {m : MemOp} (op : m.op = opLoad) (reg : m.fp = false ∨ rd < 16) (ok : fit m.size) (read : readOk m.size) :
      .next (s.smem c f m) = load m.size (m.put sc rd (val m.size)) := by
    rw [inside m reg ok, smemLocal_of_load t rd _ _ sc read op]
  have loadX {m : MemOp} (op : m.op = opLoad) (int : m.fp = false) (ok : fit m.size) (read : readOk m.size) :
      .next (s.smem c f m) = load m.size (sc.setX rd
        (if m.signed then BitVec.ofInt 64 (toSigned (8 * m.size) (val m.size)) else w64 (val m.size))) := by
    rw [loads op (.inl int) ok read, MemOp.put_of_int m int, MemOp.value_ld]
  have loadF {m : MemOp} (op : m.op = opLoad) (float : m.fp = true) (reg : rd < 16) (ok : fit m.size) (read : readOk m.size) :
      .next (s.smem c f m) = load m.size (sc.setF rd
        (if m.signed then BitVec.ofInt 64 (toSigned (8 * m.size) (val m.size)) else w64 (val m.size))) := by
    rw [loads op (.inr reg) ok read, MemOp.put_of_float m float, MemOp.value_ld]
  have stores {m : MemOp} (op : m.op = opStore) (reg : m.fp = false ∨ rd < 16) (ok : fit m.size) :
      .next (s.smem c f m) = store m.size (if m.fp then sc.getF rd else sc.getX rd) := by
    rw [inside m reg ok, smemLocal_of_store t rd _ _ sc op]
  have amos {redop : Nat} (ok : fit 8) (read : readOk 8) :
      .next (s.smem c f { op := opAmo, size := 8, redop := redop }) = amo (amoNew redop (val 8) (sc.getX rd).toNat) := by
    rw [inside _ (.inl rfl) ok, smemLocal_of_amo t rd _ _ sc read rfl, MemOp.put_of_int _ rfl, MemOp.value_ld]
    rfl
  refine ⟨fun ok read => ⟨loadX rfl rfl ok read, loadX rfl rfl ok read⟩, fun ok read => ⟨loadX rfl rfl ok read, loadX rfl rfl ok read⟩,
    fun ok read => ⟨loadX rfl rfl ok read, loadX rfl rfl ok read, fun reg => loadF rfl rfl reg ok read⟩,
    fun ok read => ⟨?ld, fun reg => loadF rfl rfl reg ok read, amos ok read, amos ok read⟩,
    fun ok => stores rfl (.inl rfl) ok, fun ok => stores rfl (.inl rfl) ok,
    fun ok => ⟨stores rfl (.inl rfl) ok, fun reg => stores rfl (.inr reg) ok⟩,
    fun ok => ⟨stores rfl (.inl rfl) ok, fun reg => stores rfl (.inr reg) ok⟩⟩
  case ld =>
    rw [← ofInt_toSigned_64 (ld_lt t (scrKey core ea) 8)]
    exact loadX rfl rfl ok read

/-- Settles O12: LD and SD are accesses of eight bytes; their checks trap in the state after the fetch. -/
theorem memoryTraps : Obligations.MemoryTraps := by
  intro c f s fetch rsv k sc t ea
  refine ⟨fun misaligned => ⟨?_, ?_⟩, fun aligned space outside => ⟨?_, ?_⟩, fun inSH => ?mem⟩
  iterate 2 exact congrArg Host.Outcome.next (smem_of_misaligned fetch rsv (.inl rfl) rfl misaligned)
  iterate 2 exact congrArg Host.Outcome.next (smem_of_outside fetch rsv (.inl rfl) rfl space aligned outside)
  case mem =>
    have outside : (t.sc k).inSH = false := (congrArg SCore.inSH (fetched_sc s k k)).trans inSH
    have kept : t.mem = s.mem := fetched_mem s k
    exact ⟨(trap_mem outside _ _).trans kept, (trap_mem outside _ _).trans kept⟩

end Sys2Proof.Machine
end

section
/-! PROOFS. Class F (Table 5.12, R139, R140, R248, R252): an operation that passes the checks enters and its packets start; how it ends. -/

namespace Sys2Proof.Machine

/-! ### Entry -/

/-- The vat whose packets an operation sends: a churn of the service names it in RS3[62:55] (Table 10.3). -/
def State.fopVat (t : State) (ck : Nat) (sc : SCore) (f : FmtF) (kind : FKind) : Nat :=
  if sc.priv then (if kind = .churn then (sc.getX f.rs3.toNat).toNat / 2 ^ 32 / 2 ^ 23 % 256 else 0) else t.vatIdOf ck

/-- Packets of an operation: 8,160 bytes of payload each for churn, 8,192 else; one in step-only mode (R248, R285). -/
def State.fopTotal (t : State) (ck len vat : Nat) (kind : FKind) : Nat :=
  if kind = .churn then (if t.chMode (ckTile ck) vat = 2 then 1 else (len + 8159) / 8160) else (len + 8191) / 8192

/-- The operation that an F instruction enters under a free OPID. -/
def State.newFop (t : State) (ck : Nat) (sc : SCore) (f : FmtF) (kind : FKind) (opid : Nat) : FOp :=
  let rs3 := (sc.getX f.rs3.toNat).toNat
  let vat := t.fopVat ck sc f kind
  ⟨opid, sc.nextF, kind, sc.getX f.rs1.toNat, sc.getX f.rs2.toNat, rs3 % 2 ^ 32, rs3 / 2 ^ 32,
    if f.route = 1 then some (sc.getX f.rr.toNat).toNat else none, f.sigCtr.toNat, f.sigEn, vat, sc.priv, 0,
    t.fopTotal ck (rs3 % 2 ^ 32) vat kind, [], [], 0,
    if t.injHeld (ckTile ck) (if kind = .churn then 2 else if sc.priv then 3 else 0) vat then none else some t.now, [], none⟩

/-- The state after the instruction: the operation is outstanding and its first packets have started. -/
def State.enterFop (t : State) (ck : Nat) (sc : SCore) (o : FOp) : State :=
  (((t.setFops ck (t.fops ck ++ [o])).wr Reg.DI_STATUS_OUTSTANDING ck (t.rd Reg.DI_STATUS_OUTSTANDING ck + 2 ^ o.opid)).retire ck
    { sc with nextF := sc.nextF + 1 }).pump ck

theorem fopTotal_eq (t : State) (ck len vat : Nat) (kind : FKind) :
    (if kind = .churn ∧ t.chMode (ckTile ck) vat = 2 then 1
      else (len + (if kind = .churn then 8160 else 8192) - 1) / (if kind = .churn then 8160 else 8192)) = t.fopTotal ck len vat kind := by
  cases kind <;> simp [State.fopTotal]

section
variable {s t : State} {c : Clu} {f : FmtF} {kind : FKind} {sc : SCore}

/-- ROUTE names no route, with RR 0, or a source route (R139). -/
theorem fop_legal (rsv : f.rsv = 0) (route : f.route.toNat < 2) (rr : f.route = 0 → f.rr = 0) :
    (f.rsv == 0 && (f.route == 1 || (f.route == 0 && f.rr == 0))) = true := by
  rcases (by omega : f.route.toNat = 0 ∨ f.route.toNat = 1) with zero | one
  · have zero : f.route = 0 := BitVec.eq_of_toNat_eq zero
    simp [rsv, zero, rr zero]
  · have one : f.route = 1 := BitVec.eq_of_toNat_eq one
    simp [rsv, one]

/-- RS3[63:32] holds a churn's fields, and nothing for the other operations (R139, R284). -/
theorem fop_hi_allowed {ck hi : Nat} (fields : if kind = .churn then t.churnOk ck sc.priv hi = true else hi = 0) :
    (kind == .churn && !t.churnOk ck sc.priv hi) = false ∧ (kind != .churn && decide (hi ≠ 0)) = false := by
  cases kind with
  | churn => exact ⟨by simpa using fields, rfl⟩
  | put => exact ⟨rfl, by simpa using fields⟩
  | get => exact ⟨rfl, by simpa using fields⟩

/-- An F instruction that passes every check enters its operation. -/
theorem fop_of_allowed {opid : Nat} (fetch : Fetches s (cluKey c)) (rsv : f.rsv = 0) (route : f.route.toNat < 2)
    (rr : f.route = 0 → f.rr = 0) (ht : t = fetched s (cluKey c)) (hsc : sc = s.sc (cluKey c))
    (free : ((List.range 16).find? fun i => (t.fops (cluKey c)).all fun o => o.opid != i) = some opid)
    (remote : (sc.getX f.rs1.toNat).toNat % 8 = 0) (loc : (sc.getX f.rs2.toNat).toNat % 8 = 0)
    (addr : t.fopAddrOk (cluKey c) kind sc.priv (sc.getX f.rs1.toNat).toNat (sc.getX f.rs2.toNat).toNat
      ((sc.getX f.rs3.toNat).toNat % 2 ^ 32) = true)
    (fields : if kind = .churn then t.churnOk (cluKey c) sc.priv ((sc.getX f.rs3.toNat).toNat / 2 ^ 32) = true
      else (sc.getX f.rs3.toNat).toNat / 2 ^ 32 = 0)
    {d : Nat × Nat} (hd : d = t.destOf ((sc.getX f.rs1.toNat).toNat % 2 ^ 63))
    (routed : f.route = 1 → t.routeOk (ckTile (cluKey c)) (sc.getX f.rr.toNat).toNat d.1 d.2 = true) :
    s.fop c f kind = t.enterFop (cluKey c) sc (t.newFop (cluKey c) sc f kind opid) := by
  obtain ⟨churn, plain⟩ := fop_hi_allowed fields
  have source : (f.route == 1 && !t.routeOk (ckTile (cluKey c)) (sc.getX f.rr.toNat).toNat d.1 d.2) = false := by
    simpa using routed
  rw [State.fop, scalar_go s _ _ _ fetch (fop_legal rsv route rr), ← ht, ← hsc]
  simp only [free, remote, loc, addr, churn, plain, ← hd, source, ne_eq, not_true, or_self, if_false, Bool.not_true, Bool.or_self,
    Bool.false_eq_true, fopTotal_eq]
  rfl

end

/-! ### The end -/

theorem ckTile_cluKey (c : Clu) : ckTile (cluKey c) = c.tile.val := by
  simp only [ckTile, cluKey]
  omega

section
variable {s : State} {ck : Nat} {id : BitVec 4} {o : FOp} (found : ((s.fops ck).find? fun o => o.opid == id.toNat) = some o)
include found

/-- An operation whose every packet is acknowledged ends and signals (R140, R249). -/
theorem doFopComplete_of_acked (sent : o.sent = o.total) (acked : o.acked.length = o.total) : s.doFopComplete ck id.toNat =
    if o.sigEn then (s.dropFop ck id.toNat).signal ck o.sigCtr else s.dropFop ck id.toNat := by
  simp only [State.doFopComplete, found, sent, acked, and_self, if_true]

/-- An operation whose timer has reached OP_TIMEOUT fails with ECC (R252). -/
theorem doOpTimeout_of_late {u : Nat} (since : o.since = some u)
    (late : s.rd Reg.DYN_TMO_OP_TIMEOUT (ckTile ck) * 900 ≤ o.ran + (s.now - u)) :
    ∃ seq, s.doOpTimeout ck (.fop id) = (s.bump Reg.DI_STATS_TIMEOUTS ck).failFop ck o cEcc seq := by
  have reached : s.timedOut ck o.ran o.since = true := by
    simp only [State.timedOut, State.timerRan, since, us, Option.isSome_some, Bool.true_and, decide_eq_true_eq]
    omega
  simp only [State.doOpTimeout, found, reached, if_true]
  exact ⟨_, rfl⟩

end

/-! ### The statement -/

/-- Settles O15: entry by `fop_of_allowed`, the ends by the lemmas above; F.WAIT and MFENCE find nothing outstanding. -/
theorem fabricOperations : Obligations.FabricOperations := by
  refine ⟨fun c f s kind opid fetch rsv route rr => ?enter, fun c s fetch none => ?wait, fun c s fetch none => ?fence,
    fun c id s o found => ⟨fun sent acked => ?complete, fun u since late => ?timeout⟩⟩
  case enter =>
    intro k sc t remote loc len hi _ vat d free aligned alignedLoc addr fields routed total o
    have enters := fop_of_allowed fetch rsv route rr rfl rfl free aligned alignedLoc addr fields rfl routed
    cases kind <;> exact congrArg Host.Outcome.next enters
  case wait =>
    refine congrArg Host.Outcome.next ?_
    rw [scalar_go s _ _ _ fetch (by decide)]
    exact if_pos none
  case fence =>
    refine congrArg Host.Outcome.next ?_
    rw [scalar_go s _ _ _ fetch (by decide)]
    exact if_pos none
  case complete => exact congrArg Host.Outcome.next (doFopComplete_of_acked found sent acked)
  case timeout =>
    rw [← ckTile_cluKey c] at late
    obtain ⟨seq, ends⟩ := doOpTimeout_of_late found since late
    exact ⟨seq, congrArg (fun t : State => Host.Outcome.next t.pumpAll) ends⟩

end Sys2Proof.Machine
end

section
/-! PROOFS. Exceptions of the S-core (5.7, R142 to R147) and class C: what the entry to a handler writes, and where each exception goes. -/

namespace Sys2Proof.Machine

/-! ### The S-core written twice -/

section
variable {α : Type}

theorem minsert_minsert (k : Nat) (v w : α) (m : FMap α) : minsert k w (minsert k v m) = minsert k w m := by
  induction m with
  | nil => simp [minsert]
  | cons e r ih =>
    obtain ⟨j, u⟩ := e
    rcases Nat.lt_trichotomy k j with lt | rfl | gt
    · simp [minsert, lt]
    · simp [minsert]
    · simp [minsert, Nat.not_lt.2 gt.le, gt.ne', ih]

theorem merase_minsert (k : Nat) (v : α) (m : FMap α) : merase k (minsert k v m) = merase k m := by
  induction m with
  | nil => simp [minsert, merase]
  | cons e r ih =>
    obtain ⟨j, u⟩ := e
    rcases Nat.lt_trichotomy k j with lt | rfl | gt
    · simp [minsert, merase, lt]
    · simp [minsert, merase]
    · simp [minsert, merase, Nat.not_lt.2 gt.le, gt.ne', ih]

/-- The second write of a key counts. The first must not remove an entry: in a map whose keys do not rise its place would be lost. -/
theorem mset_mset [DecidableEq α] {d v : α} (hv : v ≠ d) (m : FMap α) (k : Nat) (w : α) : mset d (mset d m k v) k w = mset d m k w := by
  rw [mset, mset, mset, if_neg hv, minsert_minsert, merase_minsert]

end

theorem setSc_setSc (s : State) (ck : Nat) {c : SCore} (up : c.up = true) (r : SCore) : (s.setSc ck c).setSc ck r = s.setSc ck r := by
  have started : c ≠ {} := by
    rintro rfl
    cases up
  rw [State.setSc, State.setSc, State.setSc, mset_mset started]

/-! ### Entry to a handler (R143, R144) -/

/-- The S-core as an exception leaves it outside the service handler: in the vat handler, or in the service handler, as DOUBLE where the
vat handler met it. -/
def SCore.deliver (c : SCore) (cause src sigCtr tag : Nat) (priv : Bool) (addr : Word) : SCore :=
  let r := { c with wait := none, deadline := none, qdlv := if src < 4 then c.qdlv ||| (1 <<< src) else c.qdlv }
  if svcCause cause = false ∧ c.inVH = false ∧ priv = false ∧ c.vtvec ≠ 0 then
    { r with vepc := c.pc, vecause := w64 cause, veinfo := infoWord src sigCtr tag priv 0, veaddr := addr, inVH := true, pc := c.vtvec }
  else if svcCause cause = false ∧ c.inVH = true then
    { r with sepc := c.pc, secause := w64 cDouble, seinfo := infoWord src sigCtr tag priv cause, seaddr := addr, inSH := true,
             prevPriv := c.priv, priv := true, pc := c.stvec }
  else
    { r with sepc := c.pc, secause := w64 cause, seinfo := infoWord src sigCtr tag priv 0, seaddr := addr, inSH := true,
             prevPriv := c.priv, priv := true, pc := c.stvec }

section
variable {s : State} {ck : Nat} {c : SCore} (hc : s.sc ck = c)
include hc

theorem takeExc_of_not_inSH (h : c.inSH = false) (cause src sigCtr tag : Nat) (priv : Bool) (addr : Word) :
    s.takeExc ck cause src sigCtr tag priv addr = s.setSc ck (c.deliver cause src sigCtr tag priv addr) := by
  simp only [State.takeExc, SCore.deliver, hc, h, Bool.false_eq_true, if_false, Bool.and_eq_true, Bool.not_eq_true', bne_iff_ne, and_assoc]
  split
  · rfl
  · split <;> rfl

end

/-- A cause of the service goes to the service handler under its own code. -/
theorem deliver_of_svcCause (c : SCore) {cause : Nat} (h : svcCause cause = true) (tag : Nat) (priv : Bool) (addr : Word) :
    c.deliver cause 4 0 tag priv addr =
      { c with wait := none, deadline := none, sepc := c.pc, secause := w64 cause,
               seinfo := infoWord 4 0 tag priv 0, seaddr := addr, inSH := true, prevPriv := c.priv, priv := true,
               pc := c.stvec } := by
  simp [SCore.deliver, h]

/-! ### Entry at an instruction boundary (R146) -/

/-- The S-core with a pending exception taken out. -/
def SCore.dropExc (c : SCore) (e : Exc) : SCore := { c with excs := c.excs.erase e }

section
variable {s : State} {c : Clu}

theorem doExceptionEntry_of_pending {e : Exc} (up : (s.sc (cluKey c)).up = true) (held : (s.sc (cluKey c)).held = false)
    (spilled : (s.sc (cluKey c)).spilled = false) (stopped : (s.sc (cluKey c)).stopped = false)
    (load : (s.sc (cluKey c)).wait ≠ some .load) (start : (s.sc (cluKey c)).wait ≠ some .start)
    (inSH : (s.sc (cluKey c)).inSH = false) (next : (s.sc (cluKey c)).nextExc = some e) :
    s.doExceptionEntry c = s.setSc (cluKey c) (((s.sc (cluKey c)).dropExc e).deliver e.cause e.src
      e.sigCtr e.tag e.priv e.addr) := by
  have boundary : s.doExceptionEntry c = (s.setSc (cluKey c) ((s.sc (cluKey c)).dropExc e)).takeExc
      (cluKey c) e.cause e.src e.sigCtr e.tag e.priv e.addr := by
    have awake : (!(s.sc (cluKey c)).up || (s.sc (cluKey c)).held || (s.sc (cluKey c)).spilled || (s.sc (cluKey c)).stopped ||
        (s.sc (cluKey c)).wait == some .load || (s.sc (cluKey c)).wait == some .start) = false := by
      simp [up, held, spilled, stopped, load, start]
    simp only [State.doExceptionEntry, awake, next, Bool.false_eq_true, if_false]
    rfl
  have started : ((s.sc (cluKey c)).dropExc e).up = true := up
  rw [boundary, takeExc_of_not_inSH (sc_setSc_self s _ ((s.sc (cluKey c)).dropExc e)) inSH, setSc_setSc s _ started]

theorem doExceptionEntry_of_fetches (fetch : Fetches s (cluKey c)) (next : (s.sc (cluKey c)).nextExc = none) :
    s.doExceptionEntry c = if s.wordOk c then fetched s (cluKey c) else (fetched s (cluKey c)).trapNoAddr (cluKey c) cIllegal := by
  have ready := fetch.1
  simp only [State.sReady, Bool.and_eq_true, Bool.not_eq_true', Option.isNone_iff_eq_none] at ready
  obtain ⟨⟨⟨⟨⟨⟨up, held⟩, spilled⟩, stopped⟩, wait⟩, -⟩, -⟩ := ready
  have fetches : s.doExceptionEntry c = s.scalar (cluKey c) (s.wordOk c) fun _ s => s := by
    simp [State.doExceptionEntry, up, held, spilled, stopped, wait, next]
  rw [fetches]
  cases legal : s.wordOk c with
  | true => exact scalar_go s _ _ _ fetch rfl
  | false => exact scalar_illegal s _ _ fetch

end

/-! ### Class C -/

/-- C.SVC with the code that the step loop waits for is noted for the loops of the vat and of those above it (R479). -/
def State.noteSvc (s : State) (ck code : Nat) : State :=
  let ids := s.chain (s.vatIdOf ck)
  if code = 0x0100 then
    { s with svc := { s.svc with steps := s.svc.steps.map fun r => if ids.contains r.vat then { r with svcCalled := true } else r } }
  else s

theorem noteSvc_frame (s : State) (ck code : Nat) : ∃ v, s.noteSvc ck code = { s with svc := v } := by
  unfold State.noteSvc
  simp only
  split
  · exact ⟨_, rfl⟩
  · exact ⟨s.svc, rfl⟩

/-- C.SVC takes its exception in a state with the memory and the S-cores of the fetch. -/
theorem exec_cSvc_of_fetches {s : State} {c : Clu} {f : FmtI} (fetch : Fetches s (cluKey c))
    (legal : (f.rd == 0 && f.rs1 == 0 && decide (f.imm.toNat < 2 ^ 16)) = true) :
    ∃ (u : State) (a : Word), u.sc (cluKey c) = s.sc (cluKey c) ∧ u.mem = s.mem ∧
      exec (.cSvc c f) s = .next (u.takeExc (cluKey c) cSvc 4 0 f.imm.toNat (s.sc (cluKey c)).priv a) := by
  obtain ⟨v, noted⟩ := noteSvc_frame (fetched s (cluKey c)) (cluKey c) f.imm.toNat
  refine ⟨((fetched s (cluKey c)).noteSvc (cluKey c) f.imm.toNat).draw.2, ((fetched s (cluKey c)).noteSvc (cluKey c) f.imm.toNat).draw.1,
    ?_, ?_, congrArg Host.Outcome.next (scalar_go s _ _ _ fetch legal)⟩ <;> rw [noted]
  · exact fetched_sc s _ _
  · exact fetched_mem s _

section
variable {s : State} {c : Clu} {f : FmtR} (fetch : Fetches s (cluKey c))
  (legal : (f.rd == 0 && f.rs2 == 0 && f.rs3 == 0 && f.rm == 0 && f.rsv == 0) = true) {x : Word}
include fetch legal

/-- C.ENTER at service privilege drops to vat privilege at RS1 (R142). -/
theorem exec_cEnter_of_priv (hx : x = (s.sc (cluKey c)).getX f.rs1.toNat) (priv : (s.sc (cluKey c)).priv = true)
    (aligned : x.toNat % 8 = 0) :
    exec (.cEnter c f) s =
      .next ((fetched s (cluKey c)).setSc (cluKey c) { s.sc (cluKey c) with priv := false, pc := x, fullStall := false }) := by
  refine congrArg Host.Outcome.next ?_
  rw [scalar_go s _ _ _ fetch legal]
  simp only [← hx, priv, aligned, Bool.not_true, Bool.false_eq_true, ne_eq, not_true, if_false]

/-- C.FENCE of a core of this module (R401). -/
theorem exec_cFence_of_priv (hx : x = (s.sc (cluKey c)).getX f.rs1.toNat) (priv : (s.sc (cluKey c)).priv = true)
    (small : x.toNat < 2 ^ 20) {core : Nat} (ok : (fetched s (cluKey c)).coreOk 0 true (x.toNat / 2 ^ 14) (x.toNat % 2 ^ 14) = true)
    (own : x.toNat / 2 ^ 14 = (fetched s (cluKey c)).ownMod)
    (phys : (fetched s (cluKey c)).physCore true (x.toNat % 2 ^ 14) = some core) :
    exec (.cFence c f) s = .next (((fetched s (cluKey c)).retire (cluKey c) (s.sc (cluKey c))).fence core) := by
  have ownKept : ((fetched s (cluKey c)).retire (cluKey c) (s.sc (cluKey c))).ownMod = (fetched s (cluKey c)).ownMod := rfl
  have physKept (id : Nat) : ((fetched s (cluKey c)).retire (cluKey c) (s.sc (cluKey c))).physCore true id =
      (fetched s (cluKey c)).physCore true id := rfl
  refine congrArg Host.Outcome.next ?_
  rw [scalar_go s _ _ _ fetch legal]
  simp only [← hx, priv, Nat.not_le.2 small, ok, ownKept, ← own, physKept, phys, Bool.not_true, Bool.false_eq_true, or_self, if_true,
    if_false]

/-- Both are instructions of the service. -/
theorem exec_cEnter_of_vat (vat : (s.sc (cluKey c)).priv = false) :
    exec (.cEnter c f) s = .next ((fetched s (cluKey c)).trapNoAddr (cluKey c) cPriv) := by
  refine congrArg Host.Outcome.next ?_
  rw [scalar_go s _ _ _ fetch legal, vat]
  rfl

theorem exec_cFence_of_vat (vat : (s.sc (cluKey c)).priv = false) :
    exec (.cFence c f) s = .next ((fetched s (cluKey c)).trapNoAddr (cluKey c) cPriv) := by
  refine congrArg Host.Outcome.next ?_
  rw [scalar_go s _ _ _ fetch legal, vat]
  rfl

end

/-! ### The statement -/

/-- Settles O18: the entry by `takeExc_of_not_inSH`, the instructions of class C by their bodies. -/
theorem exceptions : Obligations.Exceptions := by
  refine ⟨fun c s e => ?entry, fun c s fetch next => ?fetch, fun c f s fetch rd rs1 code inSH => ?svc,
    fun c f s fetch rd rs2 rs3 rm rsv => ?priv, fun c f s fetch rd low high vat => ?xwr⟩
  case entry =>
    intro k sc up held spilled stopped load start inSH next r
    exact congrArg Host.Outcome.next (doExceptionEntry_of_pending up held spilled stopped load start inSH next)
  case fetch => exact congrArg Host.Outcome.next (doExceptionEntry_of_fetches fetch next)
  case svc =>
    have legal : (f.rd == 0 && f.rs1 == 0 && decide (f.imm.toNat < 2 ^ 16)) = true := by rw [rd, rs1, decide_eq_true code]; rfl
    obtain ⟨u, a, sc, mem, takes⟩ := exec_cSvc_of_fetches fetch legal
    rw [takeExc_of_not_inSH sc inSH, deliver_of_svcCause _ (by decide)] at takes
    refine ⟨_, takes, ?_⟩
    rw [sc_setSc_self]
    exact ⟨rfl, rfl, rfl, rfl, rfl, rfl, rfl, mem⟩
  case priv =>
    have legal : (f.rd == 0 && f.rs2 == 0 && f.rs3 == 0 && f.rm == 0 && f.rsv == 0) = true := by simp [rd, rs2, rs3, rm, rsv]
    exact ⟨fun priv aligned => exec_cEnter_of_priv fetch legal rfl priv aligned,
      fun priv small core ok own phys => exec_cFence_of_priv fetch legal rfl priv small ok own phys,
      fun vat => ⟨exec_cEnter_of_vat fetch legal vat, exec_cFence_of_vat fetch legal vat⟩⟩
  case xwr =>
    have number : f.imm.toNat ∈ svcXregs := by
      simp only [svcXregs, List.mem_cons, List.not_mem_nil, or_false]
      omega
    exact congrArg Host.Outcome.next (special_of_denied fetch rd number vat _)

end Sys2Proof.Machine
end

section
/-! PROOFS. The frame of the register instructions (R143, R153, R154): on every path, traps included, an instruction whose body writes its
own S-core leaves everything but that S-core and what the fetch counts. -/

namespace Sys2Proof.Machine

/-- What an instruction that acts on its own S-core may change: that S-core, what a read of its own scratch counts and queues, and the
free values. -/
structure RegisterStep (ck : Nat) (s t : State) : Prop where
  mem : t.mem = s.mem
  others : ∀ k, k ≠ ck → t.sc k = s.sc k
  rd : ∀ f inst idx, (∀ g ∈ [Reg.SCR_ECC_CORRECTED, Reg.SCR_ECC_UNCORRECTED, Reg.SCR_ECC_LAST_UE, Reg.SCR_ECC_LAST_SRC, Reg.SCR_ECC_UE_NEW],
    fkey g (coreOf ck 4) 0 ≠ fkey f inst idx) → t.rd f inst idx = s.rd f inst idx
  frame : ∃ r x w u n, t = { s with regs := r, free := n, cmp := { s.cmp with sc := x, wback := w, ueNew := u } }

namespace RegisterStep

variable {ck : Nat} {s t : State}

theorem refl (ck : Nat) (s : State) : RegisterStep ck s s := ⟨rfl, fun _ _ => rfl, fun _ _ _ _ => rfl, _, _, _, _, _, rfl⟩

theorem fetched (s : State) (ck : Nat) : RegisterStep ck s (fetched s ck) := by
  obtain ⟨r, w, u, read⟩ := readScr_frame s (coreOf ck 4) (s.sc ck).pc.toNat 8 2
  exact ⟨fetched_mem s ck, fun k _ => fetched_sc s ck k, fun f inst idx h => readScr_rd s _ _ _ _ f inst idx h, r, s.cmp.sc, w, u, s.free,
    read⟩

theorem setSc (h : RegisterStep ck s t) (c : SCore) : RegisterStep ck s (t.setSc ck c) := by
  obtain ⟨mem, others, rd, r, x, w, u, n, frame⟩ := h
  refine ⟨mem, fun k hk => (sc_setSc_ne t ck k c hk.symm).trans (others k hk), rd, r, (t.setSc ck c).cmp.sc, w, u, n, ?_⟩
  rw [frame]
  rfl

theorem draw (h : RegisterStep ck s t) (n : Nat) : RegisterStep ck s { t with free := n } := by
  obtain ⟨mem, others, rd, r, x, w, u, m, frame⟩ := h
  refine ⟨mem, others, rd, r, x, w, u, n, ?_⟩
  rw [frame]

/-- Outside the service handler a trap writes the S-core alone. -/
theorem trap (h : RegisterStep ck s t) (inSH : (t.sc ck).inSH = false) (cause : Nat) (addr : Word) :
    RegisterStep ck s (t.trap ck cause addr) := by
  obtain ⟨c, entry⟩ := takeExc_sc t ck cause 4 0 0 (t.sc ck).priv addr inSH
  rw [State.trap, entry]
  exact h.setSc c

theorem trapNoAddr (h : RegisterStep ck s t) (inSH : (t.sc ck).inSH = false) (cause : Nat) : RegisterStep ck s (t.trapNoAddr ck cause) := by
  obtain ⟨c, entry⟩ := trapNoAddr_sc t ck cause inSH
  rw [entry]
  exact (h.draw _).setSc c

end RegisterStep

/-- A body that writes its own S-core alone, where that is outside its service handler. -/
def WritesOwn (ck : Nat) (body : SCore → State → State) : Prop :=
  ∀ sc t, (t.sc ck).inSH = false → ∃ c, body sc t = t.setSc ck c

/-- On every path of such an instruction. -/
theorem scalar_registerStep {ck : Nat} {s : State} {body : SCore → State → State} (own : WritesOwn ck body)
    (inSH : (s.sc ck).inSH = false) (legal : Bool) : RegisterStep ck s (s.scalar ck legal body) := by
  have fetch := RegisterStep.fetched s ck
  have inSH' : ((fetched s ck).sc ck).inSH = false := by rwa [fetched_sc]
  rcases scalar_cases s ck legal body with path | path | path | path | ⟨-, path⟩ <;> rw [path]
  · exact .refl ck s
  · exact (RegisterStep.refl ck s).trap inSH _ _
  · exact fetch.trap inSH' _ _
  · exact fetch.trapNoAddr inSH' _
  · obtain ⟨c, writes⟩ := own (s.sc ck) (fetched s ck) inSH'
    rw [writes]
    exact fetch.setSc c

section
variable {s : State} {c : Clu} (inSH : (s.sc (cluKey c)).inSH = false)
include inSH

theorem branch_registerStep (f : FmtB) (cond : Word → Word → Bool) : RegisterStep (cluKey c) s (s.branch c f cond) := by
  refine scalar_registerStep (fun sc t _ => ?_) inSH _
  split
  · exact ⟨_, rfl⟩
  · exact ⟨_, rfl⟩

/-- JALR traps where its target is misaligned. -/
theorem exec_jalr_registerStep (f : FmtB) : ∃ t, exec (.jalr c f) s = .next t ∧ RegisterStep (cluKey c) s t := by
  refine ⟨_, rfl, scalar_registerStep (fun sc t inSH => ?_) inSH _⟩
  dsimp only
  split
  · exact takeExc_sc t (cluKey c) cAlign 4 0 0 (t.sc (cluKey c)).priv _ inSH
  · exact ⟨_, rfl⟩

/-- The arms of `registerOnly`, in its order: 39 to 44 are the branches, 46 is JALR, 47 every other command; an instruction of another arm
writes its destination and moves on. -/
theorem exec_of_registerOnly {i : Instr} (h : registerOnly c i = true) : ∃ t, exec i s = .next t ∧ RegisterStep (cluKey c) s t := by
  unfold registerOnly at h
  split at h
  case h_47 => cases h
  all_goals rw [beq_iff_eq] at h; subst h
  case h_39 | h_40 | h_41 | h_42 | h_43 | h_44 => exact ⟨_, rfl, branch_registerStep inSH _ _⟩
  case h_46 => exact exec_jalr_registerStep inSH _
  all_goals exact ⟨_, rfl, scalar_registerStep (fun _ _ _ => ⟨_, rfl⟩) inSH _⟩

end

/-- Settles O58: every register instruction takes one of the paths of a scalar instruction, and none leaves the frame. -/
theorem registerFrame : Obligations.RegisterFrame := by
  intro c i s t only inSH run
  obtain ⟨u, exec, step⟩ := exec_of_registerOnly inSH only
  obtain rfl : u = t := Host.Outcome.next.inj (exec.symm.trans run)
  obtain ⟨mem, others, rd, frame⟩ := step
  exact ⟨mem, others, rd, frame⟩

end Sys2Proof.Machine
end

section
/-! PROOFS. The grant table and the T3 ports (7.4, 7.5, R187, R188, R190): the fields of a window, a port that goes down, a read that
stands at it, and a device's DMA into T1. -/

namespace Sys2Proof.Machine

/-! ### Fields of a register word -/

/-- A write leaves the other fields of its word. -/
theorem rd_wr_of_lo_ne (s : State) (f g : Fld) (i v k : Nat) (blk : f.blk = g.blk) (off : f.off = g.off) (step : f.step = g.step)
    (lo : f.lo ≠ g.lo) : (s.wr f i v k).rd g i k = s.rd g i k := by
  apply rd_wr_ne
  simp only [fkey, blk, off, step]
  omega

/-! ### Windows granted to vats (R190, Table 7.11) -/

theorem exec_tierGrantWrite (vat : BitVec 8) (win : BitVec 4) (v : Word) (s : State) :
    exec (.tierGrantWrite vat win v) s = .next (s.doGrantWrite vat.toNat win.toNat v.toNat) := rfl

section
variable {vat : Nat} (notZero : vat ≠ 0)
include notZero

theorem doGrantWrite_mem (s : State) (w v : Nat) : (s.doGrantWrite vat w v).mem = s.mem := by
  simp only [State.doGrantWrite, if_neg notZero, wr_mem]

/-- A grant write stores the five fields of its window. -/
theorem doGrantWrite_rd (s : State) (w v : Nat) : let t := s.doGrantWrite vat w v; let i := vat * 16 + w
    t.rd Reg.GRANT_VALID 0 i = v % 2 ∧ t.rd Reg.GRANT_WRITE 0 i = v / 2 % 2 ∧ t.rd Reg.GRANT_TIER 0 i = v / 4 % 4 ∧
      t.rd Reg.GRANT_BASE_2M 0 i = v / 16 % 2 ^ 31 ∧ t.rd Reg.GRANT_PAGES_M1 0 i = v / 2 ^ 35 % 2 ^ 22 := by
  simp only [State.doGrantWrite, if_neg notZero]
  refine ⟨?valid, ?write, ?tier, ?base, ?pages⟩
  all_goals
    simp (disch := decide) only [rd_wr_of_lo_ne, rd_wr_self]
    simp [bitsOf, Reg.GRANT_VALID, Reg.GRANT_WRITE, Reg.GRANT_TIER, Reg.GRANT_BASE_2M, Reg.GRANT_PAGES_M1]

end

/-! ### What a fault record leaves (R397, R426) -/

/-- `t` reads as `s` in every register of the blocks numbered below 28, the field log's: fault records and completions write the field log
and the registers of functions and queues, which lie above. -/
def State.SameRegsBelowLog (s t : State) : Prop := ∀ g j m, fkey g j m < 28 * 2 ^ 42 → t.rd g j m = s.rd g j m

namespace State.SameRegsBelowLog

variable {s t u : State}

theorem refl (s : State) : s.SameRegsBelowLog s := fun _ _ _ _ => rfl

theorem trans (h : s.SameRegsBelowLog t) (g : t.SameRegsBelowLog u) : s.SameRegsBelowLog u :=
  fun f i k below => (g f i k below).trans (h f i k below)

theorem of_ite {p : Prop} [Decidable p] (h : s.SameRegsBelowLog t) (g : s.SameRegsBelowLog u) :
    s.SameRegsBelowLog (if p then t else u) := by
  split
  · exact h
  · exact g

/-- A step that leaves `State.regs` as it is. -/
theorem of_regs (h : t.regs = s.regs) : s.SameRegsBelowLog t := fun g j m _ => congrArg (mget g.rst · (fkey g j m)) h

theorem wr (s : State) (f : Fld) (i v k : Nat) (above : 28 ≤ blkNum f.blk) : s.SameRegsBelowLog (s.wr f i v k) := by
  intro g j m below
  have le : 28 * 2 ^ 42 ≤ fkey f i k := by
    unfold fkey
    generalize blkNum f.blk = b at above
    omega
  exact rd_wr_ne _ _ _ _ _ _ _ _ (by omega)

theorem bump (s : State) (f : Fld) (i n k : Nat) (above : 28 ≤ blkNum f.blk) : s.SameRegsBelowLog (s.bump f i n k) :=
  wr s f i _ k above

theorem bumpW (s : State) (f : Fld) (i n k : Nat) (above : 28 ≤ blkNum f.blk) : s.SameRegsBelowLog (s.bumpW f i n k) :=
  wr s f i _ k above

theorem hostWrite (s : State) (a : Nat) (bs : List Byte) : s.SameRegsBelowLog (s.hostWrite a bs) :=
  of_ite (of_regs rfl) (bump _ _ _ _ _ (by decide))

/-- A completion (R468). -/
theorem writeComp (s : State) (c : HComp) : s.SameRegsBelowLog (s.writeComp c) := by
  unfold State.writeComp
  refine trans (trans (trans (trans (trans (hostWrite s _ _) (hostWrite _ _ _)) (wr _ _ _ _ _ ?tail)) (bumpW _ _ _ _ _ ?completed))
    (of_ite (bump _ _ _ _ _ ?aborted) (refl _))) (of_regs rfl)
  all_goals decide

theorem endCmd (s : State) (c : HCmd) (status result : Nat) : s.SameRegsBelowLog (s.endCmd c status result) :=
  trans (t := { s with host := { s.host with cmds := s.host.cmds.filter fun d => d.id != c.id } }) (of_regs rfl)
    (of_ite (of_regs rfl) (writeComp _ _))

/-- An event (R472). -/
theorem event (s : State) (w : Nat) : s.SameRegsBelowLog (s.event w) := by
  unfold State.event
  split
  · exact endCmd _ _ _ _
  · exact trans (trans (of_ite (bump _ _ _ _ _ (by decide)) (refl s)) (of_regs rfl)) (wr _ _ _ _ _ (by decide))

theorem stain (s : State) : s.SameRegsBelowLog s.stain := of_regs rfl

theorem stBytes (s : State) (a : Nat) (bs : List Byte) : s.SameRegsBelowLog (s.stBytes a bs) := of_regs rfl

theorem logRecord (s : State) (ty : Nat) (ws : List Word) : s.SameRegsBelowLog (s.logRecord ty ws) := by
  unfold State.logRecord
  refine of_ite (of_ite (trans (of_regs rfl) (wr _ _ _ _ _ ?perm)) (bump _ _ _ _ _ ?lost))
    (of_ite (trans (of_regs rfl) (wr _ _ _ _ _ ?hist)) (trans (of_regs rfl) (wr _ _ _ _ _ ?owner)))
  all_goals decide

/-- A fault record (R397, R426). -/
theorem faultRec (s : State) (r : FRec) : s.SameRegsBelowLog (s.faultRec r) := by
  unfold State.faultRec
  refine trans (trans (trans (trans (wr s _ _ _ _ ?seq) (logRecord _ _ _)) (of_ite (stain _) (refl _)))
    (of_ite (bump _ _ _ _ _ ?overrun) (trans (stBytes _ _ _) (bumpW _ _ _ _ _ ?head)))) (event _ _)
  all_goals decide

end State.SameRegsBelowLog

/-! ### T3 ports (R187, R188) -/

theorem t3Up_eq_true {s : State} {port : Nat} (h : s.rd Reg.T3_STATUS_LINK_UP port = 1) : s.t3Up port = true := by simp [State.t3Up, h]

theorem t3Up_eq_false {s : State} {port : Nat} (h : s.rd Reg.T3_STATUS_LINK_UP port ≠ 1) : s.t3Up port = false := by
  simp [State.t3Up, h]

theorem exec_t3LinkDown (port : Fin 8) (s : State) : exec (.t3LinkDown port) s = .next (s.doT3Down port.val) := rfl

/-- A port that goes down shows no link, speed or width; the fault record that follows leaves them. -/
theorem doT3Down_rd {s : State} {port : Nat} (small : port < 2 ^ 16) (up : s.rd Reg.T3_STATUS_LINK_UP port = 1) : let t := s.doT3Down port
    t.rd Reg.T3_STATUS_LINK_UP port = 0 ∧ t.rd Reg.T3_STATUS_SPEED port = 0 ∧ t.rd Reg.T3_STATUS_WIDTH port = 0 := by
  have kept (u : State) (r : FRec) (f : Fld) (below : fkey f port 0 < 28 * 2 ^ 42) : (u.faultRec r).rd f port = u.rd f port :=
    State.SameRegsBelowLog.faultRec u r f port 0 below
  simp only [State.doT3Down, t3Up_eq_true up, if_true]
  refine ⟨?link, ?speed, ?width⟩
  all_goals
    rw [kept _ _ _ (by simp only [fkey, Reg.T3_STATUS_LINK_UP, Reg.T3_STATUS_SPEED, Reg.T3_STATUS_WIDTH, blkNum]; omega)]
    simp (disch := decide) only [rd_wr_of_lo_ne, rd_wr_self, Nat.zero_mod]

theorem exec_t3ReadTimeout (port : Fin 8) (pid : Nat) (s : State) : exec (.t3ReadTimeout port pid) s = .next (s.doT3Timeout port.val pid) := rfl

/-- A read that stands at a down port 50 us after it was sent is answered POISON and counted. -/
theorem doT3Timeout_of_down {s : State} {port pid : Nat} {p : Pkt} (pkt : s.pkt? pid = some p) (read : s.t3Read p port = true)
    (down : s.rd Reg.T3_STATUS_LINK_UP port ≠ 1) (late : p.sentAt + us 50 ≤ s.now) :
    s.doT3Timeout port pid = (s.bump Reg.T3_STATUS_POISON_RX port).nackDrop p cPoison := by
  simp [State.doT3Timeout, pkt, read, t3Up_eq_false down, late]

/-- Selector 0x1 names T1 (Table 1.7). -/
theorem decodePa_t1 {off : Nat} (h : off < 2 ^ 52) : decodePa (2 ^ 52 + off) = some (.t1 off) := by
  have sel : bitsOf (2 ^ 52 + off) 55 52 = 1 := by simp only [bitsOf]; omega
  have lo : (2 ^ 52 + off) % 2 ^ 52 = off := by omega
  simp only [decodePa, sel, lo, OfNat.one_ne_ofNat, one_ne_zero, if_false, if_true]

theorem exec_nvmeInboundDma (port : Fin 8) (a : Word) (dir : DmaDir) (s : State) :
    exec (.nvmeInboundDma port a dir) s = .next (s.doNvmeDma port.val a.toNat dir) := rfl

/-- A DMA write inside the inbound range whose target lies in T1 writes T1. -/
theorem doNvmeDma_write_t1 {s : State} {port a off : Nat} {data : List Byte} (up : s.rd Reg.T3_STATUS_LINK_UP port = 1)
    (nvme : s.tier.t3nvme.contains port = true) (data_ne : data ≠ []) (base : s.rd Reg.T3_IN_BASE_IN_BASE port ≤ a)
    (limit : a + data.length - 1 ≤ s.rd Reg.T3_IN_LIMIT_IN_LIMIT port)
    (target : s.rd Reg.T3_IN_TARGET_IN_TARGET port + (a - s.rd Reg.T3_IN_BASE_IN_BASE port) = 2 ^ 52 + off) (inT1 : off < 2 ^ 52)
    (allowed : s.tgtOk 0 true s.ownMod (.t1 off) data.length true = true) :
    s.doNvmeDma port a (.write data) = s.writeMem (.t1 off) data := by
  have len : data.length ≠ 0 := by simpa using data_ne
  have inside : ¬ (data.length = 0 ∨ a < s.rd Reg.T3_IN_BASE_IN_BASE port ∨
      s.rd Reg.T3_IN_LIMIT_IN_LIMIT port < a + data.length - 1) := by omega
  have small : 2 ^ 52 + off < 2 ^ 56 := by omega
  simp only [State.doNvmeDma, t3Up_eq_true up, nvme, decide_eq_false inside, target, if_pos small, decodePa_t1 inT1, allowed, Bool.not_true,
    Bool.or_false, Bool.false_eq_true, if_true, if_false]

/-- Settles O26: each command carries out its row, and a fault record leaves the registers of the port. -/
theorem tierRegisters : Obligations.TierRegisters := by
  intro s
  refine ⟨?grant, ?down, ?timeout, ?dma⟩
  case grant =>
    intro vat win v notZero
    have notZero : vat.toNat ≠ 0 := fun h => notZero (BitVec.eq_of_toNat_eq h)
    exact ⟨_, exec_tierGrantWrite vat win v s, doGrantWrite_mem notZero s _ _, doGrantWrite_rd notZero s _ _⟩
  case down =>
    intro p up
    exact ⟨_, exec_t3LinkDown p s, doT3Down_rd (by omega) up⟩
  case timeout =>
    intro port pid p pkt read down late
    rw [exec_t3ReadTimeout, doT3Timeout_of_down pkt read down late]
  case dma =>
    intro port a data off up nvme data_ne base limit target fits allowed
    have inT1 : off < 2 ^ 52 := by simp only [t1Cap] at fits; omega
    rw [exec_nvmeInboundDma, doNvmeDma_write_t1 up nvme data_ne base limit target inT1 allowed]

end Sys2Proof.Machine
end

section
/-! PROOFS. Poisoned lines of T1 (R181): mark 1 of the poison map makes every read that touches the line answer POISON; a write within the
line is one piece, which clears the mark where it covers the line and is discarded and counted elsewhere. -/

namespace Sys2Proof.Machine

/-! ### Entries of a sparse map -/

/-- A value other than the default is listed. -/
theorem mem_of_mget {α : Type} {d v : α} (hv : v ≠ d) {k : Nat} : ∀ {m : FMap α}, mget d m k = v → (k, v) ∈ m
  | [], h => absurd h.symm hv
  | (k', v') :: r, h => by
    simp only [mget] at h
    split at h
    next key => subst key h; exact List.mem_cons_self
    next => exact List.mem_cons_of_mem _ (mem_of_mget hv h)

/-- In the canonical form a listed value is the one that is read. -/
theorem mget_of_mem {α : Type} [DecidableEq α] {d : α} : ∀ {m : FMap α} {a : Nat}, mwfFrom d a m = true → ∀ e ∈ m, mget d m e.1 = e.2
  | [], _, _, _, h => by cases h
  | (k, v) :: r, a, w, e, h => by
    simp only [mwfFrom, Bool.and_eq_true, decide_eq_true_eq] at w
    obtain ⟨-, rest⟩ := w
    rcases List.mem_cons.1 h with rfl | h
    · exact if_pos rfl
    · have above := (mwfFrom_mem d r _ rest e h).1
      exact (if_neg (by omega)).trans (mget_of_mem rest e h)

/-! ### Lines and their units (R179, R182) -/

theorem lineUnit_t1Key {off : Nat} (inT1 : off < 2 ^ 52) : lineUnit (t1Key off / 64) = off / 4096 % 24 := by
  have sel : t1Key off / 64 * 64 < 2 * 2 ^ 52 := by simp only [t1Key]; omega
  rw [lineUnit, if_pos sel, t1Key]
  omega

/-- A range within a line touches one stack. -/
theorem rangeUnits_of_line {off len : Nat} (inT1 : off < 2 ^ 52) (pos : 0 < len) (fits : off % 64 + len ≤ 64) :
    rangeUnits (t1Key off) len = [off / 4096 % 24] := by
  have sel : t1Key off < 2 * 2 ^ 52 := by simp only [t1Key]; omega
  have one : min 24 ((t1Key off + len - 1) / 4096 - t1Key off / 4096 + 1) = 1 := by simp only [t1Key]; omega
  have page : t1Key off / 4096 * 64 = t1Key (off / 4096 * 4096) / 64 := by simp only [t1Key]; omega
  simp only [rangeUnits, if_neg pos.ne', if_pos sel, one]
  simp [page, lineUnit_t1Key (off := off / 4096 * 4096) (by omega)]

theorem mem_badLines {s : State} {a len : Nat} (pos : 0 < len) (e : Nat × Nat) :
    e ∈ s.badLines a len ↔ e ∈ s.tier.poison ∧ a / 64 ≤ e.1 ∧ e.1 ≤ (a + len - 1) / 64 := by
  simp [State.badLines, pos.ne']

/-- The entry of a marked line is met by every range that touches the line. -/
theorem mem_badLines_of_mget {s : State} {a len lk v : Nat} (pos : 0 < len) (marked : mget 0 s.tier.poison lk = v) (hv : v ≠ 0)
    (lo : a / 64 ≤ lk) (hi : lk ≤ (a + len - 1) / 64) : (lk, v) ∈ s.badLines a len :=
  (mem_badLines pos _).2 ⟨mem_of_mget hv marked, lo, hi⟩

/-! ### Reads (R180, R181) -/

/-- One round of the loop of `State.readTier`. -/
def readMark (r : State × Bool) (e : Nat × Nat) : State × Bool := ((r.1.readLine e.1 e.2).1, r.2 || (r.1.readLine e.1 e.2).2)

theorem readTier_eq (s : State) (a len : Nat) : s.readTier a len =
    if (rangeUnits a len).any s.unitLost then (s, true) else (s.badLines a len).foldl readMark (s, false) := rfl

theorem readMem_t1 (s : State) (off len : Nat) : s.readMem (.t1 off) len =
    ((s.readTier (t1Key off) len).1, (s.readTier (t1Key off) len).1.ldBytes (t1Key off) len, (s.readTier (t1Key off) len).2) := rfl

theorem readLine_of_poisoned (s : State) (lk : Nat) : s.readLine lk 1 = (s, true) := by simp [State.readLine]

/-- Once a poisoned line is met the answer stays POISON. -/
theorem foldl_readMark_snd : ∀ (l : List (Nat × Nat)) (r : State × Bool), (r.2 = true ∨ ∃ e ∈ l, e.2 = 1) → (l.foldl readMark r).2 = true
  | [], r, h => by simpa using h
  | e :: l, r, h => by
    refine foldl_readMark_snd l _ ?_
    rcases h with met | ⟨x, hx, poisoned⟩
    · exact .inl (by simp [readMark, met])
    · rcases List.mem_cons.1 hx with rfl | hx
      · exact .inl (by simp [readMark, poisoned, readLine_of_poisoned])
      · exact .inr ⟨x, hx, poisoned⟩

/-- Poisoned lines change nothing when they are read. -/
theorem foldl_readMark_fst : ∀ (l : List (Nat × Nat)) (r : State × Bool), (∀ e ∈ l, e.2 = 1) → (l.foldl readMark r).1 = r.1
  | [], _, _ => rfl
  | e :: l, r, h => by
    have poisoned : e.2 = 1 := h e List.mem_cons_self
    refine (foldl_readMark_fst l _ fun x hx => h x (List.mem_cons_of_mem _ hx)).trans ?_
    simp [readMark, poisoned, readLine_of_poisoned]

/-- A read of a range with a poisoned line answers POISON. -/
theorem readTier_of_poisoned {s : State} {a len lk : Nat} (pos : 0 < len) (poisoned : mget 0 s.tier.poison lk = 1) (lo : a / 64 ≤ lk)
    (hi : lk ≤ (a + len - 1) / 64) : (s.readTier a len).2 = true := by
  rw [readTier_eq]
  split
  · rfl
  · exact foldl_readMark_snd _ _ (.inr ⟨_, mem_badLines_of_mget pos poisoned (by decide) lo hi, rfl⟩)

/-- A read within a poisoned line changes nothing. -/
theorem readTier_within_poisoned {s : State} {a len : Nat} (wf : mwf 0 s.tier.poison = true) (pos : 0 < len) (fits : a % 64 + len ≤ 64)
    (poisoned : mget 0 s.tier.poison (a / 64) = 1) : (s.readTier a len).1 = s := by
  rw [readTier_eq]
  split
  · rfl
  · refine foldl_readMark_fst _ _ fun e he => ?_
    obtain ⟨listed, lo, hi⟩ := (mem_badLines pos e).1 he
    have line : e.1 = a / 64 := by omega
    rw [← mget_of_mem wf e listed, line, poisoned]

/-! ### Writes (R181) -/

theorem linePieces_nil : ∀ n a : Nat, linePieces n a [] = []
  | 0, _ => rfl
  | _ + 1, _ => rfl

/-- A write within a line is one piece. -/
theorem linePieces_of_line {a : Nat} {bs : List Byte} (pos : 0 < bs.length) (fits : a % 64 + bs.length ≤ 64) :
    linePieces bs.length a bs = [(a, bs)] := by
  obtain ⟨n, hn⟩ := Nat.exists_eq_succ_of_ne_zero pos.ne'
  have nonempty : bs ≠ [] := List.ne_nil_of_length_pos pos
  rw [hn, linePieces, if_neg nonempty, List.take_of_length_le (by omega), List.drop_eq_nil_of_le (by omega), linePieces_nil]

/-- A stack's counter. -/
theorem unitBump_t1 (s : State) {u : Nat} (h : u < 100) (f g : Fld) : s.unitBump u f g = s.bump f u := by
  simp only [State.unitBump, unitFld, if_pos h]

section
variable {s : State} {off : Nat} {bs : List Byte} (inT1 : off < 2 ^ 52) (poisoned : mget 0 s.tier.poison (t1Key off / 64) = 1)
  (alive : s.unitLost (off / 4096 % 24) = false) (pos : 0 < bs.length) (fits : off % 64 + bs.length ≤ 64)
include inT1 poisoned alive pos fits

/-- A write within a poisoned line of a stack that works. -/
theorem writeTier_within_poisoned : s.writeTier (t1Key off) bs =
    if bs.length = 64 then (s.setPoison (t1Key off / 64) 0).stBytes (t1Key off) bs else s.bump Reg.TM_ERR_POISONED (off / 4096 % 24) := by
  have fits' : t1Key off % 64 + bs.length ≤ 64 := by simp only [t1Key]; omega
  have marked : s.badLines (t1Key off) bs.length ≠ [] :=
    List.ne_nil_of_mem (mem_badLines_of_mget pos poisoned (by decide) le_rfl (by omega))
  have noLost : (rangeUnits (t1Key off) bs.length).filter s.unitLost = [] := by simp [rangeUnits_of_line inT1 pos fits, alive]
  simp [State.writeTier, State.each, noLost, marked, linePieces_of_line pos fits', poisoned, lineUnit_t1Key inT1,
    unitBump_t1 s (show off / 4096 % 24 < 100 by omega)]

end

/-- Settles O57: a range that touches the line meets its mark, and a write within the line is one piece, by `writeTier_within_poisoned`. -/
theorem poisonedLines : Obligations.PoisonedLines := by
  rintro s off _ rfl cap wf poisoned
  have inT1 : off < 2 ^ 52 := by simp only [t1Cap] at cap; omega
  refine ⟨?answers, ?unchanged, fun alive bs => ⟨?whole, ?shorter⟩⟩
  case answers =>
    intro a len pos _ lo hi
    rw [readMem_t1]
    exact readTier_of_poisoned pos poisoned lo hi
  case unchanged =>
    intro len pos fits
    rw [readMem_t1]
    exact readTier_within_poisoned wf pos (by simp only [t1Key]; omega) poisoned
  case whole =>
    intro aligned len
    have write : s.writeMem (.t1 off) bs = (s.setPoison (t1Key off / 64) 0).stBytes (t1Key off) bs :=
      (writeTier_within_poisoned inT1 poisoned alive (by omega) (by omega)).trans (if_pos len)
    rw [write]
    refine ⟨mget_mset_self 0 s.tier.poison _ 0, ?_, rfl⟩
    rw [← len]
    exact ldBytes_stBytes_self _ _ bs
  case shorter =>
    intro pos short fits
    exact (writeTier_within_poisoned inT1 poisoned alive pos fits).trans (if_neg short.ne)

end Sys2Proof.Machine
end

section
/-! PROOFS. Class F of the service and the change of the tables (R221, R223, R267 to R269): an instruction of the service carries out its
action, a field written on every tile, and arming an image. -/

namespace Sys2Proof.Machine

/-! ### Loops that touch each element once -/

/-- In a loop over distinct elements, the round of `x` turns `P` into `Q`, where the other rounds keep both. -/
theorem each_once {α : Type} {P Q : State → Prop} {f : State → α → State} {x : α} (own : ∀ s, P s → Q (f s x))
    (before : ∀ s y, y ≠ x → P s → P (f s y)) (after : ∀ s y, y ≠ x → Q s → Q (f s y)) {l : List α} (distinct : l.Nodup)
    (mem : x ∈ l) {s : State} (start : P s) : Q (s.each l f) := by
  obtain ⟨a, b, rfl⟩ := List.append_of_mem mem
  have others : ∀ y ∈ a ++ b, y ≠ x := fun y hy => ne_of_mem_of_not_mem hy (List.nodup_middle.1 distinct).notMem
  simp only [State.each, List.foldl_append, List.foldl_cons]
  exact List.foldlRecOn b f (own _ (List.foldlRecOn a f start fun s hs y hy => before s y (others y (List.mem_append_left b hy)) hs))
    fun s hs y hy => after s y (others y (List.mem_append_right a hy)) hs

/-! ### A field on every tile -/

/-- A write leaves the registers of its block on every other tile, die or core. -/
theorem rd_wr_of_inst_ne (s : State) (f g : Fld) {i j : Nat} (v k m : Nat) (blk : f.blk = g.blk)
    (hf : (f.off + f.step * k) * 64 + f.lo < 2 ^ 26) (hg : (g.off + g.step * m) * 64 + g.lo < 2 ^ 26) (ne : i ≠ j) :
    (s.wr f i v k).rd g j m = s.rd g j m := by
  apply rd_wr_ne
  simp only [fkey, blk]
  generalize f.off + f.step * k = a at hf
  generalize g.off + g.step * m = b at hg
  omega

theorem wrDyn_frame (s : State) (f : Fld) (v : Nat) : ∃ r, s.wrDyn f v = { s with regs := r } := by
  refine each_keeps (fun t => ∃ r, t = { s with regs := r }) _ ?_ _ s ⟨_, rfl⟩
  rintro _ _ ⟨r, rfl⟩
  exact ⟨_, rfl⟩

/-- Every tile shows what was written on all of them. -/
theorem rd_wrDyn (s : State) {f : Fld} (place : f.off * 64 + f.lo < 2 ^ 26) (v : Nat) {i : Nat} (tile : i < 36) :
    (s.wrDyn f v).rd f i = v % 2 ^ f.w := by
  unfold State.wrDyn
  refine each_once (P := fun _ => True) (Q := fun t => t.rd f i = v % 2 ^ f.w) ?own (fun _ _ _ _ => trivial) ?after List.nodup_range
    (List.mem_range.2 tile) trivial
  case own => exact fun s _ => rd_wr_self s f i v 0
  case after => exact fun s j ne h => (rd_wr_of_inst_ne s f f v 0 0 rfl (by simpa using place) (by simpa using place) ne).trans h

/-! ### Instructions of the service -/

/-- The state in which the classes in `m` are paused too, on every tile, from now on (R267). -/
def State.pauseInj (s : State) (m : Nat) : State :=
  (State.wrDyn { s with fab := { s.fab with pauseAt := s.now } } Reg.DYN_CTL_INJ_PAUSE (s.rd Reg.DYN_CTL_INJ_PAUSE 0 ||| m)).retime

@[simp] theorem rd_retime (s : State) (g : Fld) (j m : Nat) : s.retime.rd g j m = s.rd g j m := rfl

@[simp] theorem retire_mem (s : State) (ck : Nat) (c : SCore) : (s.retire ck c).mem = s.mem := rfl

@[simp] theorem retire_fab (s : State) (ck : Nat) (c : SCore) : (s.retire ck c).fab = s.fab := rfl

@[simp] theorem rd_retire (s : State) (ck : Nat) (c : SCore) (g : Fld) (j m : Nat) : (s.retire ck c).rd g j m = s.rd g j m := rfl

theorem pauseInj_frame (s : State) (m : Nat) : (s.pauseInj m).mem = s.mem ∧ (s.pauseInj m).fab.pauseAt = s.now := by
  obtain ⟨r, frame⟩ := wrDyn_frame { s with fab := { s.fab with pauseAt := s.now } } Reg.DYN_CTL_INJ_PAUSE
    (s.rd Reg.DYN_CTL_INJ_PAUSE 0 ||| m)
  rw [State.pauseInj, frame]
  exact ⟨rfl, rfl⟩

theorem rd_pauseInj (s : State) (m : Nat) {i : Nat} (tile : i < 36) :
    (s.pauseInj m).rd Reg.DYN_CTL_INJ_PAUSE i = (s.rd Reg.DYN_CTL_INJ_PAUSE 0 ||| m) % 16 := by
  rw [State.pauseInj, rd_retime]
  exact rd_wrDyn _ (by decide) _ tile

theorem fetched_now (s : State) (ck : Nat) : (fetched s ck).now = s.now := by
  obtain ⟨r, w, u, frame⟩ := readScr_frame s (coreOf ck 4) (s.sc ck).pc.toNat 8 2
  rw [fetched, frame]

section
variable {s t : State} {c : Clu} {f : FmtF} {sc : SCore} {x : Word} (fetch : Fetches s (cluKey c))
  (priv : (s.sc (cluKey c)).priv = true) (rsv : f.rsv = 0) (route : f.route = 0) (rr : f.rr = 0) (rs3 : f.rs3 = 0)
  (ht : t = fetched s (cluKey c)) (hsc : sc = s.sc (cluKey c)) (hx : x = sc.getX f.rs1.toNat)
include fetch priv rsv route rr rs3 ht hsc hx

/-- An F instruction of the service with legal fields carries out its action (Table 5.12). -/
theorem fsvc_of_fetches {legal : Bool} (fields : legal = true) (act : Word → SCore → State → State) :
    s.fsvc c f legal act = act x sc t := by
  rw [State.fsvc, scalar_go s _ _ _ fetch (by simp [fields, rsv, route, rr, rs3]), hx, ht, hsc]
  simp [priv]

/-- F.IPAUSE (R267). -/
theorem exec_fIpause_of_fetches (rs2 : f.rs2 = 0) (ctr : f.sigCtr = 0) (en : f.sigEn = false) :
    exec (.fIpause c f) s = .next ((t.pauseInj (x.toNat % 16)).retire (cluKey c) sc) :=
  congrArg Host.Outcome.next (fsvc_of_fetches fetch priv rsv route rr rs3 ht hsc hx (by simp [rs2, ctr, en]) _)

/-- F.IRESUME (R269). -/
theorem exec_fIresume_of_fetches (rs2 : f.rs2 = 0) (ctr : f.sigCtr = 0) (en : f.sigEn = false) :
    exec (.fIresume c f) s = .next (((((t.wrDyn Reg.DYN_CTL_INJ_PAUSE (t.rd Reg.DYN_CTL_INJ_PAUSE 0 -
      (t.rd Reg.DYN_CTL_INJ_PAUSE 0 &&& x.toNat % 16))).retime).retire (cluKey c) sc).pumpAll)) :=
  congrArg Host.Outcome.next (fsvc_of_fetches fetch priv rsv route rr rs3 ht hsc hx (by simp [rs2, ctr, en]) _)

/-- F.EPOCH (R268). -/
theorem exec_fEpoch_of_fetches (rs1 : f.rs1 = 0) (rs2 : f.rs2 = 0) (ctr : f.sigCtr = 0) (en : f.sigEn = false) :
    exec (.fEpoch c f) s = .next ((if t.fab.epochBusy
      then { t with fab := { t.fab with epochQueue := t.fab.epochQueue ++ [cluKey c] } }
      else ({ t with fab := { t.fab with epochBusy := true } }).wrDyn Reg.DYN_CTL_COMMIT_BUSY 1).retire (cluKey c) sc) :=
  congrArg Host.Outcome.next (fsvc_of_fetches fetch priv rsv route rr rs3 ht hsc hx (by simp [rs1, rs2, ctr, en]) _)

/-- F.SLOAD of a schedule that passes the checks (R222). -/
theorem exec_fSload_of_loads (rs2 : f.rs2 = 0) (loads : (t.sload (cluKey c) x.toNat).2 = 0) {u : State}
    (hu : u = (t.sload (cluKey c) x.toNat).1.retire (cluKey c) sc) :
    exec (.fSload c f) s = .next (if f.sigEn then u.signal (cluKey c) f.sigCtr.toNat else u) :=
  congrArg Host.Outcome.next ((fsvc_of_fetches fetch priv rsv route rr rs3 ht hsc hx (by simp [rs2]) _).trans
    (hu ▸ if_neg (by simpa using loads)))

/-- F.SARM (R223). -/
theorem exec_fSarm_of_fetches (ctr : f.sigCtr = 0) (en : f.sigEn = false) :
    exec (.fSarm c f) s = .next ((t.setImages (t.sch.images.map fun i =>
      if i.vat = (sc.getX f.rs2.toNat).toNat % 256 ∧ i.st = .staged then { i with armAt := some (max x.toNat (t.frameNo + 2)) }
      else i)).retire (cluKey c) sc) :=
  congrArg Host.Outcome.next (fsvc_of_fetches fetch priv rsv route rr rs3 ht hsc hx (by simp [ctr, en]) _)

end

/-! ### Arming (R223) -/

theorem setBank_sch (s : State) (vat b : Nat) : (s.setBank vat b).sch = s.sch := by
  unfold State.setBank
  exact each_keeps (fun t => t.sch = s.sch) _ (fun _ _ h => (wr_sch ..).trans h) _ s rfl

/-- No image drops where none satisfies the predicate. -/
theorem dropImages_of_none (s : State) {p : Image → Bool} (none : ∀ i ∈ s.sch.images, p i = false) : s.dropImages p = s := by
  have kept : (s.sch.images.filter fun i => !p i) = s.sch.images := List.filter_eq_self.2 fun i hi => by simp [none i hi]
  have dropped : s.sch.images.filter p = [] := List.filter_eq_nil_iff.2 fun i hi => by simp [none i hi]
  rw [State.dropImages, kept, dropped]
  rfl

/-- At the start of its frame the only image, staged, becomes active. -/
theorem doScheduleArm_of_due {s : State} {i : Image} (started : s.clk.started = true) (boundary : s.slotIx = 0)
    (images : s.sch.images = [i]) (staged : i.st = .staged) (due : i.armAt = some s.frameNo) :
    s.doScheduleArm.sch.images = [{ i with st := .armed, armAt := none }] := by
  have keeps : s.dropImages (fun j => j.vat == i.vat && j.st != .staged) = s :=
    dropImages_of_none s fun j hj => by
      obtain rfl : j = i := by simpa [images] using hj
      simp [staged]
  have banks : (s.each (s.subtree i.vat) fun s v => s.setBank v i.bank).sch = s.sch :=
    each_keeps (fun t => t.sch = s.sch) _ (fun t v h => (setBank_sch t v _).trans h) _ s rfl
  simp only [State.doScheduleArm, images, staged, due, started, boundary, List.filter_cons, List.filter_nil, beq_self_eq_true, le_refl,
    decide_true, Bool.and_self, if_true, Bool.not_true, bne_self_eq_false, Bool.or_self, Bool.false_eq_true, if_false, State.each,
    List.foldl_cons, List.foldl_nil]
  rw [keeps]
  change List.map _ (State.sch (s.each (s.subtree i.vat) fun s v => s.setBank v i.bank)).images = _
  rw [banks, images]
  simp [staged]

/-! ### The statement -/

/-- Settles O16: each instruction carries out its action, the two ends of a change have their conditions, and arming is
`doScheduleArm_of_due`. -/
theorem serviceFabric : Obligations.ServiceFabric := by
  refine ⟨fun c f s fetch priv rsv route rr rs3 => ?instructions, fun s busy => ⟨fun drained => ?commit, fun held late => ?timeout⟩,
    fun s started boundary i images staged due => ⟨_, rfl, doScheduleArm_of_due started boundary images staged due⟩⟩
  case instructions =>
    intro k sc t x
    refine ⟨fun rs2 ctr en => ⟨?pause, ?resume, fun rs1 => ?epoch⟩, fun rs2 loads => ?load, fun ctr en => ?arm⟩
    case pause =>
      obtain ⟨mem, since⟩ := pauseInj_frame t (x.toNat % 16)
      exact ⟨_, exec_fIpause_of_fetches fetch priv rsv route rr rs3 rfl rfl rfl rs2 ctr en,
        (retire_mem ..).trans (mem.trans (fetched_mem s k)),
        (congrArg Fabric.pauseAt (retire_fab ..)).trans (since.trans (fetched_now s k)),
        fun i tile => (rd_retire ..).trans (rd_pauseInj t _ tile)⟩
    case resume => exact exec_fIresume_of_fetches fetch priv rsv route rr rs3 rfl rfl rfl rs2 ctr en
    case epoch => exact exec_fEpoch_of_fetches fetch priv rsv route rr rs3 rfl rfl rfl rs1 rs2 ctr en
    case load => exact exec_fSload_of_loads fetch priv rsv route rr rs3 rfl rfl rfl rs2 loads rfl
    case arm => exact exec_fSarm_of_fetches fetch priv rsv route rr rs3 rfl rfl rfl ctr en
  case commit => exact congrArg Host.Outcome.next (if_pos ⟨busy, drained⟩)
  case timeout => exact congrArg Host.Outcome.next (if_pos ⟨busy, held, late⟩)

end Sys2Proof.Machine
end

section
/-! PROOFS. Slots (8.8, R208, R218, R233 to R237): what the end of a slot leaves on each tile, the slot that begins, and a boundary for
which nothing waits. -/

namespace Sys2Proof.Machine

/-! ### The end of a slot on the tiles (R233, R235) -/

/-- The two fields of a tile that count its stretch periods. -/
def stretchFlds : List Fld := [Reg.SCH_STRETCH_DEFICIT, Reg.SCH_STRETCH_S_SLOT]

theorem stretchFlds_place : ∀ g ∈ stretchFlds, g.blk = .sched ∧ g.off = 8 ∧ g.lo < 26 := by decide

/-- The end of a slot on a tile writes the deficit it carries, no stretch in the new slot, and what the congestion record and MAX_DEFICIT
keep of it (R235). -/
theorem endSlotOn_cases (s : State) (t : Nat) : ∃ c : Cong,
    let n := s.rd Reg.SCH_STRETCH_DEFICIT t + s.rd Reg.SCH_STRETCH_S_SLOT t
    let d := n - 4 * min 2 (n / 4)
    let u : State := { (s.wr Reg.SCH_STRETCH_DEFICIT t d).wr Reg.SCH_STRETCH_S_SLOT t 0 with cong := c }
    s.endSlotOn t = u.wr Reg.SCH_STRETCH_MAX_DEFICIT t d ∨ s.endSlotOn t = u :=
  ⟨_, ite_eq_or_eq _ _ _⟩

theorem endSlotOn_frame (s : State) (t : Nat) : ∃ r c, s.endSlotOn t = { s with regs := r, cong := c } := by
  obtain ⟨c, h⟩ := endSlotOn_cases s t
  dsimp only [State.wr] at h
  rcases h with h | h
  · exact ⟨_, c, h⟩
  · exact ⟨_, c, h⟩

theorem rd_endSlotOn (s : State) (t : Nat) {g : Fld} (hg : g ∈ stretchFlds) (j : Nat) :
    let n := s.rd Reg.SCH_STRETCH_DEFICIT t + s.rd Reg.SCH_STRETCH_S_SLOT t
    (s.endSlotOn t).rd g j = ((s.wr Reg.SCH_STRETCH_DEFICIT t (n - 4 * min 2 (n / 4))).wr Reg.SCH_STRETCH_S_SLOT t 0).rd g j := by
  obtain ⟨blk, off, lo⟩ := stretchFlds_place g hg
  have max_ne : fkey Reg.SCH_STRETCH_MAX_DEFICIT t 0 ≠ fkey g j 0 := by
    simp only [fkey, blk, off, Reg.SCH_STRETCH_MAX_DEFICIT]
    omega
  obtain ⟨c, h | h⟩ := endSlotOn_cases s t
  · rw [h]
    exact rd_wr_ne _ _ _ _ _ _ _ _ max_ne
  · rw [h]
    rfl

theorem rd_endSlotOn_self (s : State) (t : Nat) : let n := s.rd Reg.SCH_STRETCH_DEFICIT t + s.rd Reg.SCH_STRETCH_S_SLOT t
    (s.endSlotOn t).rd Reg.SCH_STRETCH_DEFICIT t = (n - 4 * min 2 (n / 4)) % 64 ∧ (s.endSlotOn t).rd Reg.SCH_STRETCH_S_SLOT t = 0 := by
  intro n
  simp (disch := decide) only [rd_endSlotOn, rd_wr_of_lo_ne, rd_wr_self]
  exact ⟨rfl, rfl⟩

/-- The end of a slot on one tile leaves the stretch fields of the others. -/
theorem rd_endSlotOn_ne (s : State) {t u : Nat} (ne : t ≠ u) {g : Fld} (hg : g ∈ stretchFlds) : (s.endSlotOn t).rd g u = s.rd g u := by
  obtain ⟨blk, off, lo⟩ := stretchFlds_place g hg
  have place : (g.off + g.step * 0) * 64 + g.lo < 2 ^ 26 := by omega
  rw [rd_endSlotOn s t hg u, rd_wr_of_inst_ne _ _ _ _ _ _ blk.symm (by decide) place ne,
    rd_wr_of_inst_ne _ _ _ _ _ _ blk.symm (by decide) place ne]

/-- A slot has ended on every tile, and the stage buffers have shifted (R209, R235). -/
def State.slotEnded (s : State) : State := (s.each (List.range 36) State.endSlotOn).shiftStage

theorem slotEnded_frame (s : State) : ∃ r c a b,
    s.slotEnded = { s with regs := r, cong := c, sch := { s.sch with stage := a, stageIn := b } } ∧
      (isWhey s.slotIx = false → a = s.sch.stageIn ∧ b = []) := by
  obtain ⟨r, c, h⟩ : ∃ r c, s.each (List.range 36) State.endSlotOn = { s with regs := r, cong := c } := by
    refine each_keeps (fun t => ∃ r c, t = { s with regs := r, cong := c }) _ ?_ _ s ⟨_, _, rfl⟩
    rintro _ t ⟨r, c, rfl⟩
    obtain ⟨r', c', h⟩ := endSlotOn_frame { s with regs := r, cong := c } t
    exact ⟨r', c', h⟩
  rw [State.slotEnded, h]
  cases whey : isWhey s.slotIx with
  | true => exact ⟨r, c, _, _, if_pos whey, nofun⟩
  | false => exact ⟨r, c, _, _, if_neg (ne_true_of_eq_false whey), fun _ => ⟨rfl, rfl⟩⟩

theorem rd_shiftStage (s : State) (g : Fld) (j : Nat) : s.shiftStage.rd g j = s.rd g j := by
  unfold State.shiftStage
  split <;> rfl

/-- Each tile carries on its deficit less 4 for each of at most two whole periods (R235). -/
theorem rd_slotEnded (s : State) (t : Tile) : let n := s.rd Reg.SCH_STRETCH_DEFICIT t.val + s.rd Reg.SCH_STRETCH_S_SLOT t.val
    s.slotEnded.rd Reg.SCH_STRETCH_DEFICIT t.val = (n - 4 * min 2 (n / 4)) % 64 ∧ s.slotEnded.rd Reg.SCH_STRETCH_S_SLOT t.val = 0 := by
  intro n
  rw [State.slotEnded, rd_shiftStage, rd_shiftStage]
  refine each_once (P := fun u => u.rd Reg.SCH_STRETCH_DEFICIT t.val = s.rd Reg.SCH_STRETCH_DEFICIT t.val ∧
      u.rd Reg.SCH_STRETCH_S_SLOT t.val = s.rd Reg.SCH_STRETCH_S_SLOT t.val)
    (Q := fun u => u.rd Reg.SCH_STRETCH_DEFICIT t.val = (n - 4 * min 2 (n / 4)) % 64 ∧ u.rd Reg.SCH_STRETCH_S_SLOT t.val = 0)
    ?own ?before ?after List.nodup_range (List.mem_range.2 t.isLt) ⟨rfl, rfl⟩
  case own =>
    rintro u ⟨deficit, slot⟩
    have carried := rd_endSlotOn_self u t.val
    rw [deficit, slot] at carried
    exact carried
  all_goals
    intro u j ne
    rw [rd_endSlotOn_ne u ne (by decide), rd_endSlotOn_ne u ne (by decide)]
    exact id

/-! ### The reads of the injectors (R218) -/

/-- `t` differs from `s` at most in the reads that the injectors have started and in what those reads left: the SCR_ECC registers, which lie
at offset 0x400, and the words to write back. -/
structure State.ReadsStart (s t : State) : Prop where
  frame : ∃ r w u l, t = { s with regs := r, cmp := { s.cmp with wback := w, ueNew := u }, sch := { s.sch with reads := l } }
  stretch : ∀ g ∈ stretchFlds, ∀ j, t.rd g j = s.rd g j

theorem eccFlds_place : ∀ e ∈ [Reg.SCR_ECC_CORRECTED, Reg.SCR_ECC_UNCORRECTED, Reg.SCR_ECC_LAST_UE, Reg.SCR_ECC_LAST_SRC,
    Reg.SCR_ECC_UE_NEW], e.off = 0x400 ∧ e.lo < 64 := by decide

theorem readScr_readsStart (s : State) (core off len src : Nat) : s.ReadsStart (s.readScr core off len src).1 where
  frame := by
    obtain ⟨r, w, u, h⟩ := readScr_frame s core off len src
    exact ⟨r, w, u, _, h⟩
  stretch g hg j := by
    apply readScr_rd
    obtain ⟨blk, off, lo⟩ := stretchFlds_place g hg
    intro e ecc
    have place : e.off = 0x400 ∧ e.lo < 64 := eccFlds_place e ecc
    simp only [fkey, off, place.1]
    omega

theorem State.ReadsStart.refl (s : State) : s.ReadsStart s := ⟨⟨_, _, _, _, rfl⟩, fun _ _ _ => rfl⟩

theorem State.ReadsStart.trans {s t u : State} (h : s.ReadsStart t) (g : t.ReadsStart u) : s.ReadsStart u := by
  obtain ⟨⟨r, w, n, l, rfl⟩, hs⟩ := h
  obtain ⟨⟨r', w', n', l', rfl⟩, gs⟩ := g
  exact ⟨⟨r', w', n', l', rfl⟩, fun f hf j => (gs f hf j).trans (hs f hf j)⟩

theorem readsStart_reads (s : State) (l : List SRead) : s.ReadsStart { s with sch := { s.sch with reads := l } } :=
  ⟨⟨_, _, _, _, rfl⟩, fun _ _ _ => rfl⟩

theorem readFor_readsStart (s : State) (core at_ : Nat) (e : Nat × Nat) : s.ReadsStart (s.readFor core at_ e).1 := by
  unfold State.readFor
  dsimp only
  split
  · exact .refl s
  · exact readScr_readsStart _ _ _ _ _

theorem startReads_readsStart (s : State) : s.ReadsStart s.startReads := by
  unfold State.startReads
  split
  · exact .refl s
  · refine each_keeps s.ReadsStart _ ?_ _ _ (readsStart_reads s _)
    intro t e h
    split
    · exact h
    · split
      · exact h
      · exact (h.trans (readFor_readsStart _ _ _ _)).trans (readsStart_reads _ _)

/-! ### The slot that begins -/

/-- Nothing waits for a slot boundary: no stretch event, divider, migration, reset or disable, no channel that is to retire and no injector
that is to stop or start. -/
structure State.NothingDue (s : State) : Prop where
  stretches : s.sch.evWait = []
  dividers : s.clk.divWait = []
  migrations : s.flt.migrs = []
  reset : s.boot.rstWait = none
  disables : s.host.disables = []
  channels : s.lnk.chanDue = []
  injectors : s.sch.injDue = []

theorem with_injDue_self {s : State} {l : List InjDue} (h : s.sch.injDue = l) : { s with sch := { s.sch with injDue := l } } = s := by
  subst h
  rfl

theorem with_evWait_self {s : State} {l : FMap (List Nat)} (h : s.sch.evWait = l) : { s with sch := { s.sch with evWait := l } } = s := by
  subst h
  rfl

theorem with_chanDue_self {s : State} {l : List Nat} (h : s.lnk.chanDue = l) : { s with lnk := { s.lnk with chanDue := l } } = s := by
  subst h
  rfl

/-- Where no stretch event has waited, the new slot starts without events (R234). -/
theorem startSlot_of_none {s : State} (none : s.sch.evWait = []) : s.startSlot = { s with sch := { s.sch with events := [] } } := by
  rw [State.startSlot, none]
  exact with_evWait_self (s := { s with sch := { s.sch with events := [] } }) none

theorem dueInjectors_of_none {s : State} (none : s.sch.injDue = []) (frame : Bool) : s.dueInjectors frame = s := by
  unfold State.dueInjectors
  rw [none]
  exact with_injDue_self none

/-- A counted slot for which nothing waits begins: the count rises, and reads start. -/
theorem beginSlot_readsStart {s : State} (stretches : s.sch.evWait = []) (injectors : s.sch.injDue = []) :
    State.ReadsStart { s with sch := { s.sch with slots := s.sch.slots + 1, events := [] } } s.beginSlot := by
  have starts := startSlot_of_none (s := { s with sch := { s.sch with slots := s.sch.slots + 1 } }) stretches
  rw [State.beginSlot, starts, dueInjectors_of_none (by exact injectors)]
  exact startReads_readsStart _

/-! ### SLOT_BOUNDARY (R208, R233, R235, R236) -/

/-- At a boundary for which nothing waits, only the slot itself ends. -/
theorem doSlot_of_nothingDue {s : State} (started : s.clk.started = true) (migrations : s.flt.migrs = [])
    (due : s.doSlotBoundary.NothingDue) : s.doSlot = s.doSlotBoundary := by
  have channels : s.doSlotBoundary.retireChans = s.doSlotBoundary := by
    rw [State.retireChans, due.channels]
    exact with_chanDue_self due.channels
  have dividers : s.doSlotBoundary.runDivs = s.doSlotBoundary := by
    rw [State.runDivs, due.dividers]
    rfl
  have reset : s.doSlotBoundary.retryReset = s.doSlotBoundary := by
    rw [State.retryReset, due.reset]
  have disables : s.doSlotBoundary.runDisables = s.doSlotBoundary := by
    rw [State.runDisables, due.disables]
    exact ite_self _
  rw [State.doSlot, if_pos started, channels, dividers, migrations]
  exact (congrArg State.runDisables reset).trans disables

/-- `t` is `s` in the slot that follows: what a boundary has done where nothing waited, but for the count of slots. -/
structure State.NextSlot (s t : State) : Prop where
  mem : t.mem = s.mem
  due : t.NothingDue
  stage : isWhey s.slotIx = false → t.sch.stage = s.sch.stageIn ∧ t.sch.stageIn = []
  stretch : ∀ g ∈ stretchFlds, ∀ j, t.rd g j = s.slotEnded.rd g j

section
variable {s : State} (started : s.clk.started = true) (counted : s.sch.inHeld = false) (due : s.NothingDue)
include started counted

theorem doSlotBoundary_eq : s.doSlotBoundary = if s.slotEnded.sch.holdAt = some (s.slotEnded.sch.slots + 1)
    then State.startSlot { s.slotEnded with sch := { s.slotEnded.sch with inHeld := true, holdAt := none } }
    else s.slotEnded.beginSlot :=
  if_neg (by simp [started, counted])

include due

/-- Where no hold is pending for the next slot, it is counted. -/
theorem doSlotBoundary_of_counted (free : s.sch.holdAt ≠ some (s.sch.slots + 1)) :
    s.NextSlot s.doSlotBoundary ∧ s.doSlotBoundary.sch.slots = s.sch.slots + 1 ∧ s.doSlotBoundary.sch.inHeld = false := by
  obtain ⟨r, c, a, b, ended, stage⟩ := slotEnded_frame s
  have begins : s.doSlotBoundary = s.slotEnded.beginSlot := by
    rw [doSlotBoundary_eq started counted, if_neg (by rw [ended]; exact free)]
  obtain ⟨⟨r', w, u, l, frame⟩, stretch⟩ := beginSlot_readsStart (s := s.slotEnded) (by rw [ended]; exact due.stretches)
    (by rw [ended]; exact due.injectors)
  refine ⟨⟨?mem, ?due, ?stage, ?stretch⟩, ?count⟩
  case stretch => exact fun g hg j => begins ▸ stretch g hg j
  all_goals rw [begins, frame, ended]
  case due => exact ⟨due.stretches, due.dividers, due.migrations, due.reset, due.disables, due.channels, due.injectors⟩
  case stage => exact stage
  case count => exact ⟨rfl, counted⟩

/-- Where a hold is pending for the next slot, a held slot begins and the count stands. -/
theorem doSlotBoundary_of_hold (hold : s.sch.holdAt = some (s.sch.slots + 1)) :
    s.NextSlot s.doSlotBoundary ∧ s.doSlotBoundary.sch.slots = s.sch.slots ∧ s.doSlotBoundary.sch.inHeld = true ∧
      s.doSlotBoundary.sch.holdAt = none := by
  obtain ⟨r, c, a, b, ended, stage⟩ := slotEnded_frame s
  have holds : s.doSlotBoundary = { s.slotEnded with sch := { s.slotEnded.sch with inHeld := true, holdAt := none, events := [] } } := by
    rw [doSlotBoundary_eq started counted, if_pos (by rw [ended]; exact hold), startSlot_of_none (by rw [ended]; exact due.stretches)]
  refine ⟨⟨?mem, ?due, ?stage, ?stretch⟩, ?count⟩
  case stretch => exact fun g hg j => by rw [holds]; rfl
  all_goals rw [holds, ended]
  case due => exact ⟨due.stretches, due.dividers, due.migrations, due.reset, due.disables, due.channels, due.injectors⟩
  case stage => exact stage
  case count => exact ⟨rfl, rfl, rfl⟩

/-- A boundary for which nothing waits, as R208 and R233 to R236 say. -/
theorem exec_slotBoundary_of_nothingDue : ∃ u, exec .slotBoundary s = .next u ∧ s.NextSlot u ∧
    (s.sch.holdAt ≠ some (s.sch.slots + 1) → u.sch.slots = s.sch.slots + 1 ∧ u.sch.inHeld = false) ∧
    (s.sch.holdAt = some (s.sch.slots + 1) → u.sch.slots = s.sch.slots ∧ u.sch.inHeld = true ∧ u.sch.holdAt = none) := by
  refine ⟨s.doSlotBoundary, ?_⟩
  have ends (next : s.NextSlot s.doSlotBoundary) : exec .slotBoundary s = .next s.doSlotBoundary :=
    congrArg Host.Outcome.next (doSlot_of_nothingDue started due.migrations next.due)
  by_cases hold : s.sch.holdAt = some (s.sch.slots + 1)
  · obtain ⟨next, slots, held, none⟩ := doSlotBoundary_of_hold started counted due hold
    exact ⟨ends next, next, fun free => absurd hold free, fun _ => ⟨slots, held, none⟩⟩
  · obtain ⟨next, slots, held⟩ := doSlotBoundary_of_counted started counted due hold
    exact ⟨ends next, next, fun _ => ⟨slots, held⟩, fun h => absurd h hold⟩

end

/-! ### HELD_SLOT (R236, R237) -/

/-- A held slot has passed on a tile: no deficit and no stretch, and TAKEN has risen (R237). -/
def State.heldOn (s : State) (t : Nat) : State :=
  ((s.wr Reg.SCH_STRETCH_DEFICIT t 0).wr Reg.SCH_STRETCH_S_SLOT t 0).bumpW Reg.SCH_HOLDS_TAKEN t

theorem rd_each_heldOn (s : State) (t : Tile) : (s.each (List.range 36) State.heldOn).rd Reg.SCH_STRETCH_DEFICIT t.val = 0 := by
  refine each_once (P := fun _ => True) (Q := fun u => u.rd Reg.SCH_STRETCH_DEFICIT t.val = 0) ?own (fun _ _ _ _ => trivial) ?after
    List.nodup_range (List.mem_range.2 t.isLt) trivial
  case own =>
    intro u _
    simp (disch := decide) only [State.heldOn, State.bumpW, rd_wr_of_place_ne, rd_wr_self]
    rfl
  case after =>
    intro u j ne h
    have other (f : Fld) (v : Nat) (u : State) (hb : f.blk = .sched) (hf : (f.off + f.step * 0) * 64 + f.lo < 2 ^ 26) :
        (u.wr f j v).rd Reg.SCH_STRETCH_DEFICIT t.val = u.rd Reg.SCH_STRETCH_DEFICIT t.val :=
      rd_wr_of_inst_ne _ _ _ _ _ _ hb hf (by decide) ne
    rw [State.heldOn, State.bumpW, other _ _ _ rfl (by decide), other _ _ _ rfl (by decide), other _ _ _ rfl (by decide), h]

theorem each_heldOn_frame (s : State) (l : List Nat) : ∃ r, s.each l State.heldOn = { s with regs := r } := by
  refine each_keeps (fun t => ∃ r, t = { s with regs := r }) _ ?_ _ s ⟨_, rfl⟩
  rintro _ t ⟨r, rfl⟩
  exact ⟨_, rfl⟩

theorem endHeld_eq (s : State) : s.endHeld = State.beginSlot { s.each (List.range 36) State.heldOn with
    sch := { (s.each (List.range 36) State.heldOn).sch with inHeld := false } } := rfl

theorem exec_heldSlot (s : State) : exec .heldSlot s = .next s.doHeldSlot := rfl

/-- A held slot ends with no deficit on any tile, and a counted slot begins. -/
theorem exec_heldSlot_of_nothingDue {s : State} (started : s.clk.started = true) (held : s.sch.inHeld = true) (due : s.NothingDue)
    (out : s.clk.pllOut = []) (back : s.clk.pllBack = []) : ∃ u, exec .heldSlot s = .next u ∧ u.mem = s.mem ∧
      u.sch.slots = s.sch.slots + 1 ∧ u.sch.inHeld = false ∧ ∀ t : Tile, u.rd Reg.SCH_STRETCH_DEFICIT t.val = 0 := by
  obtain ⟨r, passed⟩ := each_heldOn_frame s (List.range 36)
  have zero (t : Tile) : State.rd { s with regs := r } Reg.SCH_STRETCH_DEFICIT t.val = 0 := passed ▸ rd_each_heldOn s t
  let v : State := { s with regs := r, sch := { s.sch with inHeld := false } }
  obtain ⟨⟨r', w, u, l, frame⟩, stretch⟩ := beginSlot_readsStart (s := v) due.stretches due.injectors
  have begins : s.endHeld = v.beginSlot := by
    rw [endHeld_eq, passed]
  have dividers : v.beginSlot.runDivs = v.beginSlot := by
    rw [State.runDivs, frame]
    exact congrArg (State.each _ · _) due.dividers
  have ends : s.doHeldSlot = v.beginSlot := by
    rw [State.doHeldSlot, if_neg (by simp [started, held])]
    simp only [out, back, and_self, if_true, begins, dividers]
  refine ⟨v.beginSlot, (exec_heldSlot s).trans (congrArg Host.Outcome.next ends), ?mem, ?slots, ?inHeld, ?deficit⟩
  case deficit => exact fun t => (stretch _ (by decide) t.val).trans (zero t)
  all_goals rw [frame]

end Sys2Proof.Machine
end

section
/-! PROOFS. Skew between tiles (13.3, R381, R382) and time (13.6, R392, R393): signed register fields, a measurement and its alarm, an
exchange with the parent and the choice of the master. -/

namespace Sys2Proof.Machine

/-! ### Signed fields -/

/-- A number of w bits is read as it was written. -/
theorem toSigned_ofSigned (w : Nat) {i : Int} (low : -2 ^ w ≤ i) (high : i < 2 ^ w) : toSigned (w + 1) (ofSigned (w + 1) i) = i := by
  have double : 2 ^ (w + 1) = 2 * 2 ^ w := by rw [pow_succ, mul_comm]
  have cast : (2 : Int) ^ w = (2 ^ w : Nat) := by norm_cast
  rw [cast] at low high
  simp only [toSigned, ofSigned, double, Nat.add_sub_cancel]
  generalize 2 ^ w = p at low high
  rcases lt_or_ge i 0 with neg | pos
  · have wraps : i % (2 * p : Nat) = i + (2 * p : Nat) := by
      rw [← Int.add_emod_right, Int.emod_eq_of_lt (by omega) (by omega)]
    rw [wraps, Nat.mod_eq_of_lt (by omega), if_neg (by omega)]
    omega
  · rw [Int.emod_eq_of_lt pos (by omega), Nat.mod_eq_of_lt (by omega), if_pos (by omega)]
    omega

theorem ofSigned_lt (w : Nat) (i : Int) : ofSigned w i < 2 ^ w := by
  have := Int.emod_nonneg i (b := (2 ^ w : Nat)) (by positivity)
  have := Int.emod_lt_of_pos i (b := (2 ^ w : Nat)) (by positivity)
  rw [ofSigned]
  omega

/-- A signed field reads the number that was written to it. -/
theorem toSigned_rd_wr (s : State) {f : Fld} {w : Nat} (width : f.w = w + 1) (i k : Nat) {x : Int} (low : -2 ^ w ≤ x) (high : x < 2 ^ w) :
    toSigned (w + 1) ((s.wr f i (ofSigned (w + 1) x) k).rd f i k) = x := by
  rw [rd_wr_self, width, Nat.mod_eq_of_lt (ofSigned_lt _ _), toSigned_ofSigned w low high]

theorem clampInt_of_within {b i : Int} (low : -b ≤ i) (high : i ≤ b) : clampInt b i = i := by
  simp only [clampInt]
  omega

theorem clampInt_within {b : Int} (i : Int) (h : 0 ≤ b) : -b ≤ clampInt b i ∧ clampInt b i ≤ b := by
  simp only [clampInt]
  omega

theorem rd_with_clk (s : State) (c : Clocks) (f : Fld) (i k : Nat) : State.rd { s with clk := c } f i k = s.rd f i k := rfl

/-- A saturating counter reads one more, or its largest value. -/
theorem rd_bump_self (s : State) (f : Fld) (i n k : Nat) : (s.bump f i n k).rd f i k = min (s.rd f i k + n) (2 ^ f.w - 1) := by
  have := Nat.two_pow_pos f.w
  rw [State.bump, rd_wr_self, Nat.mod_eq_of_lt (by omega)]

/-! ### Skew (R381, R382) -/

section
variable {s : State} {t e : Nat} (live : s.edgeLive t e = true)
include live

section
variable {m : Int} (low : -127 ≤ m) (high : m ≤ 127)
include low high

/-- Outside a whey slot a measurement is only stored. -/
theorem doSkewTrim_of_not_whey (whey : isWhey s.slotIx = false) : s.doSkewTrim t e m = s.wr Reg.CK_SKEW_SKEW t (ofSigned 8 m) e := by
  simp only [State.doSkewTrim, clampInt_of_within low high, live, whey, Bool.not_true, Bool.not_false, Bool.false_eq_true, if_true,
    if_false]

/-- In a whey slot the delay line moves too, and a skew within 35 ps ends the alarm. -/
theorem doSkewTrim_of_whey (whey : isWhey s.slotIx = true) : ∃ c : Clocks,
    let l := clampInt 120 (toSigned 8 (s.rd Reg.CK_SKEW_TRIM t e) - clampInt 4 m)
    let u := (s.wr Reg.CK_SKEW_SKEW t (ofSigned 8 m) e).wr Reg.CK_SKEW_TRIM t (ofSigned 8 l) e
    s.doSkewTrim t e m = if -35 ≤ m ∧ m ≤ 35 then State.wr { u with clk := c } Reg.CK_SKEW_SKEW_ALARM t 0 e else u := by
  refine ⟨{ s.clk with skewSince := mset 0 s.clk.skewSince (t * 4 + e) 0 }, ?_⟩
  simp only [State.doSkewTrim, clampInt_of_within low high, live, whey, Bool.not_true, Bool.false_eq_true, if_false]
  rfl

theorem rd_doSkewTrim_of_whey (whey : isWhey s.slotIx = true) : let u := s.doSkewTrim t e m
    toSigned 8 (u.rd Reg.CK_SKEW_SKEW t e) = m ∧
      toSigned 8 (u.rd Reg.CK_SKEW_TRIM t e) = clampInt 120 (toSigned 8 (s.rd Reg.CK_SKEW_TRIM t e) - clampInt 4 m) ∧
      (-35 ≤ m → m ≤ 35 → u.rd Reg.CK_SKEW_SKEW_ALARM t e = 0) := by
  obtain ⟨c, h⟩ := doSkewTrim_of_whey live low high whey
  obtain ⟨lowest, highest⟩ := clampInt_within (b := 120) (toSigned 8 (s.rd Reg.CK_SKEW_TRIM t e) - clampInt 4 m) (by decide)
  intro u
  simp only [u, h]
  split
  · simp (disch := decide) only [rd_with_clk, rd_wr_of_lo_ne]
    exact ⟨toSigned_rd_wr _ rfl _ _ (by omega) (by omega), toSigned_rd_wr _ rfl _ _ (by omega) (by omega), fun _ _ => rd_wr_self ..⟩
  · rename_i outside
    simp (disch := decide) only [rd_wr_of_lo_ne]
    exact ⟨toSigned_rd_wr _ rfl _ _ (by omega) (by omega), toSigned_rd_wr _ rfl _ _ (by omega) (by omega),
      fun a b => absurd ⟨a, b⟩ outside⟩

end

/-- A skew beyond 35 ps that the line at its end cannot correct raises the alarm. -/
theorem doSkewAlarm_of_beyond (beyond : 35 < toSigned 8 (s.rd Reg.CK_SKEW_SKEW t e))
    (atEnd : toSigned 8 (s.rd Reg.CK_SKEW_TRIM t e) = -120) (first : mget 0 s.clk.skewSince (t * 4 + e) = 0) : ∃ l : Links,
    s.doSkewAlarm t e false = (State.wr
      { s with clk := { s.clk with skewSince := mset 0 s.clk.skewSince (t * 4 + e) (s.now + 1) }, lnk := l }
      Reg.CK_SKEW_SKEW_ALARM t 1 e).bump Reg.CK_SKEW_ALARMS t 1 e := by
  have outside : ¬(-35 ≤ toSigned 8 (s.rd Reg.CK_SKEW_SKEW t e) ∧ toSigned 8 (s.rd Reg.CK_SKEW_SKEW t e) ≤ 35) := by omega
  refine ⟨{ s.lnk with skewHist := (s.lnk.skewHist ++ [t * 4 + e]).dedup }, ?_⟩
  simp only [State.doSkewAlarm, live, outside, atEnd, first, Bool.not_true, Bool.or_false, Bool.false_or, or_true, decide_true,
    decide_false, Bool.false_eq_true, if_true, if_false]

theorem rd_doSkewAlarm_of_beyond (beyond : 35 < toSigned 8 (s.rd Reg.CK_SKEW_SKEW t e))
    (atEnd : toSigned 8 (s.rd Reg.CK_SKEW_TRIM t e) = -120) (first : mget 0 s.clk.skewSince (t * 4 + e) = 0) :
    let u := s.doSkewAlarm t e false
    u.rd Reg.CK_SKEW_SKEW_ALARM t e = 1 ∧ u.rd Reg.CK_SKEW_ALARMS t e = min (s.rd Reg.CK_SKEW_ALARMS t e + 1) 65535 ∧
      mget 0 u.clk.skewSince (t * 4 + e) = s.now + 1 := by
  obtain ⟨l, h⟩ := doSkewAlarm_of_beyond live beyond atEnd first
  intro u
  simp only [u, h]
  refine ⟨?alarm, ?count, ?since⟩
  case alarm =>
    simp (disch := decide) only [State.bump, rd_wr_of_lo_ne, rd_wr_self]
    rfl
  case count =>
    simp (disch := decide) only [rd_bump_self, rd_wr_of_lo_ne]
    rfl
  case since =>
    rw [bump_clk, wr_clk]
    exact mget_mset_self 0 s.clk.skewSince (t * 4 + e) (s.now + 1)

end

/-! ### Time (R392, R393) -/

theorem usePort_frame (s : State) (p : Nat) : ∃ r, s.usePort p = { s with regs := r } := by
  unfold State.usePort
  split
  · exact ⟨_, rfl⟩
  · exact ⟨_, rfl⟩

@[simp] theorem usePort_now (s : State) (p : Nat) : (s.usePort p).now = s.now := by
  obtain ⟨r, h⟩ := usePort_frame s p
  rw [h]

@[simp] theorem usePort_clk (s : State) (p : Nat) : (s.usePort p).clk = s.clk := by
  obtain ⟨r, h⟩ := usePort_frame s p
  rw [h]

/-- The state of the bring-up is read as before. -/
theorem rd_usePort_holdover_buStatus (s : State) (p : Nat) :
    ((s.usePort p).wr Reg.TM_STATUS_HOLDOVER 0 0).rd Reg.BU_STATUS_STATE 0 = s.rd Reg.BU_STATUS_STATE 0 := by
  unfold State.usePort
  split
  · simp (disch := decide) only [rd_wr_ne]
  · simp (disch := decide) only [State.bump, rd_wr_ne]

theorem rd_with_now_clk (s : State) (n : Nat) (c : Clocks) (f : Fld) (i k : Nat) :
    State.rd { s with now := n, clk := c } f i k = s.rd f i k := rfl

section
variable {s : State} {p : Nat} (child : s.hasParent = true) (port : s.parentPort = some p)
include child port

section
variable {offset rate : Int} (slowest : -100000 ≤ rate) (fastest : rate ≤ 100000)
include slowest fastest

/-- A module that has its time, or is READY, is steered and never steps. -/
theorem doTimeExchange_of_synced (synced : s.clk.synced = true ∨ s.rd Reg.BU_STATUS_STATE 0 = 12) :
    s.doTimeExchange offset rate = ((((s.usePort p).wr Reg.TM_STATUS_HOLDOVER 0 0).wr Reg.TM_SERVO_OFFSET 0 (ofSigned 32 offset)).wr
      Reg.TM_STATUS_LOCKED 0 (b2n (decide (-2000 ≤ offset ∧ offset ≤ 2000)))).wr Reg.TM_SERVO_RATE 0 (ofSigned 32 rate) := by
  simp only [State.doTimeExchange, child, port, if_true, clampInt_of_within slowest fastest]
  rw [if_pos]
  rwa [wr_clk, usePort_clk, rd_usePort_holdover_buStatus]

/-- The first exchange before READY steps the time (R392). -/
theorem doTimeExchange_of_first (first : s.clk.synced = false) (early : s.rd Reg.BU_STATUS_STATE 0 ≠ 12) :
    s.doTimeExchange offset rate = State.wr { (((s.usePort p).wr Reg.TM_STATUS_HOLDOVER 0 0).wr Reg.TM_SERVO_OFFSET 0 0).wr
      Reg.TM_STATUS_LOCKED 0 1 with now := ((s.now : Int) + offset * 9 / 10000).toNat % 2 ^ 64, clk := { s.clk with synced := true } }
        Reg.TM_SERVO_RATE 0 (ofSigned 32 rate) := by
  simp only [State.doTimeExchange, child, port, if_true, clampInt_of_within slowest fastest]
  rw [if_neg]
  · simp only [wr_now, wr_clk, usePort_now, usePort_clk]
  · rw [wr_clk, usePort_clk, rd_usePort_holdover_buStatus]
    simp [first, early]

/-- Every exchange ends holdover and sets the rate. -/
theorem rd_doTimeExchange : (s.doTimeExchange offset rate).rd Reg.TM_STATUS_HOLDOVER 0 = 0 ∧
    toSigned 32 ((s.doTimeExchange offset rate).rd Reg.TM_SERVO_RATE 0) = rate := by
  have signed (u : State) : toSigned 32 ((u.wr Reg.TM_SERVO_RATE 0 (ofSigned 32 rate)).rd Reg.TM_SERVO_RATE 0) = rate :=
    toSigned_rd_wr u (w := 31) rfl 0 0 (by omega) (by omega)
  by_cases synced : s.clk.synced = true ∨ s.rd Reg.BU_STATUS_STATE 0 = 12
  · rw [doTimeExchange_of_synced child port slowest fastest synced]
    refine ⟨?_, signed _⟩
    simp (disch := decide) only [rd_wr_of_place_ne, rd_wr_self]
    rfl
  · obtain ⟨first, early⟩ := not_or.1 synced
    rw [doTimeExchange_of_first child port slowest fastest (Bool.eq_false_iff.2 first) early]
    refine ⟨?_, signed _⟩
    simp (disch := decide) only [rd_wr_of_place_ne, rd_with_now_clk, rd_wr_self]
    rfl

theorem rd_doTimeExchange_of_synced (low : -2 ^ 31 ≤ offset) (high : offset < 2 ^ 31) (synced : s.clk.synced = true) :
    let u := s.doTimeExchange offset rate
    u.now = s.now ∧ toSigned 32 (u.rd Reg.TM_SERVO_OFFSET 0) = offset ∧
      (u.rd Reg.TM_STATUS_LOCKED 0 = 1 ↔ -2000 ≤ offset ∧ offset ≤ 2000) := by
  intro u
  simp only [u, doTimeExchange_of_synced child port slowest fastest (.inl synced)]
  refine ⟨?now, ?offset, ?locked⟩
  case now => simp only [wr_now, usePort_now]
  case offset =>
    simp (disch := decide) only [rd_wr_of_place_ne]
    exact toSigned_rd_wr _ (w := 31) rfl 0 0 low high
  case locked =>
    simp (disch := decide) only [rd_wr_of_place_ne, rd_wr_self]
    by_cases near : -2000 ≤ offset ∧ offset ≤ 2000 <;> simp [near, b2n, Reg.TM_STATUS_LOCKED]

theorem rd_doTimeExchange_of_first (first : s.clk.synced = false) (early : s.rd Reg.BU_STATUS_STATE 0 ≠ 12) :
    let u := s.doTimeExchange offset rate
    u.now = ((s.now : Int) + offset * 9 / 10000).toNat % 2 ^ 64 ∧ u.clk.synced = true ∧ u.rd Reg.TM_SERVO_OFFSET 0 = 0 ∧
      u.rd Reg.TM_STATUS_LOCKED 0 = 1 := by
  intro u
  simp only [u, doTimeExchange_of_first child port slowest fastest first early]
  refine ⟨rfl, rfl, ?_⟩
  simp (disch := decide) only [rd_wr_of_place_ne, rd_with_now_clk, rd_wr_self]
  exact ⟨rfl, rfl⟩

end

end

/-- A module with a parent but no port to it, and not in holdover yet, enters it (R393). -/
theorem doHoldover_of_no_port {s : State} (child : s.hasParent = true) (none : s.parentPort = none)
    (steered : s.rd Reg.TM_STATUS_HOLDOVER 0 = 0) :
    s.doHoldover = ((s.wr Reg.TM_STATUS_HOLDOVER 0 1).wr Reg.TM_STATUS_LOCKED 0 0).bump Reg.TM_EVENTS_HOLDOVERS 0 :=
  if_neg (by simp [child, none, steered])

theorem foldl_min_of_le {up : List Nat} {m : Nat} (least : ∀ x ∈ up, m ≤ x) : up.foldl min m = m :=
  List.foldlRecOn up min (motive := (· = m)) rfl fun _ e x hx =>
    (congrArg (min · x) e).trans (Nat.min_eq_left (least x hx))

/-- The state with `m` for the time master; a change is counted. -/
def State.nameMaster (s : State) (m : Nat) : State :=
  if s.rd Reg.TM_STATUS_MASTER_MODULE 0 = m then s else (s.wr Reg.TM_STATUS_MASTER_MODULE 0 m).bump Reg.TM_EVENTS_PARENT_CHANGES 0

theorem nameMaster_frame (s : State) (m : Nat) : ∃ r, s.nameMaster m = { s with regs := r } := by
  unfold State.nameMaster
  split
  · exact ⟨_, rfl⟩
  · exact ⟨_, rfl⟩

@[simp] theorem nameMaster_now (s : State) (m : Nat) : (s.nameMaster m).now = s.now := by
  obtain ⟨r, h⟩ := nameMaster_frame s m
  rw [h]

@[simp] theorem nameMaster_ownMod (s : State) (m : Nat) : (s.nameMaster m).ownMod = s.ownMod := by
  obtain ⟨r, h⟩ := nameMaster_frame s m
  rw [h]
  rfl

theorem rd_nameMaster {s : State} {m : Nat} (small : m < 64) : (s.nameMaster m).rd Reg.TM_STATUS_MASTER_MODULE 0 = m := by
  unfold State.nameMaster
  split
  · assumption
  · simp (disch := decide) only [State.bump, rd_wr_ne, rd_wr_self]
    exact Nat.mod_eq_of_lt small

/-- The lowest module that is up is its own time master (R393). -/
theorem doMasterChange_of_least {s : State} {up : List Nat} (inSystem : s.host.inSystem = true) (least : ∀ m ∈ up, s.ownMod ≤ m) :
    s.doMasterChange up =
      (((s.nameMaster s.ownMod).wr Reg.TM_STATUS_MASTER 0 1).wr Reg.TM_STATUS_LOCKED 0 1).wr Reg.TM_STATUS_HOLDOVER 0 0 := by
  have own (v : Nat) : ((s.nameMaster s.ownMod).wr Reg.TM_STATUS_MASTER 0 v).ownMod = s.ownMod := nameMaster_ownMod s _
  simp only [State.doMasterChange, inSystem, foldl_min_of_le least, Bool.not_true, Bool.false_eq_true, if_false]
  rw [← State.nameMaster]
  simp only [nameMaster_ownMod, own, if_true, beq_self_eq_true]
  rfl

theorem rd_doMasterChange_of_least {s : State} {up : List Nat} (inSystem : s.host.inSystem = true) (small : s.ownMod < 64)
    (least : ∀ m ∈ up, s.ownMod ≤ m) : let u := s.doMasterChange up
    u.now = s.now ∧ u.rd Reg.TM_STATUS_MASTER_MODULE 0 = s.ownMod ∧ u.rd Reg.TM_STATUS_MASTER 0 = 1 ∧
      u.rd Reg.TM_STATUS_LOCKED 0 = 1 := by
  intro u
  simp (disch := decide) only [u, doMasterChange_of_least inSystem least, wr_now, nameMaster_now, rd_wr_of_place_ne, rd_wr_self,
    rd_nameMaster small, true_and]
  exact ⟨rfl, rfl⟩

/-! ### The statement -/

/-- Settles O40: slots by the lemmas on a boundary for which nothing waits, skew and time by the equations of their operations. -/
theorem slotsSkewAndTime : Obligations.SlotsSkewAndTime := by
  refine fun s => ⟨fun started evWait divWait migrs rstWait disables chanDue injDue => ?slots,
    fun t e live => ⟨?stored, ?trimmed, ?alarm⟩, fun child p offset rate port low high slowest fastest => ?exchange,
    fun child none steered => ?holdover,
    fun up inSystem small least => ⟨_, rfl, rd_doMasterChange_of_least inSystem small least⟩⟩
  case slots =>
    have due : s.NothingDue := ⟨evWait, divWait, migrs, rstWait, disables, chanDue, injDue⟩
    refine ⟨fun counted => ?_, fun held out back => exec_heldSlot_of_nothingDue started held due out back⟩
    obtain ⟨u, runs, next, free, hold⟩ := exec_slotBoundary_of_nothingDue started counted due
    refine ⟨u, runs, next.mem, free, hold, next.stage, fun t => ?_⟩
    rw [next.stretch _ (by decide), next.stretch _ (by decide)]
    exact rd_slotEnded s t
  case stored => exact fun m whey low high => congrArg Host.Outcome.next (doSkewTrim_of_not_whey live low high whey)
  case trimmed => exact fun m whey low high => ⟨_, rfl, rd_doSkewTrim_of_whey live low high whey⟩
  case alarm => exact fun beyond atEnd first => ⟨_, rfl, rd_doSkewAlarm_of_beyond live beyond atEnd first⟩
  case exchange =>
    obtain ⟨holdover, steers⟩ := rd_doTimeExchange child port slowest fastest
    exact ⟨_, rfl, holdover, steers, rd_doTimeExchange_of_synced child port slowest fastest low high,
      rd_doTimeExchange_of_first child port slowest fastest⟩
  case holdover => exact congrArg Host.Outcome.next (doHoldover_of_no_port child none steered)

end Sys2Proof.Machine
end

section
/-! PROOFS. The header of a packet (9.2, R243 to R245, Table 9.3): fields that stand side by side are read back as they were
written, and neither check covers HOP. -/

namespace Sys2Proof.Machine

/-! ### Fields side by side -/

/-- The number whose fields at the places `L`, lowest bit and width each, hold the values `vs`. -/
def fieldSum (L : List (Nat × Nat)) (vs : List Nat) : Nat := ((L.zip vs).map fun e => e.2 % 2 ^ e.1.2 * 2 ^ e.1.1).sum

/-- Do the places follow one another, without a gap, from bit `a` up to bit `b`, which is the first that they leave free? -/
def adjoining : Nat → List (Nat × Nat) → Nat → Bool
  | a, [], b => a == b
  | a, (lo, w) :: L, b => a == lo && adjoining (a + w) L b

theorem fieldSum_cons (lo w v : Nat) (L : List (Nat × Nat)) (vs : List Nat) :
    fieldSum ((lo, w) :: L) (v :: vs) = v % 2 ^ w * 2 ^ lo + fieldSum L vs := rfl

theorem adjoining_cons {a lo w b : Nat} {L : List (Nat × Nat)} (h : adjoining a ((lo, w) :: L) b = true) :
    a = lo ∧ adjoining (a + w) L b = true := by simpa [adjoining] using h

theorem le_of_adjoining {b : Nat} : ∀ {L : List (Nat × Nat)} {a : Nat}, adjoining a L b = true → a ≤ b
  | [], _, h => (beq_iff_eq.1 h).le
  | _ :: _, _, h => (Nat.le_add_right _ _).trans (le_of_adjoining (adjoining_cons h).2)

/-- A field adds its own value to the number that holds 0 there. -/
theorem fieldSum_set (v : Nat) : ∀ (L : List (Nat × Nat)) (vs : List Nat) (i : Nat), L.length = vs.length → i < L.length →
    fieldSum L (vs.set i v) = fieldSum L (vs.set i 0) + v % 2 ^ (L.getD i (0, 0)).2 * 2 ^ (L.getD i (0, 0)).1
  | (lo, w) :: L, _ :: vs, 0, _, _ => by
    simp only [List.set_cons_zero, List.getD_cons_zero, fieldSum_cons, Nat.zero_mod, Nat.zero_mul, Nat.zero_add]
    exact Nat.add_comm _ _
  | (lo, w) :: L, _ :: vs, i + 1, len, small => by
    have rest := fieldSum_set v L vs i (Nat.succ.inj len) (Nat.lt_of_succ_lt_succ small)
    simp only [List.set_cons_succ, List.getD_cons_succ, fieldSum_cons, rest, Nat.add_assoc]

/-- Adjoining fields from bit `a` on leave the bits below `a` free. -/
theorem dvd_fieldSum {b : Nat} : ∀ {L : List (Nat × Nat)} {a : Nat} (vs : List Nat), adjoining a L b = true → 2 ^ a ∣ fieldSum L vs
  | [], _, _, _ => dvd_zero _
  | _ :: _, _, [], _ => dvd_zero _
  | (_, w) :: L, a, v :: vs, h => by
    obtain ⟨rfl, rest⟩ := adjoining_cons h
    exact dvd_add (Dvd.intro_left _ rfl) ((pow_dvd_pow 2 (Nat.le_add_right _ w)).trans (dvd_fieldSum vs rest))

/-- A field of `w` bits at bit `a`, with all bits below it, stays below the next field. -/
theorem field_add_le (v w a : Nat) : v % 2 ^ w * 2 ^ a + 2 ^ a ≤ 2 ^ (a + w) := by
  rw [← Nat.succ_mul, Nat.pow_add, Nat.mul_comm (2 ^ a)]
  exact Nat.mul_le_mul_right _ (Nat.mod_lt _ (Nat.two_pow_pos w))

/-- Adjoining fields from bit `a` to bit `b`, with all bits below `a` beside them, stay below bit `b`. -/
theorem fieldSum_add_le {b : Nat} : ∀ {L : List (Nat × Nat)} {a : Nat} (vs : List Nat), adjoining a L b = true →
    fieldSum L vs + 2 ^ a ≤ 2 ^ b
  | [], _, _, h => (Nat.zero_add _).le.trans (Nat.pow_le_pow_right two_pos (le_of_adjoining h))
  | _ :: _, _, [], h => (Nat.zero_add _).le.trans (Nat.pow_le_pow_right two_pos (le_of_adjoining h))
  | (_, w) :: L, a, v :: vs, h => by
    obtain ⟨rfl, rest⟩ := adjoining_cons h
    have own := field_add_le v w a
    have others := fieldSum_add_le vs rest
    rw [fieldSum_cons]
    omega

/-- A field is read back as its value cut to its width, whatever stands below bit `a` and from bit `b` on. -/
theorem fieldSum_read {b : Nat} (high : Nat) : ∀ {L : List (Nat × Nat)} {vs : List Nat} {a low i : Nat}, adjoining a L b = true →
    L.length = vs.length → low < 2 ^ a → i < L.length →
    (low + fieldSum L vs + 2 ^ b * high) / 2 ^ (L.getD i (0, 0)).1 % 2 ^ (L.getD i (0, 0)).2 = vs.getD i 0 % 2 ^ (L.getD i (0, 0)).2
  | (_, w) :: L, v :: vs, a, low, 0, h, _, below, _ => by
    obtain ⟨rfl, rest⟩ := adjoining_cons h
    obtain ⟨m, above⟩ : 2 ^ (a + w) ∣ fieldSum L vs + 2 ^ b * high :=
      dvd_add (dvd_fieldSum vs rest) (Dvd.dvd.mul_right (pow_dvd_pow 2 (le_of_adjoining rest)) _)
    have split : low + fieldSum ((a, w) :: L) (v :: vs) + 2 ^ b * high = low + 2 ^ a * (v % 2 ^ w + 2 ^ w * m) := by
      rw [fieldSum_cons, add_assoc, add_assoc, above, pow_add]
      ring
    simp only [List.getD_cons_zero, split, Nat.add_mul_div_left _ _ (Nat.two_pow_pos a), Nat.div_eq_of_lt below, zero_add,
      Nat.add_mul_mod_self_left, Nat.mod_mod]
  | (_, w) :: L, v :: vs, a, low, i + 1, h, len, below, small => by
    obtain ⟨rfl, rest⟩ := adjoining_cons h
    have below : low + v % 2 ^ w * 2 ^ a < 2 ^ (a + w) := by
      have own := field_add_le v w a
      omega
    rw [fieldSum_cons, ← add_assoc]
    exact fieldSum_read high rest (Nat.succ.inj len) below (Nat.lt_of_succ_lt_succ small)

/-! ### The header's fields (Table 9.3) -/

theorem adjoining_hdrLayout : adjoining 0 hdrLayout 238 = true := by decide

theorem hdrBody_lt (p : Pkt) : p.hdrBody < 2 ^ 238 := Nat.lt_of_succ_le (fieldSum_add_le p.hdrVals adjoining_hdrLayout)

/-- Each field of a body, whatever stands from bit 238 on. -/
theorem hdrFld_hdrBody (p : Pkt) (high : Nat) {i : Nat} (hi : i < 17) :
    hdrFld (p.hdrBody + 2 ^ 238 * high) i = p.hdrVals.getD i 0 % 2 ^ (hdrLayout.getD i (0, 0)).2 := by
  have read := fieldSum_read high (vs := p.hdrVals) adjoining_hdrLayout rfl Nat.one_pos hi
  rwa [zero_add] at read

theorem header_eq (p : Pkt) : p.header = p.hdrBody + 2 ^ 238 * (4 * hcrcOf p.hdrBody) := by
  rw [Pkt.header]
  ring

theorem hdrFld_header (p : Pkt) {i : Nat} (hi : i < 17) : hdrFld p.header i = p.hdrVals.getD i 0 % 2 ^ (hdrLayout.getD i (0, 0)).2 := by
  rw [header_eq, hdrFld_hdrBody p _ hi]

/-! ### HCRC (R244) -/

theorem crc16Bits_lt : ∀ (n : Nat) {c : Nat}, c < 2 ^ 16 → crc16Bits n c < 2 ^ 16
  | 0, _, h => h
  | n + 1, c, h => by
    rw [crc16Bits]
    refine crc16Bits_lt n ?_
    split
    · exact Nat.xor_lt_two_pow (Nat.mod_lt _ (by decide)) (by decide)
    · omega

theorem crc16_lt (bs : List Nat) : crc16 bs < 2 ^ 16 := by
  refine List.foldlRecOn (motive := (· < 2 ^ 16)) bs _ (by decide) fun c h b _ => crc16Bits_lt 8 ?_
  exact Nat.xor_lt_two_pow h (by omega)

theorem header_lt (p : Pkt) : p.header < 2 ^ 256 := by
  have body := hdrBody_lt p
  have check : hcrcOf p.hdrBody < 2 ^ 16 := crc16_lt _
  rw [Pkt.header]
  omega

theorem header_mod (p : Pkt) : p.header % 2 ^ 240 = p.hdrBody := by
  have body := hdrBody_lt p
  rw [Pkt.header]
  omega

theorem bitsOf_header_hcrc (p : Pkt) : bitsOf p.header 255 240 = hcrcOf p.hdrBody := by
  have body := hdrBody_lt p
  have check : hcrcOf p.hdrBody < 2 ^ 16 := crc16_lt _
  simp only [bitsOf, Pkt.header]
  omega

/-! ### HOP is outside both checks (R244, R245) -/

/-- HOP adds its own bits to a body without it. -/
theorem hdrBody_hop (p : Pkt) (hop : Nat) :
    ({ p with hop := hop } : Pkt).hdrBody = ({ p with hop := 0 } : Pkt).hdrBody + hop % 2 ^ 5 * 2 ^ 10 := by
  exact fieldSum_set hop hdrLayout p.hdrVals 4 rfl (by decide)

/-- Taking HOP as 0 in a header, with any bits from 238 on, gives the same bits over the body without HOP. -/
theorem hdrBody_clear_hop (p : Pkt) (high : Nat) :
    p.hdrBody + 2 ^ 238 * high - bitsOf (p.hdrBody + 2 ^ 238 * high) 14 10 * 2 ^ 10 =
      ({ p with hop := 0 } : Pkt).hdrBody + 2 ^ 238 * high := by
  have read : bitsOf (p.hdrBody + 2 ^ 238 * high) 14 10 = p.hop % 2 ^ 5 := hdrFld_hdrBody p high (i := 4) (by decide)
  have body : p.hdrBody = ({ p with hop := 0 } : Pkt).hdrBody + p.hop % 2 ^ 5 * 2 ^ 10 := hdrBody_hop p p.hop
  rw [read, body]
  omega

theorem hcrcOf_hdrBody (p : Pkt) : hcrcOf p.hdrBody = crc16 (leBytes 30 ({ p with hop := 0 } : Pkt).hdrBody) := by
  have clear := hdrBody_clear_hop p 0
  rw [Nat.mul_zero, Nat.add_zero, Nat.add_zero] at clear
  rw [hcrcOf, clear]

/-- HCRC is the same for every HOP. -/
theorem hcrcOf_hdrBody_hop (p : Pkt) (hop : Nat) : hcrcOf ({ p with hop := hop } : Pkt).hdrBody = hcrcOf p.hdrBody := by
  rw [hcrcOf_hdrBody, hcrcOf_hdrBody p]

theorem trailerOf_header (p : Pkt) (payload : List Byte) : trailerOf p.header payload =
    crc32c (leBytes 32 ({ p with hop := 0 } : Pkt).header ++ ofBytes payload) := by
  rw [trailerOf, header_eq, hdrBody_clear_hop, header_eq, hcrcOf_hdrBody_hop p 0]

/-- The trailer is the same for every HOP. -/
theorem trailerOf_header_hop (p : Pkt) (hop : Nat) (payload : List Byte) :
    trailerOf ({ p with hop := hop } : Pkt).header payload = trailerOf p.header payload := by
  rw [trailerOf_header, trailerOf_header p]

/-! ### The statement -/

theorem b2n_mod_two_beq_one (b : Bool) : (b2n b % 2 ^ 1 == 1) = b := by cases b <;> rfl

theorem w64_toNat_mod (w : Word) : w64 (w.toNat % 2 ^ 64) = w := by
  rw [Nat.mod_eq_of_lt w.isLt, w64, BitVec.ofNat_toNat, BitVec.setWidth_eq]

/-- A header spells its fields, each cut to its width, and passes its own check. -/
theorem wirePkt_header (p : Pkt) (payload : List Byte) (trailer : Nat) : wirePkt p.header payload trailer =
    { blankPkt with cls := p.cls % 2 ^ 2, op := p.op % 2 ^ 5, epoch := p.epoch % 2 ^ 2, rmode := p.rmode, hop := p.hop % 2 ^ 5,
                    vat := p.vat % 2 ^ 8, len := p.len % 2 ^ 14, route := p.route % 2 ^ 60, daddr := p.daddr, dmod := p.dmod % 2 ^ 6,
                    dtile := p.dtile % 2 ^ 6, src := p.src % 2 ^ 20, seq := p.seq % 2 ^ 16, opid := p.opid % 2 ^ 4,
                    redop := p.redop % 2 ^ 3, skim := p.skim % 2 ^ 14, cause := p.cause % 2 ^ 8, payload := payload, hdrOk := true,
                    crcOk := trailer == trailerOf p.header payload } := by
  rw [wirePkt, bitsOf_header_hcrc, header_mod]
  simp (disch := decide) only [hdrFld_header, Pkt.hdrVals, hdrLayout, List.getD_cons_succ, List.getD_cons_zero, b2n_mod_two_beq_one,
    w64_toNat_mod, beq_self_eq_true]

/-- Settles O32: the fields adjoin one another, so each is read back, and HOP is outside both checks. -/
theorem headerRoundTrip : Obligations.HeaderRoundTrip := by
  intro p hop cls op epoch _ vat len route dmod dtile src seq opid redop skim cause small q r
  have header : r = _ := wirePkt_header q p.payload (trailerOf p.header p.payload)
  have trailer : trailerOf q.header p.payload = trailerOf p.header p.payload := trailerOf_header_hop p hop p.payload
  refine ⟨header_lt q, header.trans ?_⟩
  simp only [q, beq_self_eq_true, Nat.mod_eq_of_lt, *]

end Sys2Proof.Machine
end

section
/-! PROOFS. The outputs that a direction table permits (9.5, R258): what makes a candidate, and the choice among them. -/

namespace Sys2Proof.Machine

/-! ### Candidates and the choice (R258) -/

/-- Rule 2: a candidate is in the mask, is usable, and its neighbour lies closer, and west where the target lies west. -/
theorem mem_candidates {s : State} {t target port : Nat} : port ∈ s.candidates t target ↔
    port < 6 ∧ bitOf (s.rd Reg.TILE_ACT_ENTRY t target) port = true ∧ s.portUp t port = true ∧
      ∃ n, neighbour t port = some n ∧ tileDist n target < tileDist t target ∧ (tileX target < tileX t → tileX n < tileX t) := by
  simp only [State.candidates, List.mem_filter, List.mem_range, Bool.and_eq_true, and_assoc]
  cases neighbour t port with
  | none => simp
  | some n => simp [Decidable.imp_iff_not_or]

/-- Rule 3: the choice is the first candidate with the fewest queued flits. -/
theorem choose_eq_argmin (s : State) (t target cls : Nat) :
    s.choose t target cls = (s.candidates t target).argmin fun port => s.queued t port cls := by
  unfold State.choose List.argmin
  congr 1
  funext best port
  cases best <;> rfl

theorem mem_candidates_of_choose {s : State} {t target cls port : Nat} (chosen : s.choose t target cls = some port) :
    port ∈ s.candidates t target := List.argmin_mem (choose_eq_argmin s t target cls ▸ chosen)

/-- Settles O31: the chosen output is a candidate, and none has fewer queued flits. -/
theorem chosenOutputIsCloser : Obligations.ChosenOutputIsCloser := by
  intro s t target cls port chosen
  obtain ⟨-, mask, up, closer⟩ := mem_candidates.1 (mem_candidates_of_choose chosen)
  rw [choose_eq_argmin] at chosen
  exact ⟨mask, up, closer, fun q candidate => List.le_of_mem_argmin candidate chosen⟩

end Sys2Proof.Machine
end

section
/-! PROOFS. Hops of packets (9.4, 9.5, R242, R244, R255 to R259): what a router does with a head that it may look at, a packet that goes out
to the next tile, and the losses of R272 and R461. -/

namespace Sys2Proof.Machine

/-! ### Packets in the plane -/

/-- A change of packets that keeps their numbers finds the same packet, changed. -/
theorem find?_map_pid {f : Pkt → Pkt} (keeps : ∀ x, (f x).pid = x.pid) (l : List Pkt) (pid : Nat) :
    ((l.map f).find? fun x => x.pid == pid) = (l.find? fun x => x.pid == pid).map f := by
  simp only [List.find?_map, Function.comp_def, keeps]

/-- A packet that is in the plane reads as it was set. -/
theorem pkt?_setPkt_self {s : State} {q : Pkt} (present : (s.pkt? q.pid).isSome = true) : (s.setPkt q).pkt? q.pid = some q := by
  obtain ⟨x, found⟩ := Option.isSome_iff_exists.1 present
  have own : x.pid = q.pid := by simpa using List.find?_some found
  have keeps (y : Pkt) : (if y.pid = q.pid then q else y).pid = y.pid := by split <;> simp [*]
  rw [State.pkt?] at found
  simp only [State.pkt?, State.setPkt, find?_map_pid keeps, found, Option.map_some, own, if_true]

/-- A release of what a receiver held back loses no packet. -/
theorem isSome_pkt?_unhold (s : State) (t inPort cls pid : Nat) : ((s.unhold t inPort cls).pkt? pid).isSome = (s.pkt? pid).isSome := by
  rw [State.pkt?, State.unhold, find?_map_pid, Option.isSome_map, State.pkt?]
  intro x
  split <;> rfl

/-! ### The next tile (R263, R264, R334) -/

theorem takeInject_of_none {s : State} (clean : s.lnk.injNext = []) (t inp lo hi : Nat) : s.takeInject t inp lo hi = (s, 0) := by
  simp [State.takeInject, clean]

/-- A receiver with no injected error takes a packet as it came; one in Burboid mode is not held back. -/
theorem meet_of_no_injection {s : State} (clean : s.lnk.injNext = []) (t inp : Nat) (p : Pkt) :
    s.meet t inp p = (s, some { p with held := p.rmode && p.held }) := by
  simp only [State.meet, takeInject_of_none clean]
  cases p.rmode <;> simp

/-- A packet whose output is open and whose turn it is stands in the next router, with HOP advanced. -/
theorem move_of_open {s : State} {p : Pkt} {port n : Nat} (adv : Nat) (next : neighbour p.at_ port = some n) (isOpen : s.outOpen p port = true)
    (turn : s.turnOf p port = true) (clean : s.lnk.injNext = []) (fresh : p.out = none) :
    s.move p port adv = ((s.sentOut p port (txKey p.at_ port)).unhold n (oppPort port) p.cls).setPkt
      { p with at_ := n, inPort := oppPort port, hop := p.hop + adv, out := none, held := p.rmode && p.held } := by
  have clean : (s.sentOut p port (txKey p.at_ port)).lnk.injNext = [] := clean
  simp [State.move, next, isOpen, turn, meet_of_no_injection clean, fresh]

/-! ### A head at a router -/

theorem exec_packetHopSourceRoute (pid : Nat) (s : State) : exec (.packetHopSourceRoute pid) s = .next (s.doHopSource pid).pumpAll := rfl

theorem exec_packetHopBurboid (pid : Nat) (s : State) : exec (.packetHopBurboid pid) s = .next (s.doHopBurboid pid).pumpAll := rfl

theorem arrived_of_free {s : State} {p : Pkt} (free : p.free = true) (burboid : p.rmode = false) (far : p.dtile ≠ p.at_) :
    s.arrived p = false := by
  simp only [Pkt.free, Bool.and_eq_true, Bool.not_eq_true'] at free
  simp [State.arrived, free, burboid, far]

section
variable {s : State} {pid : Nat} {p : Pkt} (found : s.pkt? pid = some p) (free : p.free = true) (noNode : s.nodeFor p = none)
include found free noNode

/-- A source route's hop goes where its field names, if the link carries it (R255, R256). -/
theorem doHopSource_of_good (source : p.rmode = true) (order : s.inOrder p = true) (good : p.headerOk = true) {c : Nat}
    (field : c = routeFld p.route p.hop) (more : c ≠ 0) (notReach : c ≠ 7) :
    s.doHopSource pid = if s.portUp p.at_ (c - 1) then s.move p (c - 1) 1 else s.broken p := by
  subst field
  simp [State.doHopSource, found, free, noNode, source, order, good, more, notReach]

/-- A header that fails its check is discarded and counted (R244). -/
theorem doHopSource_of_bad (source : p.rmode = true) (order : s.inOrder p = true) (bad : p.headerOk = false) :
    s.doHopSource pid = s.dropHeader p := by
  simp [State.doHopSource, found, free, noNode, source, order, bad]

/-- A Burboid packet whose epoch is not the router's is turned back (R259). -/
theorem doHopBurboid_of_stale (burboid : p.rmode = false) (good : p.headerOk = true) (far : p.dtile ≠ p.at_) (fresh : p.out = none)
    (stale : p.epoch ≠ s.epochAt p.at_) :
    s.doHopBurboid pid = (s.bump Reg.DYN_DROP0_EPOCH_NACK p.at_).nackDrop p cEpoch := by
  simp [State.doHopBurboid, found, free, noNode, burboid, good, arrived_of_free free burboid far, fresh, stale]

section
variable (burboid : p.rmode = false) (good : p.headerOk = true) (own : p.dmod = s.ownMod) (far : p.dtile ≠ p.at_) (fresh : p.out = none)
  (current : p.epoch = s.epochAt p.at_)
include burboid good own far fresh current

/-- A Burboid packet within the module takes the chosen output of its tile (R258). -/
theorem doHopBurboid_of_chosen {port : Nat} (chosen : s.choose p.at_ p.dtile p.cls = some port) :
    s.doHopBurboid pid = s.move p port 0 := by
  obtain ⟨edge, -⟩ := mem_candidates.1 (mem_candidates_of_choose chosen)
  have base : port < 16 := by omega
  simp [State.doHopBurboid, found, free, noNode, burboid, good, arrived_of_free free burboid far, fresh, current, State.lookUp, own, chosen,
    State.goOut, base]

/-- With no candidate left it is answered PATH_BROKEN (R258). -/
theorem doHopBurboid_of_no_way (noWay : s.choose p.at_ p.dtile p.cls = none) : s.doHopBurboid pid = s.broken p := by
  simp [State.doHopBurboid, found, free, noNode, burboid, good, arrived_of_free free burboid far, fresh, current, State.lookUp, own, noWay]

end

end

/-! ### Losses (R272, R461) -/

theorem exec_packetTruncation {s : State} {pid : Nat} {p : Pkt} (found : s.pkt? pid = some p) (inside : p.at_ < 36) (sent : p.retryAt = none) :
    exec (.packetTruncation pid) s = .next ((s.bump Reg.DYN_DROP2_TRUNC p.at_).dropPkt pid) := by
  show Host.Outcome.next (s.doTruncation pid) = _
  simp [State.doTruncation, found, inside, sent]

theorem exec_hostReadTimeout (pid : Nat) (s : State) : exec (.hostReadTimeout pid) s = .next (s.doHostTimeout pid) := rfl

/-- A read of host memory that stands at the port of a module whose link is down is answered POISON after 50 us. -/
theorem doHostTimeout_of_down {s : State} {pid a : Nat} {p : Pkt} (found : s.pkt? pid = some p) (arrived : s.arrived p = true)
    (port : p.at_ = 0) (reads : p.op = opLoad ∨ p.op = opReadReq ∨ p.op = opAmo) (physical : p.daddr.toNat / 2 ^ 63 % 2 = 1)
    (down : s.host.up = false) (sent : p.retryAt = none) (late : p.sentAt + us 50 ≤ s.now)
    (host : decodePa (p.daddr.toNat % 2 ^ 56) = some (.host a)) : s.doHostTimeout pid = s.nackDrop p cPoison := by
  have reads : (p.op == opReadReq || p.op == opLoad || p.op == opAmo) = true := by
    rcases reads with op | op | op <;> rw [op] <;> rfl
  have bit : bitOf p.daddr.toNat 63 = true := decide_eq_true physical
  simp only [State.doHostTimeout, found, arrived, port, reads, bit, down, sent, late, host, beq_self_eq_true, Option.isNone_none,
    Bool.not_false, decide_true, Bool.and_true, if_true]

/-! ### The statement -/

/-- Settles O30: each case is the row's own branch; what moves stands in the next router by `move_of_open`. -/
theorem packetHops : Obligations.PacketHops := by
  intro s pid p found
  refine ⟨fun free noNode => ⟨?source, ?burboid⟩, ?moved, ?truncated, ?host⟩
  case source =>
    intro source order
    refine ⟨fun good c field more notReach => ?_, fun bad => ?_⟩
    · rw [exec_packetHopSourceRoute, doHopSource_of_good found free noNode source order good field more notReach]
      rfl
    · rw [exec_packetHopSourceRoute, doHopSource_of_bad found free noNode source order bad]
      rfl
  case burboid =>
    intro burboid good own far fresh
    refine ⟨fun stale => ?_, fun current => ?_⟩
    · rw [exec_packetHopBurboid, doHopBurboid_of_stale found free noNode burboid good far fresh stale]
    · rw [exec_packetHopBurboid]
      cases chosen : s.choose p.at_ p.dtile p.cls with
      | some port => rw [doHopBurboid_of_chosen found free noNode burboid good own far fresh current chosen]
      | none =>
        rw [doHopBurboid_of_no_way found free noNode burboid good own far fresh current chosen]
        rfl
  case moved =>
    rintro port adv n next isOpen turn clean fresh rfl
    have present : (((s.sentOut p port (txKey p.at_ port)).unhold n (oppPort port) p.cls).pkt? p.pid).isSome = true := by
      rw [isSome_pkt?_unhold]
      exact Option.isSome_of_mem found
    rw [move_of_open adv next isOpen turn clean fresh]
    exact ⟨rfl, _, pkt?_setPkt_self present, rfl, rfl, rfl, rfl⟩
  case truncated => exact fun inside sent => exec_packetTruncation found inside sent
  case host =>
    rintro arrived port reads physical down sent late ⟨a, host⟩
    rw [exec_hostReadTimeout, doHostTimeout_of_down found arrived port reads physical down sent late host]

end Sys2Proof.Machine
end

section
/-! PROOFS. Exponent lanes (10.5, R294 to R296): what a seal fixes, and what a module's write and its seal leave. -/

namespace Sys2Proof.Machine

/-! ### Seals -/

/-- A seal enters the lane's list of seals and nothing else. -/
theorem sealLane_frame (s : State) (lane tag : Nat) :
    ∃ l, s.sealLane lane tag = { s with ren := { s.ren with seals := l } } := by
  unfold State.sealLane
  split
  · exact ⟨s.ren.seals, rfl⟩
  · exact ⟨_, rfl⟩

/-- A lane that is sealed for a TAG stays as it is. -/
theorem sealLane_of_sealed {s : State} {lane tag : Nat} (sealed : (s.seal? lane tag).isSome = true) : s.sealLane lane tag = s := by
  simp [State.sealLane, sealed]

/-- A seal fixes the exponent, the contributors and whether all have contributed, as they stand. -/
theorem seal?_sealLane_of_open {s : State} {lane tag : Nat} (bound : s.laneVat lane ≠ none) (unsealed : s.seal? lane tag = none) :
    (s.sealLane lane tag).seal? lane tag = some ⟨tag, s.laneExp lane tag, s.laneTagged lane tag, s.laneFull lane tag⟩ := by
  have others : ∀ e ∈ s.sealsOf lane, e.tag ≠ tag := by simpa [State.seal?] using unsealed
  have kept : (((s.sealsOf lane).filter fun e => decide ((tag + 2 ^ 16 - e.tag) % 2 ^ 16 < 2 ^ 15)).find? fun e => e.tag == tag) = none := by
    simp only [List.find?_eq_none, List.mem_filter, beq_iff_eq]
    exact fun e he => others e he.1
  rw [State.sealLane, if_neg (by simp [bound, unsealed])]
  simp only [State.seal?, State.sealsOf, mget_mset_self, List.find?_append] at kept ⊢
  rw [kept]
  simp

theorem tag_of_seal? {s : State} {lane tag : Nat} {e : Seal} (sealed : s.seal? lane tag = some e) : e.tag = tag := by
  simpa using List.find?_some sealed

/-! ### The fields of EXP_LOCAL -/

section
variable (s : State) {f : Fld} (field : f ∈ [Reg.EXP_LOCAL_EXP, Reg.EXP_LOCAL_TAG, Reg.EXP_LOCAL_SEAL]) (v lane : Nat)
include field

/-- A lane's binding stands in EXP_BIND, which a write of EXP_LOCAL leaves. -/
theorem laneVat_wr_expLocal : (s.wr f 0 v lane).laneVat lane = s.laneVat lane := by
  have place : f.blk = .rennet ∧ f.off = 1024 ∧ f.step = 8 := by
    revert f
    decide
  obtain ⟨blk, off, step⟩ := place
  have valid : fkey f 0 lane ≠ fkey Reg.EXP_BIND_VALID 0 lane := by
    simp only [fkey, blk, off, step, Reg.EXP_BIND_VALID]
    omega
  have vat : fkey f 0 lane ≠ fkey Reg.EXP_BIND_VAT 0 lane := by
    simp only [fkey, blk, off, step, Reg.EXP_BIND_VAT]
    omega
  simp only [State.laneVat, rd_wr_ne _ _ _ _ _ _ _ _ valid, rd_wr_ne _ _ _ _ _ _ _ _ vat, vat_wr]

theorem laneTagged_wr_expLocal (tag : Nat) : (s.wr f 0 v lane).laneTagged lane tag = s.laneTagged lane tag := by
  rw [State.laneTagged, laneVat_wr_expLocal s field v lane]
  rfl

theorem laneExp_wr_expLocal (tag : Nat) : (s.wr f 0 v lane).laneExp lane tag = s.laneExp lane tag := by
  rw [State.laneExp, laneTagged_wr_expLocal s field v lane]
  rfl

theorem laneFull_wr_expLocal (tag : Nat) : (s.wr f 0 v lane).laneFull lane tag = s.laneFull lane tag := by
  rw [State.laneFull, laneVat_wr_expLocal s field v lane, laneTagged_wr_expLocal s field v lane]
  rfl

end

/-! ### EXP_LOCAL_WRITE -/

theorem rd_of_regs {s t : State} (regs : t.regs = s.regs) (f : Fld) (i k : Nat) : t.rd f i k = s.rd f i k := by
  rw [State.rd, regs]
  rfl

/-- The state in which the own module's exponent and TAG of a lane stand in EXP_LOCAL and among the modules' contributions. -/
def State.expWritten (s : State) (lane exp tag : Nat) : State :=
  let t := (s.wr Reg.EXP_LOCAL_EXP 0 exp lane).wr Reg.EXP_LOCAL_TAG 0 tag lane
  { t with ren := { t.ren with expMod := mset 0 t.ren.expMod (lane * 64 + s.ownMod) (exp * 65536 + tag + 1) } }

/-- Besides storing what was written, the write may only seal the lane. -/
theorem doExpLocal_own (s : State) (lane exp tag : Nat) : s.doExpLocal s.ownMod lane exp tag = s.expWritten lane exp tag ∨
    s.doExpLocal s.ownMod lane exp tag = (s.expWritten lane exp tag).sealLane lane tag := by
  unfold State.doExpLocal
  rw [if_pos rfl]
  dsimp only
  split
  · exact Or.inr rfl
  · exact Or.inl rfl

theorem doExpLocal_own_frame {s u : State} {lane exp tag : Nat} (hu : u = s.doExpLocal s.ownMod lane exp tag) :
    u.mem = s.mem ∧ u.regs = (s.expWritten lane exp tag).regs ∧ u.ren.expMod = (s.expWritten lane exp tag).ren.expMod := by
  rcases doExpLocal_own s lane exp tag with same | seals
  · rw [hu, same]
    exact ⟨rfl, rfl, rfl⟩
  · obtain ⟨l, frame⟩ := sealLane_frame (s.expWritten lane exp tag) lane tag
    rw [hu, seals, frame]
    exact ⟨rfl, rfl, rfl⟩

theorem doExpLocal_own_of_sealed {s : State} {lane tag : Nat} (exp : Nat) (sealed : (s.seal? lane tag).isSome = true) :
    s.doExpLocal s.ownMod lane exp tag = s.expWritten lane exp tag := by
  rcases doExpLocal_own s lane exp tag with same | seals
  · exact same
  · exact seals.trans (sealLane_of_sealed sealed)

theorem rd_expWritten (s : State) (lane : Nat) (exp tag : BitVec 16) :
    (s.expWritten lane exp.toNat tag.toNat).rd Reg.EXP_LOCAL_EXP 0 lane = exp.toNat ∧
    (s.expWritten lane exp.toNat tag.toNat).rd Reg.EXP_LOCAL_TAG 0 lane = tag.toNat := by
  constructor
  · show State.rd ((s.wr Reg.EXP_LOCAL_EXP 0 exp.toNat lane).wr Reg.EXP_LOCAL_TAG 0 tag.toNat lane) Reg.EXP_LOCAL_EXP 0 lane = _
    rw [rd_wr_of_lo_ne _ Reg.EXP_LOCAL_TAG Reg.EXP_LOCAL_EXP _ _ _ rfl rfl rfl (by decide), rd_wr_self]
    exact Nat.mod_eq_of_lt exp.isLt
  · exact (rd_wr_self _ Reg.EXP_LOCAL_TAG 0 _ lane).trans (Nat.mod_eq_of_lt tag.isLt)

/-! ### SEAL -/

theorem doSeal_own (s : State) (lane : Nat) :
    s.doSeal s.ownMod lane = (s.wr Reg.EXP_LOCAL_SEAL 0 1 lane).sealLane lane (s.rd Reg.EXP_LOCAL_TAG 0 lane) := by
  have kept : (s.wr Reg.EXP_LOCAL_SEAL 0 1 lane).rd Reg.EXP_LOCAL_TAG 0 lane = s.rd Reg.EXP_LOCAL_TAG 0 lane :=
    rd_wr_of_lo_ne _ _ _ _ _ _ rfl rfl rfl (by decide)
  simp only [State.doSeal, if_true, kept, show (s.wr Reg.EXP_LOCAL_SEAL 0 1 lane).ownMod = s.ownMod from rfl]

/-- The own seal of an open lane shows in its register and fixes what the modules have written. -/
theorem doSeal_own_of_open {s : State} {lane : Nat} (bound : s.laneVat lane ≠ none)
    {tag : Nat} (own : tag = s.rd Reg.EXP_LOCAL_TAG 0 lane) (unsealed : s.seal? lane tag = none) :
    (s.doSeal s.ownMod lane).seal? lane tag = some ⟨tag, s.laneExp lane tag, s.laneTagged lane tag, s.laneFull lane tag⟩ ∧
    (s.doSeal s.ownMod lane).regs = (s.wr Reg.EXP_LOCAL_SEAL 0 1 lane).regs := by
  have field : Reg.EXP_LOCAL_SEAL ∈ [Reg.EXP_LOCAL_EXP, Reg.EXP_LOCAL_TAG, Reg.EXP_LOCAL_SEAL] := by decide
  rw [doSeal_own, ← own]
  constructor
  · have bound : (s.wr Reg.EXP_LOCAL_SEAL 0 1 lane).laneVat lane ≠ none := by rwa [laneVat_wr_expLocal s field 1 lane]
    have unsealed : (s.wr Reg.EXP_LOCAL_SEAL 0 1 lane).seal? lane tag = none := unsealed
    rw [seal?_sealLane_of_open bound unsealed, laneExp_wr_expLocal s field 1 lane,
      laneTagged_wr_expLocal s field 1 lane, laneFull_wr_expLocal s field 1 lane]
  · obtain ⟨l, frame⟩ := sealLane_frame (s.wr Reg.EXP_LOCAL_SEAL 0 1 lane) lane tag
    rw [frame]

/-! ### The statement -/

/-- Settles O38: the write by its frame, the seal by `doSeal_own_of_open`, and EXP_GLOBAL by its case of a sealed lane. -/
theorem exponentLanes : Obligations.ExponentLanes := by
  intro s m lane own
  refine ⟨fun exp tag => ⟨_, rfl, ?write⟩, fun tag htag => ⟨fun bound unsealed => ⟨_, rfl, ?opens⟩, fun sealed => ?again⟩,
    fun e sealed => ?global⟩
  case write =>
    rw [own]
    obtain ⟨mem, regs, expMod⟩ := doExpLocal_own_frame (s := s) (lane := lane.toNat) (exp := exp.toNat) (tag := tag.toNat) rfl
    obtain ⟨expStored, tagStored⟩ := rd_expWritten s lane.toNat exp tag
    refine ⟨mem, (rd_of_regs regs ..).trans expStored, (rd_of_regs regs ..).trans tagStored, ?_, fun sealed => ?_⟩
    · rw [expMod]
      exact mget_mset_self 0 s.ren.expMod (lane.toNat * 64 + s.ownMod) (exp.toNat * 65536 + tag.toNat + 1)
    · rw [doExpLocal_own_of_sealed exp.toNat sealed]
      rfl
  case opens =>
    rw [own]
    exact doSeal_own_of_open bound htag unsealed
  case again =>
    show Host.Outcome.next (s.doSeal m.toNat lane.toNat) = _
    rw [own, doSeal_own, ← htag]
    exact congrArg Host.Outcome.next (sealLane_of_sealed sealed)
  case global => simp only [State.expGlobal, sealed, tag_of_seal? sealed]

end Sys2Proof.Machine
end

section
/-! PROOFS. Classes Y and E (10.1, R278 to R280, R360, R361): an instruction at a level with a vat, the waits, the claim and the
ledger, and the barrier's event. -/

namespace Sys2Proof.Machine

/-! ### Instructions at a level (R141) -/

section
variable {s : State} {c : Clu} {f : FmtI} (fetch : Fetches s (cluKey c)) {v : Nat}
  (level : (fetched s (cluKey c)).vatAtLevel (cluKey c) (f.imm.toNat / 2 ^ 40) = some v)
include fetch level

/-- With a vat at its level a legal instruction carries out its body on that vat. -/
theorem levelled_of_vat {legal : Bool} (fields : legal = true) (body : Nat → SCore → State → State) :
    s.levelled c f legal body = body v (s.sc (cluKey c)) (fetched s (cluKey c)) := by
  rw [State.levelled, scalar_go s _ _ _ fetch fields, imLevel, level]

/-- Y.SET and Y.CLR of an S-core without open accesses (R278). -/
theorem yFlag_of_no_accs (rd : f.rd = 0) (done : (s.sc (cluKey c)).accs = []) (set : Bool) :
    s.yFlag c f set = ((fetched s (cluKey c)).setFlags (cluKey c) v ((s.sc (cluKey c)).getX f.rs1.toNat) set).retire (cluKey c)
      (s.sc (cluKey c)) := by
  rw [State.yFlag, levelled_of_vat fetch level (beq_iff_eq.2 rd)]
  simp only [State.waitHolds, fetched_sc, done, List.isEmpty_nil, if_true]

/-- Y.RD reads the OR or the AND reduction (R279). -/
theorem exec_yRd_of_vat (rs1 : f.rs1 = 0) (timeout : f.imm.toNat % 2 ^ 40 < 2) :
    exec (.yRd c f) s = .next ((fetched s (cluKey c)).retire (cluKey c) ((s.sc (cluKey c)).setX f.rd.toNat
      (if f.imm.toNat % 2 ^ 40 = 1 then (fetched s (cluKey c)).andFlags v else (fetched s (cluKey c)).orFlags v))) := by
  have legal : (f.rs1 == 0 && decide (imTimeout f.imm < 2)) = true := by rw [rs1, imTimeout, decide_eq_true timeout]; rfl
  exact congrArg Host.Outcome.next (levelled_of_vat fetch level legal _)

/-- Y.WAITOR and Y.WAITAND complete where their condition holds and wait where it does not. -/
theorem next_yWait_of_vat (rd : f.rd = 0) {w : Nat → Word → SWait} {p : Prop} [Decidable p]
    (holds : (fetched s (cluKey c)).waitHolds (cluKey c) (w v ((s.sc (cluKey c)).getX f.rs1.toNat)) = true ↔ p) :
    Host.Outcome.next (φ := Fault) (ρ := Refusal) (s.yWait c f w) =
      if p then .next ((fetched s (cluKey c)).retire (cluKey c) (s.sc (cluKey c)))
      else .next ((fetched s (cluKey c)).waitFor (cluKey c) (s.sc (cluKey c)) (w v ((s.sc (cluKey c)).getX f.rs1.toNat)) f.imm) := by
  rw [State.yWait, levelled_of_vat fetch level (beq_iff_eq.2 rd)]
  by_cases hp : p <;> simp only [holds, hp, if_true, if_false]

/-- Y.BAR joins the vat's open barrier and waits for it (R280). -/
theorem exec_yBar_of_open (rd : f.rd = 0) (rs1 : f.rs1 = 0) {t : State} {gen : Nat}
    (joins : (fetched s (cluKey c)).arrive (cluKey c) v false = (t, gen)) (isOpen : gen = mget 0 t.ren.bars v) :
    exec (.yBar c f) s = .next (t.waitFor (cluKey c) (s.sc (cluKey c)) (.barrier v gen) f.imm) := by
  have legal : (f.rd == 0 && f.rs1 == 0) = true := by simp [rd, rs1]
  refine congrArg Host.Outcome.next ?_
  rw [levelled_of_vat fetch level legal]
  simp [joins, State.waitHolds, isOpen]

/-- E.STEP of a vat with a claim joins the vat's open step and waits for its end (R361). -/
theorem exec_eStep_of_open (rs1 : f.rs1 = 0) (claims : (fetched s (cluKey c)).rd Reg.LG_VAT_CLAIM 0 v ≠ 0) {t : State} {gen : Nat}
    (joins : (fetched s (cluKey c)).arrive (cluKey c) v true = (t, gen)) (isOpen : gen = mget 0 t.ren.stepGen v) :
    exec (.eStep c f) s = .next (t.waitFor (cluKey c) (s.sc (cluKey c)) (.step v gen f.rd.toNat) f.imm) := by
  refine congrArg Host.Outcome.next ?_
  rw [levelled_of_vat fetch level (beq_iff_eq.2 rs1)]
  simp [claims, joins, State.waitHolds, isOpen]

end

/-! ### The ledger (R360) -/

section
variable {s : State} {c : Clu} {f : FmtI} (fetch : Fetches s (cluKey c))
include fetch

/-- E.CLAIM of a top-level vat within the budget. -/
theorem exec_eClaim_of_covered (rd : f.rd = 0) (imm : f.imm = 0) {n v : Nat} (hn : n = ((s.sc (cluKey c)).getX f.rs1.toNat).toNat)
    (hv : v = (fetched s (cluKey c)).vatIdOf (cluKey c)) (some : n ≠ 0) (small : n < 2 ^ 32)
    (covered : n * 1000 ≤ (fetched s (cluKey c)).pwr.budget)
    (top : (((fetched s (cluKey c)).vat? v).map Vat.parent).getD 0 = 0) :
    exec (.eClaim c f) s = .next (((fetched s (cluKey c)).wr Reg.LG_VAT_CLAIM 0 n v).retire (cluKey c) (s.sc (cluKey c))) := by
  have legal : (f.rd == 0 && f.imm == 0) = true := by simp [rd, imm]
  refine congrArg Host.Outcome.next ?_
  rw [scalar_go s _ _ _ fetch legal]
  simp only [← hn, ← hv, top, some, Nat.not_le.2 small, Nat.not_lt.2 covered, ne_eq, not_true, false_and, or_self, if_false]

/-- E.RD by its number. -/
theorem exec_eRd_of_legal (rs1 : f.rs1 = 0) (legal : f.imm.toNat ≤ 3) {t : State} (ht : t = fetched s (cluKey c)) {v : Nat}
    (hv : v = t.vatIdOf (cluKey c)) :
    exec (.eRd c f) s = .next (t.retire (cluKey c) ((s.sc (cluKey c)).setX f.rd.toNat
      (if f.imm = 0 then w64 (t.rd Reg.LG_VAT_CLAIM 0 v) else if f.imm = 1 then w64 (t.rd Reg.LG_VAT_STEP_ENERGY 0 v)
       else if f.imm = 2 then w64 (t.rd Reg.LG_VAT_STEP 0 v) else BitVec.ofInt 64 t.left))) := by
  subst ht hv
  have fields : (f.rs1 == 0 && decide (f.imm.toNat ≤ 3)) = true := by simp [rs1, legal]
  refine congrArg Host.Outcome.next ((scalar_go s _ _ _ fetch fields).trans ?_)
  have number : f.imm = 0 ∨ f.imm = 1 ∨ f.imm = 2 ∨ f.imm = 3 := by
    simp only [← BitVec.toNat_inj]
    simp
    omega
  rcases number with h | h | h | h <;> rw [h] <;> rfl

end

/-! ### The barrier's event (R280) -/

/-- When all have arrived at the barrier and not at the step, the barrier passes and the step stays open. -/
theorem barrierDone_of_barrier {s : State} {id : Nat} {v : Vat} (led : s.led? id = some v) (live : v.run ≠ .held)
    (bar : s.allArrived id false = true) (step : s.allArrived id true = false) (after : (s.passBarrier id).allArrived id true = false) :
    s.barrierDone id = s.passBarrier id := by
  simp [State.barrierDone, State.doBarrier, led, live, bar, step, after]

/-! ### The statement -/

/-- Settles O17: each instruction carries out its body at the vat that its level selects. -/
theorem flagsAndSteps : Obligations.FlagsAndSteps := by
  refine ⟨fun c f s v fetch => ?level, fun c f s fetch => ?ledger, fun s v x led live bar step after => ?event⟩
  case level =>
    intro k sc t x level n wait
    refine ⟨fun rd done => ⟨?set, ?clr⟩, fun rs1 legal => exec_yRd_of_vat fetch level rs1 legal, fun rd => ⟨?waitor, ?waitand⟩,
      fun rd rs1 isOpen => exec_yBar_of_open fetch level rd rs1 rfl isOpen,
      fun rs1 claims isOpen => exec_eStep_of_open fetch level rs1 claims rfl isOpen⟩
    case set => exact congrArg Host.Outcome.next (yFlag_of_no_accs fetch level rd done true)
    case clr => exact congrArg Host.Outcome.next (yFlag_of_no_accs fetch level rd done false)
    case waitor => exact next_yWait_of_vat fetch level rd bne_iff_ne
    case waitand => exact next_yWait_of_vat fetch level rd beq_iff_eq
  case ledger =>
    intro k sc t v n
    exact ⟨fun rd imm some small covered top => exec_eClaim_of_covered fetch rd imm rfl rfl some small covered top,
      fun rs1 legal => exec_eRd_of_legal fetch rs1 legal rfl rfl⟩
  case event => exact congrArg Host.Outcome.next (barrierDone_of_barrier led live bar step after)

end Sys2Proof.Machine
end

section
/-! PROOFS. The commands of vats and their services (16.5, Table 16.8, 0x20 to 0x29): how a command of a live vat runs, what each
operation answers, and the rounds of the step loop and of serving. -/

namespace Sys2Proof.Machine

/-! ### How a vat's command runs (R467, R469) -/

section
variable {s : State} {id op : Nat} {c : HCmd} (start : CanStart s id op c) {v : Vat}
  (live : (startedCmd s id).vat? ((startedCmd s id).queueVat c.fn c.q) = some v)
  {f : HCmd → Vat → State → State × Option (Nat × Nat)}
include start live

theorem runVatCmd_ends {u : State} {st r : Nat} (hf : f c v (startedCmd s id) = (u, some (st, r))) :
    s.runVatCmd id op f = u.endCmd c st r := by
  refine runCmd_ends start _ ?_
  simp only [live, hf]

theorem runVatCmd_waits {u : State} (hf : f c v (startedCmd s id) = (u, none)) : s.runVatCmd id op f = u := by
  refine runCmd_waits start _ ?_
  simp only [live, hf]

section
variable {p : Prop} [Decidable p] {e w : State} {st : Nat}

/-- A command that ends in any case, with an error where `p` holds. -/
theorem runVatCmd_fails_or_ends {st' r : Nat}
    (hf : f c v (startedCmd s id) = if p then (e, some (st, 0)) else (w, some (st', r))) :
    s.runVatCmd id op f = if p then e.endCmd c st 0 else w.endCmd c st' r := by
  split at hf
  · rw [runVatCmd_ends start live hf, if_pos ‹p›]
  · rw [runVatCmd_ends start live hf, if_neg ‹¬p›]

/-- A command that goes on unless it ends with an error. -/
theorem runVatCmd_fails_or_waits (hf : f c v (startedCmd s id) = if p then (e, some (st, 0)) else (w, none)) :
    s.runVatCmd id op f = if p then e.endCmd c st 0 else w := by
  split at hf
  · rw [runVatCmd_ends start live hf, if_pos ‹p›]
  · rw [runVatCmd_waits start live hf, if_neg ‹¬p›]

end

end

/-! ### COPY and LOAD_DATA (R471, R478) -/

section
variable {s : State} {id a w d len : Nat} {l : MLoc} (hlen : len = d % 2 ^ 32) (whole : len % 8 = 0)
include hlen whole

/-- COPY in: the bytes of host memory go to the place named. -/
theorem hostCopy_in (dir : bitOf d 63 = false) (loc : s.vatLoc id w len true = (0, l)) :
    s.hostCopy id a w d = if s.hostBad a len then (s, some (stIoError, 0))
      else (s.mvWrite l (s.ldBytes (hostKey a) len), some (stOk, len)) := by
  subst hlen
  simp [-Nat.reducePow, State.hostCopy, dir, loc, whole, fails]

/-- COPY out: what the place holds goes to host memory. -/
theorem hostCopy_out (dir : bitOf d 63 = true) (loc : s.vatLoc id w len false = (0, l)) (up : s.host.up = true) {u : State}
    {bs : List Byte} (read : s.mvRead l len = (u, bs, 0)) :
    s.hostCopy id a w d = (u.hostWrite a bs, some (stOk, len)) := by
  subst hlen
  simp [-Nat.reducePow, State.hostCopy, dir, loc, whole, up, read]

end

/-- LOAD_DATA with a good list: every region is written, then flag 62 is set. -/
theorem loadData_of_list {s : State} {id a n : Nat} {l : List Region} (list : s.regionList id a n true true = (0, l)) :
    s.loadData id a n = if s.hostBad a (32 * n) || l.any (fun r => s.targetBad r.target r.src r.len) then (s, some (stIoError, 0))
      else ((s.each l fun s r => (s.targetRead r.target r.src r.len).1.mvWrite r.loc (s.targetRead r.target r.src r.len).2).svcSet id
        (flagBit 62), some (stOk, (l.map Region.len).sum)) := by
  cases hb : s.hostBad a (32 * n) <;> simp [State.loadData, hb, list, fails]

/-! ### START, PAUSE, RESUME (R447, R470) -/

/-- The only vat, top-level, is its own subtree. -/
theorem subtree_of_only {s : State} {v : Vat} (only : s.vats = [v]) (top : v.parent = 0) : s.subtree v.id = [v.id] := by
  have chain : s.chain v.id = [v.id] := by simp [State.chain, vatChain, only, top]
  simp [State.subtree, only, chain]

/-- A loop that leaves the vats as they are. -/
theorem each_vats {α : Type} {f : State → α → State} (step : ∀ s x, (f s x).vats = s.vats) (l : List α) (s : State) :
    (s.each l f).vats = s.vats :=
  each_keeps (fun t => t.vats = s.vats) _ (fun t x h => (step t x).trans h) l s rfl

theorem setInjectors_vats (s : State) (cks : List Nat) (v : Nat) (frame : Bool) : (s.setInjectors cks v frame).vats = s.vats :=
  each_vats (f := fun s ck => s.wr Reg.DI_STATUS_STOPPED ck v) (fun _ _ => rfl) cks s

/-- An S-core that waits for START enters the vat's program, at vat privilege. -/
def State.enterProgram (off : Nat) (s : State) (ck : Nat) : State :=
  if (s.sc ck).wait = some .start then s.setSc ck { s.sc ck with wait := none, pc := w64 off, priv := false } else s

theorem enterProgram_vats (off : Nat) (s : State) (ck : Nat) : (s.enterProgram off ck).vats = s.vats := by
  unfold State.enterProgram
  split <;> rfl

section
variable {s : State} {v : Vat} {off : Nat} (aligned : off % 8 = 0) (only : s.vats = [v]) (stopped : v.run = .stopped)
  (alive : v.killing = none) (top : v.parent = 0) (confirmed : s.vatConfirmed v.id = true)
include aligned only stopped alive top confirmed

/-- START lets the module's only vat run, if it is stopped and its cores are confirmed. -/
theorem startVat_of_stopped : ∃ cks, s.startVat v.id off =
    ((((s.setVat { v with run := .running }).each cks (State.enterProgram off)).setInjectors cks 0 true).retime, some (stOk, 0)) := by
  have found : s.vat? v.id = some v := by simp [State.vat?, only]
  have fresh : ((s.subtree v.id).filter fun i => (s.vat? i).any fun v => v.run == .stopped && v.killing.isNone) = [v.id] := by
    simp [subtree_of_only only top, found, stopped, alive]
  refine ⟨(((s.setVat { v with run := .running }).vatClus v.id)).dedup, ?_⟩
  simp only [State.startVat, fresh, aligned, confirmed]
  simp only [State.each, List.foldl_cons, List.foldl_nil, found, List.flatMap_cons, List.flatMap_nil, List.append_nil]
  rfl

theorem startVat_vats : (s.startVat v.id off).1.vats = [{ v with run := .running }] := by
  obtain ⟨cks, starts⟩ := startVat_of_stopped aligned only stopped alive top confirmed
  have runs : (s.setVat { v with run := .running }).vats = [{ v with run := .running }] := by simp [State.setVat, only]
  rw [starts]
  exact (setInjectors_vats _ cks 0 true).trans ((each_vats (enterProgram_vats off) cks _).trans runs)

end

/-- RESUME of a vat that no site-map change has paused (R483). -/
theorem hostResume_of_paused {s : State} {v : Vat} (paused : v.run = .paused) (own : v.svcPaused = false)
    (confirmed : s.vatConfirmed v.id = true) : s.hostResume v = (s.runVat v.id, some (stOk, 0)) := by
  simp [State.hostResume, paused, own, confirmed]

theorem hostPause_of_running {s : State} {v : Vat} (running : v.run = .running) :
    s.hostPause v = (s.pauseVat v.id .servicePause false, some (stOk, 0)) := by
  simp [State.hostPause, running]

/-! ### CHECKPOINT and RESTORE (R471, R480) -/

/-- A checkpoint asked for while a step is open waits for the step's end. -/
theorem checkpoint_of_open {s : State} {c : HCmd} {v : Vat} (running : v.run = .running) (isOpen : v.stepOpen = true) :
    s.checkpoint c v = ({ s with svc := { s.svc with ckptWait := s.svc.ckptWait ++ [c.id] } }, none) := by
  simp [State.checkpoint, running, isOpen]

theorem checkpoint_of_closed {s u : State} {c : HCmd} {v : Vat} (closed : v.stepOpen = false) {r : Nat × Nat}
    (takes : s.takeCkpt v.id (c.opd 1) (c.opd 2) (c.opd 3) (c.opd 4) = (u, r)) : s.checkpoint c v = (u, some r) := by
  simp [State.checkpoint, closed, takes]

/-- An image whose header matches goes to the vat's regions and its sinks' records in order; 64 bytes of it are the header. -/
theorem restore_of_match {s u : State} {v : Vat} {a n target src : Nat} {img : List Byte} {rs : List Region} {l : List (MLoc × Nat)}
    (rest : v.run = .stopped ∨ v.run = .paused) (idle : (s.svc.steps.any fun r => r.vat == v.id) = false)
    (good : s.targetOk target = true) (list : s.regionList v.id a n true false = (0, rs))
    (hl : l = (rs.map fun x => (x.loc, x.len)) ++ (s.vatRecs v.id).map fun e => (MLoc.scr e.1 e.2, 64))
    (read : s.targetRead target src (64 + (l.map Prod.snd).sum) = (u, img)) (version : ldList img 0 8 = 1)
    (vat : ldList img 8 8 = v.id) (count : ldList img 24 8 = n) (bytes : ldList img 32 8 = (l.map Prod.snd).sum)
    (crc : ldList img 40 8 = crc32c (ofBytes (img.drop 64))) :
    s.restore v a n target src =
      if s.hostBad a (32 * n) || s.targetBad target src (64 + (l.map Prod.snd).sum) then (s, some (stIoError, 0))
      else ((l.foldl (fun (r : State × List Byte) x => (r.1.mvWrite x.1 (r.2.take x.2), r.2.drop x.2)) (u, img.drop 64)).1,
        some (stOk, 64 + (l.map Prod.snd).sum)) := by
  have free : ¬((v.run ≠ .stopped ∧ v.run ≠ .paused) ∨ (s.svc.steps.any fun r => r.vat == v.id) = true) := by
    rw [idle]
    tauto
  simp only [State.restore, if_neg free, good, list, ← hl, read]
  cases hb : s.hostBad a (32 * n) <;> cases ht : s.targetBad target src (64 + (l.map Prod.snd).sum) <;>
    simp [fails, version, vat, count, bytes, crc]

/-! ### RUN_STEPS (R483) -/

/-- A good descriptor of a vat without a run enters one. -/
theorem runSteps_of_good {s : State} {c : HCmd} {v : Vat} {a : Nat} {d : List Nat} (hd : d = s.hostWords (c.opd 2) 8)
    (idle : (s.svc.steps.any fun r => r.vat == v.id) = false) (runs : v.run = .running ∨ v.run = .paused) (some : c.opd 1 ≠ 0)
    (h0 : d.getD 0 0 < 2 ^ 16) (h1 : d.getD 1 0 < 2 ^ 56) (h2 : d.getD 2 0 < 2 ^ 24) (h3 : d.getD 3 0 < 2 ^ 32)
    (table : s.vatLoc v.id (d.getD 1 0 % 2 ^ 56 + s.ownMod * 2 ^ 56) (16 * max 1 (d.getD 0 0)) false = (0, .t1 a)) :
    s.runSteps c v = if s.hostBad (c.opd 2) 64 then (s, .some (stIoError, 0))
      else ({ s with svc := { s.svc with steps := s.svc.steps ++ [⟨v.id, c.id, c.opd 1, 0, 0, d.map w64, false, false, 0, 0, 0, 0⟩] } },
        none) := by
  have notStopped : v.run ≠ .stopped := by rcases runs with h | h <;> simp [h]
  have notHeld : v.run ≠ .held := by rcases runs with h | h <;> simp [h]
  -- The table's place is known before the branches on it are compared: the kernel would multiply its address out.
  have body : State.runSteps = State.runSteps := rfl
  conv at body => rhs; delta State.runSteps
  rw [body]
  simp -iota only [← hd, table]
  simp only [idle, notStopped, notHeld, some, Nat.not_le.2 h0, Nat.not_le.2 h1, Nat.not_le.2 h2,
    Nat.not_le.2 h3, fails]
  simp

/-! ### SERVE and SEQ_RELEASE (R481) -/

/-- A good request of a sequence that is not yet known waits for a round. -/
theorem serve_of_new {s : State} {c : HCmd} {v : Vat} {w0 w1 w2 w3 w4 : Nat} (live : v.run ≠ .held) (batch : s.batchAt v.id ≠ none)
    (words : s.hostWords (c.opd 1) 8 = [w0, w1, w2, w3, w4, 0, 0, 0]) (new : s.seq? v.id (bitsOf w0 31 0) = none)
    (h0 : w0 < 2 ^ 56) (h2 : w2 < 2 ^ 24) (some : w2 ≠ 0) (h4 : w4 < 2 ^ 32) (prompt : bitsOf w0 55 32 ≠ 0)
    (fits : bitsOf w0 55 32 + w2 ≤ 16777216) :
    s.serve c v = if s.hostBad (c.opd 1) 64 || s.hostBad w1 (4 * bitsOf w0 55 32) then (s, .some (stIoError, 0))
      else ({ s with svc := { s.svc with reqs := s.svc.reqs ++
        [⟨v.id, c.id, w0 % 2 ^ 32, s.ldBytes (hostKey w1) (4 * bitsOf w0 55 32), w2, w64 w3, w4, 0, none, true⟩] } }, none) := by
  have seq : s.seq? v.id (w0 % 2 ^ 32) = none := by simpa [bitsOf] using new
  simp only [State.serve, words, List.getD_cons_zero, List.getD_cons_succ, seq, if_neg live, Nat.not_le.2 h0, Nat.not_le.2 h2,
    Nat.not_le.2 h4, prompt, some, fails, batch]
  simp [Nat.not_lt.2 fits]

/-- With no request waiting a known sequence is freed. -/
theorem seqRelease_of_idle {s : State} {id seq : Nat} {x : SeqState} (idle : s.svc.reqs = []) (known : s.seq? id seq = some x) :
    s.seqRelease id seq = ({ s with svc := { s.svc with seqs := s.svc.seqs.filter fun y => !(y.vat == id && y.seqId == seq) } },
      some (stOk, x.pages)) := by
  simp [State.seqRelease, idle, known]

/-! ### BATCH_ROUND (R482) -/

/-- Between rounds a running vat's waiting requests are taken and the next round starts. -/
theorem batchRound_of_even {s : State} {id base size n : Nat} {v : Vat} (found : s.vat? id = some v) (running : v.run = .running)
    (batch : s.batchAt id = some (base, size)) (rounds : mget 0 s.svc.rounds id = 2 * n) :
    s.batchRound id = (s.admitReqs id).startRound id base size n := by
  simp [State.batchRound, found, running, batch, rounds]

/-! ### STEP_LOOP_STEP (R294 to R297, R302, R479) -/

/-- In EXACT mode an exchange with shards waits for their exponents: is it through, and the state in which it goes on? -/
def State.awaitExps (s : State) (r : StepRun) (step mode : Nat) (l : List Shard) (lanes : List Nat) : State × Bool :=
  if r.phase = 1 ∧ mode = 1 ∧ l ≠ [] then s.sealExps r step lanes else (s, true)

/-- What the step loop's cluster sends of a step's shards now, and how many go. -/
def State.sendShards (s : State) (r : StepRun) (id step mode : Nat) (lanes : List Nat) (l : List Shard) : State × Nat :=
  match s.loopClu with
  | some ck => s.contributeAll ck id step mode lanes (l.drop r.sent)
  | none => (s, 0)

/-- The end of a command that has sent shards: the step waits while a shard has not gone out or has no record, else the means are
formed and flag 63 is set. -/
def State.endExchange (s : State) (r : StepRun) (id step : Nat) (l : List Shard) : State :=
  if r.sent < l.length ∨ l.any (s.shardOpen id step) then s.setStepRun r
  else ((s.each l fun s x => s.takeShard id step x).setStepRun { r with
    phase := 0, sent := 0, svcCalled := false, reduced := true, incomplete := r.incomplete + b2n (s.stepIncomplete id step) }).svcSet id
    (flagBit 63)

/-- With every shard out nothing more is sent. -/
theorem sendShards_of_all_sent {s : State} {r : StepRun} {l : List Shard} (sent : l.length ≤ r.sent) (id step mode : Nat)
    (lanes : List Nat) : s.sendShards r id step mode lanes l = (s, 0) := by
  unfold State.sendShards
  rw [List.drop_eq_nil_of_le sent]
  split <;> rfl

/-- The last shard goes out by itself. -/
theorem sendShards_of_last {s w : State} {r : StepRun} {l : List Shard} {x : Shard} {ck id step mode : Nat} {lanes : List Nat}
    (clu : s.loopClu = some ck) (last : l.drop r.sent = [x]) (sends : s.contribute ck id step mode lanes x = some w) :
    s.sendShards r id step mode lanes l = (w, 1) := by
  simp only [State.sendShards, clu, last, State.contributeAll, sends]

theorem endExchange_of_open {s : State} {r : StepRun} {id step : Nat} {l : List Shard} (waits : l.any (s.shardOpen id step) = true) :
    s.endExchange r id step l = s.setStepRun r :=
  if_pos (Or.inr waits)

theorem endExchange_of_done {s : State} {r : StepRun} {id step : Nat} {l : List Shard} (sent : l.length ≤ r.sent)
    (done : l.any (s.shardOpen id step) = false) :
    s.endExchange r id step l = ((s.each l fun s x => s.takeShard id step x).setStepRun { r with
      phase := 0, sent := 0, svcCalled := false, reduced := true, incomplete := r.incomplete + b2n (s.stepIncomplete id step) }).svcSet id
      (flagBit 63) :=
  if_neg (by simp [done, sent])

section
variable {s : State} {id : Nat} {v : Vat} {r : StepRun} (found : s.vat? id = some v)
  (runs : (s.svc.steps.find? fun r => r.vat == id) = some r)
include found runs

/-- Until C.SVC has come, and once the means are formed, there is nothing to do. -/
theorem doStepLoop_of_idle (idle : r.svcCalled = false ∨ r.reduced = true) : s.doStepLoop id = s := by
  rcases idle with h | h <;> simp [State.doStepLoop, found, runs, h]

section
variable (running : v.run = .running) (called : r.svcCalled = true) (more : r.reduced = false)
  {q : State} {l : List Shard} {step mode : Nat} (shards : s.shards r v = (q, l))
  (hstep : s.rd Reg.LG_VAT_STEP 0 id = step) (hmode : s.chMode 0 id = mode)
include running called more shards hstep hmode

/-- The exchange in its parts: it is opened, waits for its exponents, sends its shards, and ends. -/
theorem doStepLoop_of_called {t : State} {r' : StepRun} (opened : (if r.phase = 0 then q.openExchange r v step mode l else q) = t)
    (noted : (if r.phase = 0 then { r with phase := 1, since := t.now, sent := 0 } else r) = r') {u w : State} {go : Bool} {n : Nat}
    (awaits : t.awaitExps r' step mode l (t.lanesOf id) = (u, go)) (sends : u.sendShards r' id step mode (t.lanesOf id) l = (w, n)) :
    s.doStepLoop id = if go then w.endExchange { r' with phase := 2, sent := r'.sent + n } id step l else u := by
  have body : State.doStepLoop = State.doStepLoop := rfl
  conv at body => rhs; delta State.doStepLoop
  rw [body]
  clear body
  beta_reduce
  split
  case h_1 r₀ v₀ hr hv =>
    obtain rfl : r₀ = r := Option.some.inj (hr.symm.trans runs)
    obtain rfl : v₀ = v := Option.some.inj (hv.symm.trans found)
    rw [if_neg (by simp [called, more, running])]
    -- The shards are known before the branches on them are compared: the kernel would multiply their table's address out.
    simp -iota only [shards, hstep, hmode]
    rw [State.awaitExps] at awaits
    simp only [opened, noted, awaits]
    cases go with
    | false => rfl
    | true =>
      cases clu : u.loopClu with
      | some ck =>
        simp only [State.sendShards, clu] at sends
        simp only [sends, State.endExchange]
        rfl
      | none =>
        simp only [State.sendShards, clu, Prod.mk.injEq] at sends
        obtain ⟨rfl, rfl⟩ := sends
        rfl
  case h_2 none => exact (none r v runs found).elim

/-- A step without shards ends in the command that opens it. -/
theorem doStepLoop_of_no_shards (phase : r.phase = 0) (none : l = []) {e : State} (opens : q.openExchange r v step mode [] = e) :
    s.doStepLoop id = (e.setStepRun { r with
      phase := 0, since := e.now, sent := 0, svcCalled := false, reduced := true,
      incomplete := r.incomplete + b2n (e.stepIncomplete id step) }).svcSet id (flagBit 63) := by
  subst none
  rw [doStepLoop_of_called found runs running called more shards hstep hmode ((if_pos phase).trans opens) (if_pos phase)
    (if_neg (by simp)) (sendShards_of_all_sent (by simp) id step mode _), if_pos rfl, endExchange_of_done (by simp) rfl]
  rfl

/-- Exponents that are not final keep the exchange waiting (Table 10.6). -/
theorem doStepLoop_of_unsealed (phase : r.phase = 1) (exact : mode = 1) (some : l ≠ []) {w : State}
    (unsealed : q.sealExps r step (q.lanesOf id) = (w, false)) : s.doStepLoop id = w := by
  have later : ¬ r.phase = 0 := by simp [phase]
  exact doStepLoop_of_called found runs running called more shards hstep hmode (if_neg later) (if_neg later)
    ((if_pos ⟨phase, exact, some⟩).trans unsealed) rfl

/-- Once the exponents are final the exchange sends what it can. -/
theorem doStepLoop_of_sending (phase : r.phase = 2) {w : State} {n : Nat}
    (sends : q.sendShards r id step mode (q.lanesOf id) l = (w, n)) :
    s.doStepLoop id = w.endExchange { r with sent := r.sent + n } id step l := by
  have later : ¬ r.phase = 0 := by simp [phase]
  have same : ({ r with phase := 2, sent := r.sent + n } : StepRun) = { r with sent := r.sent + n } := by rw [← phase]
  rw [doStepLoop_of_called found runs running called more shards hstep hmode (if_neg later) (if_neg later)
    (if_neg (by simp [phase])) sends, if_pos rfl, same]

end

end
/-! ### The statement -/

/-- Settles O51: each command runs by `runVatCmd` with its operation's lemma, a step of the step loop by `doStepLoop_of_called`. -/
theorem vatCommands : Obligations.VatCommands := by
  intro s id c v t
  refine ⟨fun live => ⟨fun start l len hlen whole => ⟨fun dir loc => ?copyIn, fun dir loc up u bs read => ?copyOut⟩,
    fun start aligned only stopped alive top confirmed => ⟨?start, ?started⟩, fun start running => ?pause,
    fun start paused own confirmed => ?resume, fun start l list => ?load,
    fun start => ⟨fun running isOpen => ?ckptWaits, fun closed u st n takes => ?ckpt⟩,
    fun start rest idle good rs l u img list hl read version vat count bytes crc => ?restore,
    fun start idle runs some d a hd h0 h1 h2 h3 table => ?runSteps, ?serve, fun start idle x known => ?seqRelease⟩,
    fun vat found running => ⟨fun r runs step hstep => ⟨fun idle => ?idle, fun called more q l shards => ?exchange⟩,
      fun base size n batch rounds => ?batch⟩⟩
  case copyIn =>
    exact congrArg Host.Outcome.next (runVatCmd_fails_or_ends start live (hostCopy_in hlen whole dir loc))
  case copyOut => exact congrArg Host.Outcome.next (runVatCmd_ends start live (hostCopy_out hlen whole dir loc up read))
  case start =>
    obtain ⟨cks, starts⟩ := startVat_of_stopped aligned only stopped alive top confirmed
    rw [starts]
    exact congrArg Host.Outcome.next (runVatCmd_ends start live starts)
  case started => simp [State.vat?, startVat_vats aligned only stopped alive top confirmed]
  case pause => exact congrArg Host.Outcome.next (runVatCmd_ends start live (hostPause_of_running running))
  case resume => exact congrArg Host.Outcome.next (runVatCmd_ends start live (hostResume_of_paused paused own confirmed))
  case load =>
    exact congrArg Host.Outcome.next (runVatCmd_fails_or_ends start live (loadData_of_list list))
  case ckptWaits => exact congrArg Host.Outcome.next (runVatCmd_waits start live (checkpoint_of_open running isOpen))
  case ckpt => exact congrArg Host.Outcome.next (runVatCmd_ends start live (checkpoint_of_closed closed takes))
  case restore =>
    exact congrArg Host.Outcome.next (runVatCmd_fails_or_ends start live
      (restore_of_match rest idle good list hl read version vat count bytes crc))
  case runSteps =>
    exact congrArg Host.Outcome.next (runVatCmd_fails_or_waits start live
      (runSteps_of_good (s := t) hd idle runs some h0 h1 h2 h3 table))
  case serve =>
    rintro start alive batch new w0 w1 w2 w3 w4 words h0 h2 some h4 prompt fits r rfl
    rw [words] at new
    exact congrArg Host.Outcome.next (runVatCmd_fails_or_waits start live
      (serve_of_new alive batch words new h0 h2 some h4 prompt fits))
  case seqRelease => exact congrArg Host.Outcome.next (runVatCmd_ends start live (seqRelease_of_idle idle known))
  case idle => exact congrArg (fun t : State => Host.Outcome.next t.pumpAll) (doStepLoop_of_idle found runs idle)
  case exchange =>
    have loop := @doStepLoop_of_sending s vat.toNat v r found runs running called more q l step _ shards hstep.symm rfl
    refine ⟨fun phase none e opens => ?noShards, fun phase exact some w unsealed => ?unsealed, fun phase => ⟨fun ck x w clu last sends waits => ?last,
      fun sent => ⟨fun waits => ?waits, fun done e means => ?done⟩⟩⟩
    case noShards =>
      exact congrArg (fun t : State => Host.Outcome.next t.pumpAll)
        (doStepLoop_of_no_shards found runs running called more shards hstep.symm rfl phase none opens.symm)
    case unsealed =>
      exact congrArg (fun t : State => Host.Outcome.next t.pumpAll)
        (doStepLoop_of_unsealed found runs running called more shards hstep.symm exact phase rfl some unsealed)
    case last =>
      exact congrArg (fun t : State => Host.Outcome.next t.pumpAll)
        ((loop phase (sendShards_of_last clu last sends)).trans (endExchange_of_open waits))
    case waits =>
      exact congrArg (fun t : State => Host.Outcome.next t.pumpAll)
        ((loop phase (sendShards_of_all_sent sent.le ..)).trans (endExchange_of_open waits))
    case done =>
      rw [means]
      exact congrArg (fun t : State => Host.Outcome.next t.pumpAll)
        ((loop phase (sendShards_of_all_sent sent.le ..)).trans (endExchange_of_done sent.le done))
  case batch => exact congrArg Host.Outcome.next (batchRound_of_even found running batch rounds)

end Sys2Proof.Machine
end

section
/-! PROOFS. Churn (10.2, 10.6, R282 to R305): the first partial at a node, its hold, the windows of a node, a packet at its sink, and the
set-up of vats and nodes. -/

namespace Sys2Proof.Machine

/-! ### What the way of a packet leaves of the registers -/

/-- A write leaves every field that begins at another bit of its word. -/
theorem rd_wr_of_bit_ne (s : State) (f g : Fld) (i v k j m : Nat) (hf : f.lo < 64) (hg : g.lo < 64) (ne : f.lo ≠ g.lo) :
    (s.wr f i v k).rd g j m = s.rd g j m := by
  apply rd_wr_ne
  simp only [fkey]
  omega

/-- What a base die sends enters the plane or waits before it. -/
theorem reply_of_base (s : State) (p : Pkt) (t op cause : Nat) (bs : List Byte) :
    ∃ f, s.reply p t none op cause bs = { s with fab := f } := by
  unfold State.reply State.sendBy
  dsimp only
  split
  · exact ⟨_, rfl⟩
  · exact ⟨_, rfl⟩

section
variable {g : Fld} (inWord : g.lo < 64) (notWait : g.lo ≠ 32)
include inWord notWait

/-- The end of a wait is counted in WAIT_CYCLES, at bit 32. -/
theorem rd_settleWait (s : State) (t port j m : Nat) : (s.settleWait t port).rd g j m = s.rd g j m := by
  unfold State.settleWait
  dsimp only
  split
  · rfl
  · exact rd_wr_of_bit_ne _ Reg.PORT_WAIT_CYCLES g _ _ _ _ _ (by decide) inWord notWait.symm

theorem rd_dropPkt (s : State) (pid j m : Nat) : (s.dropPkt pid).rd g j m = s.rd g j m := by
  refine each_keeps (fun t => t.rd g j m = s.rd g j m) _ (fun t p kept => ?_) _ _ rfl
  split
  · exact (rd_settleWait inWord notWait ..).trans kept
  · exact kept

theorem rd_ackDrop (s : State) (p : Pkt) (j m : Nat) : (s.ackDrop p).rd g j m = s.rd g j m := by
  obtain ⟨f, sent⟩ := reply_of_base (s.dropPkt p.pid) p p.at_ opAck 0 []
  rw [State.ackDrop, sent]
  exact rd_dropPkt inWord notWait s p.pid j m

end

/-- Staging shows in USED and PEAK alone. -/
theorem rd_setStaged (s : State) (t : Nat) (l : List Staged) {g : Fld} (inWord : g.lo < 64) (notUsed : g.lo ≠ 0) (notPeak : g.lo ≠ 15)
    (j m : Nat) : (s.setStaged t l).rd g j m = s.rd g j m := by
  unfold State.setStaged State.showStaging
  exact (rd_wr_of_bit_ne _ Reg.CH_STAGE_PEAK g _ _ _ _ _ (by decide) inWord notPeak.symm).trans
    (rd_wr_of_bit_ne _ Reg.CH_STAGE_USED g _ _ _ _ _ (by decide) inWord notUsed.symm)

/-! ### Staging (R286, R287, R289) -/

/-- The partial that a churn packet carries. -/
def Pkt.part (p : Pkt) : Part :=
  let b := chBlock p.payload
  ⟨partPort p, p.src, w64 b.mask, b.count, b.scale, b.fmt, b.uncomb, b.ovf, p.rmode, p.route, p.hop, p.skim, p.seq, p.opid,
    p.payload.drop 32⟩

/-- What a node stages of a chunk whose first partial has come. -/
def Pkt.staged (p : Pkt) (n now : Nat) : Staged :=
  ⟨p.at_, n, p.vat, (chBlock p.payload).tree, (chBlock p.payload).step, p.daddr, p.dmod, p.dtile, [p.part], 1, now, none⟩

/-- A packet of 4 MiB at most takes no more than the staging memory of a tile. -/
theorem part_units_le {p : Pkt} (short : p.payload.length ≤ 2 ^ 22) : p.part.units ≤ 16384 := by
  simp only [Part.units, Pkt.part, List.length_drop]
  omega

theorem staging_of_none {s : State} (none : s.ren.staged = []) (t : Nat) : s.staging t = 0 := by simp [State.staging, none]

/-- The first partial of a chunk at a node that expects more is staged and acknowledged. -/
theorem doChurnStage_of_first {s : State} {pid n : Nat} {p : Pkt} (found : s.pkt? pid = some p) (churn : p.op = opChurn) (inside : p.at_ < 36)
    (sent : p.retryAt = none) (free : p.held = false) (header : p.headerOk = true) (crc : p.crcOk = true) (node : s.nodeFor p = some n)
    (plain : s.rd Reg.CH_NODE_SKIM_NODE p.at_ n = 0) (more : 2 ≤ s.rd Reg.CH_NODE_EXPECT p.at_ n) (empty : s.ren.staged = [])
    (short : p.payload.length ≤ 2 ^ 22) : s.doChurnStage pid = (s.setStaged p.at_ [p.staged n s.now]).ackDrop p := by
  have room : ¬ 16384 < s.staging p.at_ + p.part.units := by
    rw [staging_of_none empty]
    have := part_units_le short
    omega
  have waits : ¬ ((s.setStaged p.at_ [p.staged n s.now]).ackDrop p).rd Reg.CH_NODE_EXPECT p.at_ n ≤ 1 := by
    rw [rd_ackDrop (by decide) (by decide), rd_setStaged _ _ _ (by decide) (by decide) (by decide)]
    omega
  have enter : ¬(p.op ≠ opChurn ∨ 36 ≤ p.at_ ∨ p.retryAt.isSome ∨ p.held) := by simp [churn, sent, free]; omega
  simp only [State.doChurnStage, found, if_neg enter, header, node, crc, plain, State.stagedAt]
  simp only [Bool.not_true, Bool.false_eq_true, if_false, show ((0 : Nat) == 1) = false from rfl, Bool.false_and, reduceCtorEq, false_and,
    empty, List.filter_nil, List.head?_nil, Option.map_none, Option.getD_none, List.nil_append, Nat.zero_add]
  exact (if_neg room).trans (if_neg waits)

/-! ### Holding (R288) -/

section
variable {s : State} {t n : Nat} {g : Staged} (one : s.ren.staged = [g]) (here : g.t = t) (node : g.node = n) (kept : g.sent = none)
  (plain : s.rd Reg.CH_NODE_SKIM_NODE t n = 0)
include one here node kept plain

theorem doNodeHold_of_due (due : g.since + s.nodeHold t n ≤ s.now) : s.doNodeHold t n = s.forwardStaged g := by
  simp [State.doNodeHold, plain, State.stagedAt, one, here, node, kept, due, State.each]

theorem doNodeHold_of_early (early : s.now < g.since + s.nodeHold t n) : s.doNodeHold t n = s := by
  simp [State.doNodeHold, plain, State.stagedAt, one, here, node, kept, early, State.each]

end

/-- HOLD counts microseconds by ten; 0 stands for 100 ms (Table 10.10). -/
theorem nodeHold_eq (s : State) (t n : Nat) :
    s.nodeHold t n = if s.rd Reg.CH_NODE_HOLD t n = 0 then 90000000 else 9000 * s.rd Reg.CH_NODE_HOLD t n := by
  unfold State.nodeHold us
  dsimp only
  split <;> omega

/-! ### Sinks (R282, R291, R292, R299) -/

/-- The window that the first packet of a step opens at a sink. -/
def Pkt.sinkWindow (p : Pkt) (k now : Nat) : Window :=
  let b := chBlock p.payload
  ⟨p.at_, 64 + k, p.vat, b.tree, b.step, now, 0, w64 b.mask, 0, 0, b.scale, fmtMode b.fmt, false⟩

/-- Where the log of the shard under a packet stands in a core's scratch. -/
def State.sinkLogOf (s : State) (p : Pkt) (k core : Nat) : Option Nat :=
  (s.sinkChunk p.at_ k (pailAddr p.daddr.toNat) (fmtMode (chBlock p.payload).fmt) (p.payload.drop 32).length).bind fun i =>
    s.sinkLog p.at_ k core i

/-- A core takes a partial where its pail grants the store and the chunk has a log. -/
def State.sinkTakes (s : State) (p : Pkt) (k core : Nat) : Bool :=
  let a := pailAddr p.daddr.toNat
  (s.pail core a.pail).takes false true a.off (p.payload.drop 32).length && (s.sinkLogOf p k core).isSome

/-- No window was ever closed at the point, so no step is stale there; the packet opens one. -/
theorem sortPkt_of_new {s : State} {p : Pkt} {k : Nat} (fresh : s.win? p.at_ (64 + k) = none) (closed : s.ren.closed = []) :
    s.sortPkt p.at_ (64 + k) false p (chBlock p.payload) =
      ({ s with ren := { s.ren with wins := s.ren.wins ++ [p.sinkWindow k s.now] } }, .admitted) := by
  have valid : s.stale p.at_ (64 + k) (chBlock p.payload).step = false := by simp [State.stale, fresh, closed, mget]
  simp [State.sortPkt, valid, fresh, Pkt.sinkWindow]

/-- The first packet of a step at a sink without SKIM is applied to its shard and acknowledged. -/
theorem sinkTake_of_new {s u v : State} {p : Pkt} {k core la off : Nat} (plain : s.rd Reg.CH_SINK_SKIM_EN p.at_ k = 0)
    (fresh : s.win? p.at_ (64 + k) = none) (closed : s.ren.closed = [])
    (log : State.readScr { s with ren := { s.ren with wins := s.ren.wins ++ [p.sinkWindow k s.now] } } core la 16 4 = (u, true))
    (shard : u.readScr core off (p.payload.drop 32).length 4 = (v, true)) (win : v.win? p.at_ (64 + k) = some (p.sinkWindow k s.now)) :
    s.sinkTake p k core la off (chBlock p.payload) =
      ((v.sinkApply core off la (p.sinkWindow k s.now) (chBlock p.payload) (p.payload.drop 32)).ackDrop p).trySink
        (p.sinkWindow k s.now) := by
  simp only [State.sinkTake, plain, show ((0 : Nat) == 1) = false from rfl, sortPkt_of_new fresh closed, reduceCtorEq, if_false, log,
    if_true, shard, Bool.not_true, Bool.false_eq_true, win]

/-- A churn packet that a sink admits goes down to the core that holds its shard. -/
theorem doSinkApply_of_go {s d : State} {pid k core la : Nat} {p q : Pkt} (found : s.pkt? pid = some p) (churn : p.op = opChurn)
    (sent : p.retryAt = none) (free : p.held = false) (arrived : s.arrived p = true) (noNode : s.nodeFor p = none)
    (header : p.headerOk = true) (sink : s.sinkOf p.at_ p.vat (chBlock p.payload).tree (pailAddr p.daddr.toNat).id = some k)
    (log : s.sinkLogOf p k core = some la)
    (judged : s.judgeCore p (pailAddr p.daddr.toNat).id (s.sinkTakes p k) = (.go, core))
    (way : s.downOpen p (cluOfCore core) = true) (down : s.down p (cluOfCore core) = (d, some q)) :
    s.doSinkApply pid =
      d.sinkTake q k core la ((s.pail core (pailAddr p.daddr.toNat).pail).base + (pailAddr p.daddr.toNat).off) (chBlock p.payload) := by
  have enter : ¬(p.op ≠ opChurn ∨ p.retryAt.isSome ∨ p.held ∨ !s.arrived p ∨ (s.nodeFor p).isSome) := by
    simp [churn, sent, free, arrived, noNode]
  unfold State.sinkTakes State.sinkLogOf at judged
  unfold State.sinkLogOf at log
  simp only [State.doSinkApply, found, if_neg enter, header, Bool.not_true, Bool.false_eq_true, if_false, sink, Option.bind_some, judged,
    Verdict.below, way, down, log]

/-! ### Windows (R300, R301) -/

theorem win?_spec {s : State} {t n : Nat} {w : Window} (found : s.win? t n = some w) : w.t = t ∧ w.point = n := by
  simpa using List.find?_some found

/-- A node forwards its staged chunk of the step at the deadline. -/
theorem doDeadline_of_staged {s : State} {t n : Nat} {w : Window} {g : Staged} (node : n < 64) (found : s.win? t n = some w)
    (first : w.passed = false) (due : w.past s.now 1 = true) (one : (s.stagedAt t n fun g => g.step == w.step) = [g]) :
    s.doDeadline t n = (s.setWin { w with passed := true }).forwardStaged g := by
  have staged : ((s.setWin { w with passed := true }).stagedAt t n fun g => g.step == w.step) = [g] := one
  simp only [State.doDeadline, found, first, due, Bool.not_true, Bool.or_self, Bool.false_eq_true, if_false, if_pos node, staged]
  rfl

theorem win?_endWin (s : State) (w : Window) : (s.endWin w).win? w.t w.point = none := by
  simp only [State.win?, State.endWin, List.find?_eq_none, List.mem_filter]
  rintro x ⟨-, other⟩ here
  simp [here] at other

theorem closed_endWin (s : State) (w : Window) : mget 0 (s.endWin w).ren.closed (ptKey w.t w.point) = w.step + 1 :=
  mget_mset_self 0 s.ren.closed (ptKey w.t w.point) (w.step + 1)

/-- With nothing staged, the tail limit of a node ends its window. -/
theorem doTailLimit_of_empty {s : State} {t n : Nat} {w : Window} (node : n < 64) (found : s.win? t n = some w)
    (due : w.past s.now 2 = true) (empty : s.ren.staged = []) : s.doTailLimit t n = (s.setStaged w.t []).endWin w := by
  obtain ⟨-, rfl⟩ := win?_spec found
  have none : ((s.setStaged w.t []).stagedAt w.t w.point fun g => g.step == w.step) = [] := rfl
  simp only [State.doTailLimit, found, due, if_true, State.closeWin, Bool.false_eq_true, if_false, if_pos node, State.closeNode, empty,
    List.filter_nil, none]
  rfl

/-! ### Set-up of vats and nodes (R283, R305) -/


theorem doChVat_of_bad (s : State) (vat : Nat) {v : Nat} (bad : v % 4 = 3 ∨ 10000 < v / 4 % 2 ^ 14) :
    s.doChVat vat v = s.wr Reg.CH_STAGE_CFG_CLAMP 0 1 := by
  unfold State.doChVat bitsOf
  rw [if_pos (by simpa using bad)]

/-- A tile's copy for a vat leaves every other tile's. -/
theorem rd_wr_chVat_of_tile_ne (s : State) {f g : Fld} (hf : f = Reg.CH_VAT_MODE ∨ f = Reg.CH_VAT_SKIM)
    (hg : g = Reg.CH_VAT_MODE ∨ g = Reg.CH_VAT_SKIM) {y t vat : Nat} (inside : vat < 256) (ne : y ≠ t) (x : Nat) :
    (s.wr f y x vat).rd g t vat = s.rd g t vat := by
  obtain rfl | rfl := hf <;> obtain rfl | rfl := hg <;>
    exact rd_wr_of_inst_ne _ _ _ _ _ _ rfl (by simp only [Reg.CH_VAT_MODE, Reg.CH_VAT_SKIM]; omega)
      (by simp only [Reg.CH_VAT_MODE, Reg.CH_VAT_SKIM]; omega) ne

/-- Every tile takes the copy. -/
theorem doChVat_of_good (s : State) {vat v : Nat} (inside : vat < 256) (mode : v % 4 ≠ 3) (skim : v / 4 % 2 ^ 14 ≤ 10000) (t : Tile) :
    (s.doChVat vat v).rd Reg.CH_VAT_MODE t.val vat = v % 4 ∧ (s.doChVat vat v).rd Reg.CH_VAT_SKIM t.val vat = v / 4 % 2 ^ 14 := by
  have good : ¬(bitsOf v 1 0 = 3 ∨ 10000 < bitsOf v 15 2) := by
    simp only [bitsOf]
    omega
  unfold State.doChVat
  rw [if_neg good]
  refine each_once (P := fun _ => True)
    (Q := fun s => s.rd Reg.CH_VAT_MODE t.val vat = v % 4 ∧ s.rd Reg.CH_VAT_SKIM t.val vat = v / 4 % 2 ^ 14)
    (fun s _ => ⟨?_, ?_⟩) (fun _ _ _ _ => trivial) (fun s y ne kept => ?_) List.nodup_range (List.mem_range.2 t.isLt) trivial
  · rw [rd_wr_of_lo_ne _ Reg.CH_VAT_SKIM Reg.CH_VAT_MODE _ _ _ rfl rfl rfl (by decide), rd_wr_self]
    simp [bitsOf, Reg.CH_VAT_MODE]
  · rw [rd_wr_self]
    simp [bitsOf, Reg.CH_VAT_SKIM]
  · simpa only [rd_wr_chVat_of_tile_ne _ (.inl rfl) (.inl rfl) inside ne, rd_wr_chVat_of_tile_ne _ (.inl rfl) (.inr rfl) inside ne,
      rd_wr_chVat_of_tile_ne _ (.inr rfl) (.inl rfl) inside ne, rd_wr_chVat_of_tile_ne _ (.inr rfl) (.inr rfl) inside ne] using kept

theorem doChNode_of_bad (s : State) (t n : Nat) {v : Nat} (bad : v / 2 ^ 17 % 16 = 0) :
    s.doChNode t n v = s.wr Reg.CH_STAGE_CFG_CLAMP t 1 := by
  unfold State.doChNode bitsOf
  rw [if_pos (by simpa using bad)]

/-- A node's entry is one word of six fields. -/
theorem doChNode_of_good (s : State) (t n : Nat) {v : Nat} (expect : v / 2 ^ 17 % 16 ≠ 0) :
    let u := s.doChNode t n v
    u.rd Reg.CH_NODE_VALID t n = v % 2 ∧ u.rd Reg.CH_NODE_VAT t n = v / 2 % 256 ∧ u.rd Reg.CH_NODE_TREE t n = v / 2 ^ 9 % 256 ∧
      u.rd Reg.CH_NODE_EXPECT t n = v / 2 ^ 17 % 16 ∧ u.rd Reg.CH_NODE_SKIM_NODE t n = v / 2 ^ 21 % 2 ∧
      u.rd Reg.CH_NODE_HOLD t n = v / 2 ^ 22 % 2 ^ 14 := by
  have good : ¬bitsOf v 20 17 = 0 := by simpa [bitsOf] using expect
  simp only [State.doChNode, if_neg good]
  refine ⟨?_, ?_, ?_, ?_, ?_, ?_⟩ <;>
    (simp (disch := decide) only [rd_wr_of_bit_ne, rd_wr_self]; simp [bitsOf, Reg.CH_NODE_VALID, Reg.CH_NODE_VAT, Reg.CH_NODE_TREE,
      Reg.CH_NODE_EXPECT, Reg.CH_NODE_SKIM_NODE, Reg.CH_NODE_HOLD])

/-- Settles O37: each rule of a churn point is taken from its lemma above, at the command's tile, node, sink or vat. -/
theorem churnNodesAndSinks : Obligations.ChurnNodesAndSinks := by
  unfold Obligations.ChurnNodesAndSinks
  intro s
  refine ⟨?stage, ?hold, ?sink, ?deadline, ?tail, ?vat, ?node⟩
  case stage =>
    intro pid p n found churn inside sent free header crc node plain more empty short
    dsimp only
    exact congrArg (fun t : State => Host.Outcome.next t.pumpAll)
      (doChurnStage_of_first found churn inside sent free header crc node plain more empty short)
  case hold =>
    intro t node g one here at_ kept plain
    dsimp only
    rw [← nodeHold_eq]
    exact ⟨fun due => congrArg Host.Outcome.next (doNodeHold_of_due one here at_ kept plain due),
      fun early => congrArg Host.Outcome.next (doNodeHold_of_early one here at_ kept plain early)⟩
  case sink =>
    intro pid p k la core d q u v found churn sent free arrived noNode header b a elems logOf off sink log judged way down tile payload
      plain fresh closed w logRead shardRead win
    have opened : q.sinkWindow k d.now = w := by simp only [Pkt.sinkWindow, tile, payload, w, b]
    have taken := sinkTake_of_new (s := d) (u := u) (v := v) (p := q) (k := k) (core := core) (la := la) (off := off)
    rw [opened, tile, payload] at taken
    exact congrArg (fun t : State => Host.Outcome.next t.pumpAll)
      ((doSinkApply_of_go found churn sent free arrived noNode header sink log judged way down).trans
        (taken plain fresh closed logRead shardRead win))
  case deadline =>
    intro t node w g found first due one
    exact congrArg Host.Outcome.next (doDeadline_of_staged node.isLt found first due one)
  case tail =>
    intro t node w found due empty
    obtain ⟨tile, point⟩ := win?_spec found
    refine ⟨(s.setStaged w.t []).endWin w, congrArg Host.Outcome.next (doTailLimit_of_empty node.isLt found due empty), ?_, ?_, rfl, rfl⟩
    · rw [← tile, ← point]
      exact win?_endWin ..
    · rw [← tile, ← point]
      exact closed_endWin ..
  case vat =>
    intro vat v
    exact ⟨fun mode skim => ⟨_, rfl, doChVat_of_good s vat.isLt mode skim⟩, fun bad => congrArg Host.Outcome.next (doChVat_of_bad s _ bad)⟩
  case node =>
    intro t node v
    exact ⟨fun bad => congrArg Host.Outcome.next (doChNode_of_bad s _ _ bad), fun expect => ⟨_, rfl, doChNode_of_good s _ _ expect⟩⟩

end Sys2Proof.Machine
end

section
/-! PROOFS. The records of links (11.3, 11.4, Table 11.8): the word LK_STATUS of a link under the writes of other records, the two ends of
a link, and what SCH_LINK takes from a link. -/

namespace Sys2Proof.Machine

theorem rd_setLnk (s : State) (l : Links) (f : Fld) (i k : Nat) : (s.setLnk l).rd f i k = s.rd f i k := rfl

theorem rd_saveStored (s : State) (f : Fld) (i k : Nat) : s.saveStored.rd f i k = s.rd f i k := rfl

theorem rd_with_boot (s : State) (b : Boot) (f : Fld) (i k : Nat) : State.rd { s with boot := b } f i k = s.rd f i k := rfl

/-! ### Steps that write registers alone -/

def State.OnlyRegs (s t : State) : Prop := ∃ r, t = { s with regs := r }

namespace State.OnlyRegs

variable {s t u : State}

theorem refl (s : State) : s.OnlyRegs s := ⟨_, rfl⟩

theorem trans (h : s.OnlyRegs t) (g : t.OnlyRegs u) : s.OnlyRegs u := by
  obtain ⟨_, rfl⟩ := h
  obtain ⟨r, rfl⟩ := g
  exact ⟨r, rfl⟩

theorem wr (s : State) (f : Fld) (i v k : Nat) : s.OnlyRegs (s.wr f i v k) := ⟨_, rfl⟩

theorem each {α : Type} {f : State → α → State} (step : ∀ (s : State) x, s.OnlyRegs (f s x)) (l : List α) (s : State) : s.OnlyRegs (s.each l f) :=
  each_keeps s.OnlyRegs f (fun _ x h => h.trans (step _ x)) l s (refl s)

theorem lnk (h : s.OnlyRegs t) : t.lnk = s.lnk := by
  obtain ⟨_, rfl⟩ := h
  rfl

theorem sch (h : s.OnlyRegs t) : t.sch = s.sch := by
  obtain ⟨_, rfl⟩ := h
  rfl

theorem mem (h : s.OnlyRegs t) : t.mem = s.mem := by
  obtain ⟨_, rfl⟩ := h
  rfl

end State.OnlyRegs

/-! ### Links and what they serve -/

/-- A link has 16 numbers to its tile, so that the records of the panel's links have instances below 2¹⁶. -/
theorem linkInst_lt {t l : Nat} (tile : t < 36) (link : l < 11) : linkInst t l < 2 ^ 16 := by
  unfold linkInst
  omega

theorem lsite_le (s : State) (t p : Nat) : s.lsite t p ≤ 7 := by
  unfold State.lsite
  cases found : (List.range 6).find? fun l => decide (s.psite t l = p) with
  | none => exact le_rfl
  | some l => exact (List.mem_range.1 (List.mem_of_find?_eq_some found)).le.trans (by decide)

theorem schPort_lt {s : State} {t l port : Nat} (serves : s.schPort t l = some port) : port < 16 := by
  have := lsite_le s t (l - 4)
  unfold State.schPort at serves
  dsimp only at serves
  split at serves
  · injection serves
    omega
  · split at serves
    · cases serves
    · injection serves
      omega

/-! ### The two ends of a link -/

/-- An output leads to another tile of the panel. -/
theorem neighbour_spec {t p n : Nat} (tile : t < 36) (next : neighbour t p = some n) : n ≠ t ∧ n < 36 := by
  unfold neighbour tileX tileY at next
  repeat' split at next
  all_goals simp only [reduceCtorEq, Option.some.injEq] at next
  all_goals omega

theorem oppPort_lt {l : Nat} (edge : l < 4) : oppPort l < 4 := by
  rw [oppPort, if_pos edge]
  exact Nat.mod_lt _ (by decide)

/-- The record of a link's other end: the neighbour's for a tile edge, none for a die. -/
def farEnds (t l : Nat) : List Nat := ((if l < 4 then neighbour t l else none).map fun n => linkInst n (oppPort l)).toList

theorem linkEnds_eq (t l : Nat) : linkEnds t l = linkInst t l :: farEnds t l := by
  unfold linkEnds farEnds
  cases (if l < 4 then neighbour t l else none) <;> rfl

/-- The far end has a record of its own, that of an edge of another tile. -/
theorem mem_farEnds {t l j : Nat} (tile : t < 36) (mem : j ∈ farEnds t l) : j ≠ linkInst t l ∧ j < 576 := by
  unfold farEnds at mem
  split at mem
  next edge =>
    cases next : neighbour t l with
    | none => simp [next] at mem
    | some n =>
      obtain ⟨other, inside⟩ := neighbour_spec tile next
      have := oppPort_lt edge
      have : j = linkInst n (oppPort l) := by simpa [next] using mem
      unfold linkInst at this ⊢
      omega
  next => simp at mem

theorem mem_linkEnds_lt {t l j : Nat} (tile : t < 36) (link : l < 11) (mem : j ∈ linkEnds t l) : j < 576 := by
  rw [linkEnds_eq] at mem
  rcases List.mem_cons.1 mem with rfl | far
  · unfold linkInst
    omega
  · exact (mem_farEnds tile far).2

/-! ### LK_STATUS under the writes of other records -/

/-- `t` reads as `s` in the word LK_STATUS of a link. -/
def State.SameLinkStatus (i : Nat) (s t : State) : Prop := ∀ g : Fld, g.blk = .link → g.off = 0 → g.lo < 64 → t.rd g i = s.rd g i

namespace State.SameLinkStatus

variable {i : Nat} {s t u : State}

theorem refl (i : Nat) (s : State) : SameLinkStatus i s s := fun _ _ _ _ => rfl

theorem trans (h : SameLinkStatus i s t) (g : SameLinkStatus i t u) : SameLinkStatus i s u :=
  fun f blk off lo => (g f blk off lo).trans (h f blk off lo)

/-- A step that leaves `State.regs` as it is. -/
theorem of_regs (h : t.regs = s.regs) : SameLinkStatus i s t := fun g _ _ _ => rd_of_regs h g i 0

/-- A write of another block, of another link or of another word. -/
theorem wr (s : State) {f : Fld} {i j k : Nat} (v : Nat) (apart : f.blk ≠ .link ∨ j ≠ i ∨ 0 < f.off) (hi : i < 2 ^ 16) (hj : j < 2 ^ 16)
    (hk : k < 16) (fits : f.off ≤ 64 ∧ f.step = 8 ∧ f.lo < 64 := by decide) : SameLinkStatus i s (s.wr f j v k) := by
  intro g blk off lo
  have block : f.blk = .link ∨ blkNum f.blk ≠ 17 := by
    cases f.blk <;> decide
  have number : blkNum .link = 17 := rfl
  obtain ⟨low, step, bits⟩ := fits
  apply rd_wr_ne
  simp only [fkey, blk, off, step, number]
  rcases block with same | other
  · simp only [same, number]
    have := apart.resolve_left (absurd same)
    omega
  · generalize blkNum f.blk = b at other
    omega

/-- A loop whose rounds leave the word. -/
theorem each {α : Type} {l : List α} {f : State → α → State} (step : ∀ x ∈ l, ∀ t, SameLinkStatus i t (f t x)) (s : State) :
    SameLinkStatus i s (s.each l f) :=
  List.foldlRecOn l f (refl i s) fun t h x hx => h.trans (step x hx t)

/-- A loop over both ends, whose round at the far end leaves the word: it reads as after the near end's round. -/
theorem linkEnds {tile l : Nat} {f : State → Nat → State} (s : State)
    (far : ∀ j ∈ farEnds tile l, ∀ t, SameLinkStatus (linkInst tile l) t (f t j)) :
    SameLinkStatus (linkInst tile l) (f s (linkInst tile l)) (s.each (linkEnds tile l) f) := by
  rw [linkEnds_eq]
  exact each far _

end State.SameLinkStatus

end Sys2Proof.Machine
end

section
/-! PROOFS. Lane errors, sparing and group retirement (11.3, R308, R312 to R314, R323, R329): the first group of a die's direction, what a
whey slot shows of a lane, and a data lane that fails. -/

namespace Sys2Proof.Machine

/-! ### The first group of a direction (R229, R314) -/

theorem setBits_two_pow : ∀ {g : Nat}, g < 8 → ((List.range 8).filter (bitOf (2 ^ g))).length = 1 := by decide

section
variable {s : State} {t l g : Nat} (inside : g < 8) (none : s.retiredMask t l true = 0)
include inside none

theorem markGroup_of_first : s.markGroup t l g true =
    ((s.wr Reg.LK_STATUS_GRP_RETIRED_RX (linkInst t l) (2 ^ g)).wr Reg.LK_STATUS_WIDTH_RX (linkInst t l) 7).wr Reg.LK_GROUP_RETIRED
      (linkInst t l) 1 g := by
  have mask : s.rd Reg.LK_STATUS_GRP_RETIRED_RX (linkInst t l) = 0 := none
  simp only [State.markGroup, if_true, mask, Nat.zero_or, setBits_two_pow inside]

theorem rd_markGroup_of_first : let u := s.markGroup t l g true; let i := linkInst t l
    u.rd Reg.LK_STATUS_GRP_RETIRED_RX i = 2 ^ g ∧ u.rd Reg.LK_STATUS_WIDTH_RX i = 7 ∧ u.rd Reg.LK_GROUP_RETIRED i g = 1 := by
  have fits : 2 ^ g < 2 ^ 8 := Nat.pow_lt_pow_right (by decide) inside
  rw [markGroup_of_first inside none]
  simp (disch := decide) only [rd_wr_of_bit_ne, rd_wr_self]
  exact ⟨Nat.mod_eq_of_lt fits, rfl, rfl⟩

/-- The first group that a direction from a die loses is entered, mapped around and stored; no record is made of it. -/
theorem retireGroup_of_first (die : 4 ≤ l) : let u := s.markGroup t l g true
    s.retireGroup t l g true false = (((u.setLnk { u.lnk with grpHist := u.lnk.grpHist ++ [dirKey t l true * 8 + g] }).retireUp t (l - 4)
      g).showRetired t l).saveStored := by
  have fresh : bitOf (s.retiredMask t l true) g = false := by simp [none, bitOf]
  have edge : ¬l < 4 := by omega
  have mask : (s.markGroup t l g true).rd Reg.LK_STATUS_GRP_RETIRED_RX (linkInst t l) = 2 ^ g := (rd_markGroup_of_first inside none).1
  rw [State.retireGroup, fresh]
  simp [edge, State.retiredMask, rd_setLnk, mask, setBits_two_pow inside]

end

theorem doGroupRetirement_of_due {s : State} {t l g : Nat} (due : s.lnk.due.contains (dirKey t l true * 8 + g) = true)
    (clean : s.lnk.injBad = []) : s.doGroupRetirement t l g true =
      (s.setLnk { s.lnk with due := s.lnk.due.filter (· != dirKey t l true * 8 + g) }).retireGroup t l g true false := by
  simp only [State.doGroupRetirement, due, clean, if_true, List.any_nil]

/-! ### Whey slots (R312, R323, R329) -/

theorem injLaneErr_of_none {s : State} {key : Nat} (none : mget 0 s.lnk.injLane key = 0) : s.injLaneErr key = (s, false) := by
  simp only [State.injLaneErr, none, if_true]

theorem doWhey_of_not_whey {s : State} (not : s.clk.started = false ∨ isWhey s.slotIx = false) (e : LinkEnd) (g lane errs : Nat) :
    s.doWhey e g lane errs = s := by
  rcases not with h | h <;> simp [State.doWhey, h]

/-- In a whey slot each kind of end takes its own test. -/
theorem doWhey_of_whey {s : State} (started : s.clk.started = true) (whey : isWhey s.slotIx = true) (g lane errs : Nat) :
    (∀ t l, s.doWhey (.link t l) g lane errs = s.wheyLane t.val l.val g lane errs true) ∧
    (∀ t p, s.doWhey (.die t p) g lane errs = s.wheyLane t.val (4 + p.val) g lane errs false) ∧
    (∀ t p, s.doWhey (.express t p) g lane errs = s.wheyChan (xpInst t.val p.val) lane errs) ∧
    ∀ p, s.doWhey (.reach p) g lane errs = s.wheyReach p.val lane errs := by
  simp [State.doWhey, started, whey]

section
variable {s : State}

/-- A lane of a direction in service, without an injected error, has its errors counted, and is marked where they make it failing. -/
theorem wheyLane_of_clean {t l g lane : Nat} {rx : Bool} (up : s.rd Reg.LK_STATUS_STATE (linkInst t l) = 2)
    (serves : bitOf (s.retiredMask t l rx) g = false) (inside : lane < groupLanes l) {key : Nat}
    (hkey : key = (dirKey t l rx * 8 + g) * 2048 + lane) (clean : mget 0 s.lnk.injLane key = 0) (errs : Nat) :
    let r := s.laneErrors key (s.rd Reg.LK_CFG_LANE_THRESH (linkInst t l)) (s.rd Reg.LK_CFG_WINDOW_LOG2 (linkInst t l)) errs
    s.wheyLane t l g lane errs rx = if r.2 then r.1.laneFails t l g lane rx false else r.1 := by
  subst hkey
  have used : ¬dataLanes l + spareLanes l ≤ lane := Nat.not_le.2 inside
  simp [State.wheyLane, up, serves, used, injLaneErr_of_none clean]

/-- A channel of a receive port in service; its pair is in no takeover. -/
theorem wheyChan_of_clean {rx ch : Nat} (receives : rx % 2 = 1) (inside : ch < 32) (up : s.rd Reg.XP_STATUS_STATE rx = 2)
    (steady : s.inTakeover (rx % 4 == 3) = false) (clean : mget 0 s.lnk.injLane (xpLane rx ch) = 0)
    (fresh : s.lnk.chanDue.contains (rx * 32 + ch) = false) (errs : Nat) : let r := s.laneErrors (xpLane rx ch) 8 10 errs
    s.wheyChan rx ch errs = if r.2 then r.1.setLnk { r.1.lnk with chanDue := s.lnk.chanDue ++ [rx * 32 + ch] } else r.1 := by
  have same : (s.laneErrors (xpLane rx ch) 8 10 errs).1.lnk.chanDue = s.lnk.chanDue := rfl
  have absent : rx * 32 + ch ∉ s.lnk.chanDue := by simpa using fresh
  simp [State.wheyChan, receives, Nat.not_le.2 inside, up, injLaneErr_of_none clean, steady, same, absent]

theorem wheyReach_of_clean {p lane : Nat} (up : s.reachUp p = true) (inside : lane < 8)
    (clean : mget 0 s.lnk.injLane (reachLane p lane) = 0) (errs : Nat) :
    s.wheyReach p lane errs = s.bumpW Reg.RP_FEC_CORRECTED p errs := by
  simp [State.wheyReach, up, Nat.not_le.2 inside, injLaneErr_of_none clean]

end

/-! ### A data lane that fails (R313, R314) -/

theorem groupDue_contains (s : State) (k : Nat) : (s.groupDue k).lnk.due.contains k = true := by
  unfold State.groupDue
  split
  · assumption
  · simp [State.setLnk]

theorem groupDue_spares (s : State) (k : Nat) : (s.groupDue k).lnk.spares = s.lnk.spares := by
  unfold State.groupDue
  split <;> rfl

theorem dirLink_dirKey {t l : Nat} (link : l < 11) : dirLink (dirKey t l true) = l := by
  simp only [dirLink, dirKey, linkInst, if_true]
  omega

/-- The state in which a failing lane of the tile's receiving direction is shown in LK_GROUP and entered as bad. -/
def State.laneNoted (s : State) (t l g lane : Nat) : State :=
  let u := (s.bump Reg.LK_GROUP_LANE_FAILS (linkInst t l) 1 g).wr Reg.LK_GROUP_LAST_LANE (linkInst t l) lane g
  u.setLnk { u.lnk with bad := u.lnk.bad ++ [(dirKey t l true * 8 + g) * 2048 + lane] }

section
variable {s : State} {t l g lane : Nat} (link : l < 11) (data : lane < dataLanes l)
include link data

/-- A data lane that has failed was no spare. -/
theorem freeSpare_laneNoted : (s.laneNoted t l g lane).freeSpare (dirKey t l true) g = s.freeSpare (dirKey t l true) g := by
  simp only [State.freeSpare, dirLink_dirKey link]
  refine List.find?_congr fun x hx => ?_
  obtain ⟨y, -, rfl⟩ := List.mem_map.1 hx
  have other : y + dataLanes l ≠ lane := by omega
  have bad : (s.laneNoted t l g lane).lnk.bad = s.lnk.bad ++ [(dirKey t l true * 8 + g) * 2048 + lane] := rfl
  have injBad : (s.laneNoted t l g lane).lnk.injBad = s.lnk.injBad := rfl
  have spares : (s.laneNoted t l g lane).lnk.spares = s.lnk.spares := rfl
  rw [bad, injBad, spares]
  simp [other]

variable {key : Nat} (hkey : key = (dirKey t l true * 8 + g) * 2048 + lane) (fresh : (s.lnk.bad ++ s.lnk.injBad).contains key = false)
include hkey fresh

/-- It moves to the lowest free spare. -/
theorem laneFails_of_spare {x : Nat} (spare : s.freeSpare (dirKey t l true) g = some x) : let u := s.laneFails t l g lane true false
    u.lnk.bad = s.lnk.bad ++ [key] ∧ mget 0 u.lnk.spares key = x + 1 ∧ u.lnk.due = s.lnk.due ∧
      u.rd Reg.LK_GROUP_LAST_LANE (linkInst t l) g = lane % 2 ^ Reg.LK_GROUP_LAST_LANE.w := by
  have same := (freeSpare_laneNoted (s := s) (t := t) (g := g) link data).trans spare
  have moved : s.laneFails t l g lane true false =
      let u := (s.laneNoted t l g lane).setLnk { (s.laneNoted t l g lane).lnk with spares := mset 0 s.lnk.spares key (x + 1) }
      u.wr Reg.LK_GROUP_SPARES_USED (linkInst t l)
        (u.lnk.spares.filter fun e => e.1 / 2048 == dirKey t l true * 8 + g).length g := by
    subst hkey
    simp only [State.laneNoted] at same ⊢
    simp only [State.laneFails, fresh, data, same, if_true, if_false, Bool.false_eq_true]
    rfl
  intro u
  simp only [u, moved, wr_lnk]
  refine ⟨by rw [hkey]; rfl, mget_mset_self 0 s.lnk.spares key (x + 1), rfl, ?_⟩
  exact (rd_wr_of_bit_ne _ Reg.LK_GROUP_SPARES_USED Reg.LK_GROUP_LAST_LANE _ _ _ _ _ (by decide) (by decide) (by decide)).trans
    (rd_wr_self _ Reg.LK_GROUP_LAST_LANE _ _ _)

/-- With no spare left its group is due for retirement. -/
theorem laneFails_of_no_spare (full : s.freeSpare (dirKey t l true) g = none) : let u := s.laneFails t l g lane true false
    u.lnk.due.contains (dirKey t l true * 8 + g) = true ∧ mget 0 u.lnk.spares key = 0 := by
  have same := (freeSpare_laneNoted (s := s) (t := t) (g := g) link data).trans full
  have due : s.laneFails t l g lane true false = ((s.laneNoted t l g lane).setLnk
      { (s.laneNoted t l g lane).lnk with spares := mset 0 s.lnk.spares key 0 }).groupDue (dirKey t l true * 8 + g) := by
    subst hkey
    simp only [State.laneNoted] at same ⊢
    simp only [State.laneFails, fresh, data, same, if_true, if_false, Bool.false_eq_true]
    rfl
  intro u
  simp only [u, due]
  refine ⟨groupDue_contains _ _, ?_⟩
  rw [groupDue_spares]
  exact mget_mset_self 0 s.lnk.spares key 0

end

/-! ### Control pairs (R308) -/

theorem doControlPair_of_first {s : State} {t l : Nat} {rx : Bool} (die : 4 ≤ l) (up : s.rd Reg.LK_STATUS_STATE (linkInst t l) = 2)
    (first : mget 0 s.lnk.ctlBad (dirKey t l rx) = 0) : s.doControlPair t l rx =
      (s.setLnk { s.lnk with ctlBad := mset 0 s.lnk.ctlBad (dirKey t l rx) 1 }).wr Reg.LK_STATUS_CTL_DEGRADED (linkInst t l) 1 := by
  simp [State.doControlPair, up, first, Nat.not_lt.2 die]

/-! ### The statement -/

/-- Settles O33: a lane that shows errors by `wheyLane_of_clean`, one that fails by what `laneFails` does with and without a spare, and the
first group of a direction by `retireGroup_of_first`. -/
theorem laneErrors : Obligations.LaneErrors := by
  unfold Obligations.LaneErrors
  intro s t l g i d grp
  refine ⟨?group, ?idle, ?die, ?express, ?reach, ?lane, ?pair⟩
  case group =>
    intro die due none clean u
    obtain ⟨mask, width, retired⟩ := rd_markGroup_of_first
      (s := s.setLnk { s.lnk with due := s.lnk.due.filter (· != grp) }) g.isLt none
    exact ⟨mask, width, retired, congrArg Host.Outcome.next
      ((doGroupRetirement_of_due due clean).trans (retireGroup_of_first g.isLt none die))⟩
  case idle =>
    intro e lane errs not
    exact congrArg Host.Outcome.next (doWhey_of_not_whey not e _ lane errs)
  case die =>
    intro p lane errs started whey j key up serves inside clean r healthy
    obtain ⟨-, die, -, -⟩ := doWhey_of_whey started whey g.toNat lane errs
    exact congrArg Host.Outcome.next ((die t p).trans ((wheyLane_of_clean up serves inside rfl clean errs).trans
      (if_neg (by simp only [healthy, Bool.false_eq_true, not_false_eq_true, r, key, j]))))
  case express =>
    intro q ch errs started whey rx odd inside up steady clean fresh r
    obtain ⟨-, -, express, -⟩ := doWhey_of_whey started whey g.toNat ch errs
    have receives : rx % 2 = 1 := by simp only [rx, xpInst]; omega
    have kind : (rx % 4 == 3) = (q.val == 3) := by simp only [rx, xpInst, Nat.mul_add_mod_self_right, Nat.mod_eq_of_lt q.isLt]
    exact congrArg Host.Outcome.next ((express t q).trans (wheyChan_of_clean receives inside up (kind ▸ steady) clean fresh errs))
  case reach =>
    intro p lane errs started whey up inside clean
    obtain ⟨-, -, -, reach⟩ := doWhey_of_whey started whey g.toNat lane errs
    exact congrArg Host.Outcome.next ((reach p).trans (wheyReach_of_clean up inside clean errs))
  case lane =>
    intro lane errs started whey up serves data key clean r
    obtain ⟨link, -, -, -⟩ := doWhey_of_whey started whey g.toNat lane errs
    have tested := (link t l).trans (wheyLane_of_clean (rx := true) up serves (Nat.lt_add_right _ data) rfl clean errs)
    refine ⟨fun healthy => congrArg Host.Outcome.next (tested.trans (if_neg (Bool.eq_false_iff.1 healthy))), fun failing fresh =>
      ⟨fun x spare => ?_, fun full => ?_⟩⟩
    · exact ⟨_, congrArg Host.Outcome.next (tested.trans (if_pos failing)), laneFails_of_spare l.isLt data rfl (s := r.1) fresh spare⟩
    · exact ⟨_, congrArg Host.Outcome.next (tested.trans (if_pos failing)), laneFails_of_no_spare l.isLt data rfl (s := r.1) fresh full⟩
  case pair =>
    intro die up first
    exact congrArg Host.Outcome.next (doControlPair_of_first die up first)

end Sys2Proof.Machine
end

section
/-! PROOFS. Training (11.4, R316 to R320): an attempt begins, what it leaves where no proposal arrived, and a tile-edge link that comes up or
is retired. -/

namespace Sys2Proof.Machine

/-! ### What SCH_LINK and the other records show (R229, R230, R320) -/

namespace State.SameLinkStatus

variable {i : Nat} (hi : i < 2 ^ 16)
include hi

/-- A write of a tile's scheduler block. -/
theorem sched (s : State) {f : Fld} {t port : Nat} (v : Nat) (block : f.blk = .sched) (tile : t < 36) (out : port < 16)
    (fits : f.off ≤ 64 ∧ f.step = 8 ∧ f.lo < 64 := by decide) : SameLinkStatus i s (s.wr f t v port) :=
  wr s v (.inl (by simp [block])) hi (by omega) out fits

/-- A write of another link's record. -/
theorem far (s : State) {f : Fld} {j : Nat} (v : Nat) (other : j ≠ i) (small : j < 576) {k : Nat} (idx : k < 16)
    (fits : f.off ≤ 64 ∧ f.step = 8 ∧ f.lo < 64 := by decide) : SameLinkStatus i s (s.wr f j v k) :=
  wr s v (.inr (.inl other)) hi (by omega) idx fits

theorem showSchLink (s : State) {t port : Nat} (tile : t < 36) (out : port < 16) (gone : Nat) :
    SameLinkStatus i s (s.showSchLink t port gone) :=
  ((sched hi s _ rfl tile out).trans (sched hi _ _ rfl tile out)).trans (sched hi _ _ rfl tile out)

theorem showSchOf (s : State) {t : Nat} (tile : t < 36) (l : Nat) : SameLinkStatus i s (s.showSchOf t l) := by
  unfold State.showSchOf
  split
  next port serves =>
    have out := schPort_lt serves
    dsimp only
    split
    · exact (showSchLink hi s tile out _).trans (sched hi _ _ rfl tile out)
    · exact showSchLink hi s tile out _
  next => exact refl i s

/-- The records of a trained link's groups, and of the link at its other end. -/
theorem showTrained_groups (s : State) {j : Nat} (small : j < 576) (a b : Nat → Nat) : SameLinkStatus i s
    (s.each (List.range 8) fun s g => (s.wr Reg.LK_GROUP_RETIRED j (a g) g).wr Reg.LK_GROUP_SPARES_USED j (b g) g) :=
  each (fun g hg _ => (wr _ _ (.inr (.inr (by decide))) hi (by omega) ((List.mem_range.1 hg).trans (by decide))).trans
    (wr _ _ (.inr (.inr (by decide))) hi (by omega) ((List.mem_range.1 hg).trans (by decide)))) s

theorem showTrained (s : State) {t l : Nat} (other : linkInst t l ≠ i) (small : linkInst t l < 576) (rxGone txGone rxBad : List Nat) :
    SameLinkStatus i s (s.showTrained t l rxGone txGone rxBad) := by
  unfold State.showTrained
  dsimp only
  refine trans ?_ (showTrained_groups hi _ small _ _)
  refine trans ?_ (far hi _ _ other small (by decide))
  refine trans ?_ (far hi _ _ other small (by decide))
  refine trans ?_ (far hi _ _ other small (by decide))
  refine trans ?_ (far hi _ _ other small (by decide))
  exact far hi s _ other small (by decide)

end State.SameLinkStatus

/-! ### A link that has trained (R317, R320) -/

theorem showTrained_lnk (s : State) (t l : Nat) (rxGone txGone rxBad : List Nat) : (s.showTrained t l rxGone txGone rxBad).lnk = s.lnk := by
  unfold State.showTrained
  refine each_keeps (fun u => u.lnk = s.lnk) _ (fun u g h => ?_) _ _ ?_
  · simpa only [wr_lnk] using h
  · simp only [wr_lnk]

theorem showSchOf_lnk (s : State) (t l : Nat) : (s.showSchOf t l).lnk = s.lnk := by
  unfold State.showSchOf
  split
  · dsimp only
    split <;> rfl
  · rfl

theorem rd_showTrained (s : State) {t l : Nat} (tile : t < 36) (link : l < 11) (rxGone txGone rxBad : List Nat) :
    let u := s.showTrained t l rxGone txGone rxBad; let i := linkInst t l
    u.rd Reg.LK_STATUS_STATE i = 2 ∧ u.rd Reg.LK_STATUS_WIDTH_RX i = (8 - rxGone.length) % 16 ∧
      u.rd Reg.LK_STATUS_GRP_RETIRED_RX i = maskOf rxGone % 256 ∧ u.rd Reg.LK_STATUS_GRP_RETIRED_TX i = maskOf txGone % 256 := by
  have groups := fun s => State.SameLinkStatus.showTrained_groups (linkInst_lt tile link) s (j := linkInst t l)
    (by unfold linkInst; omega) (fun g => b2n (rxGone.contains g)) (fun g => if rxGone.contains g then 0
      else min 32 ((rxBad.filter fun x => x / 2048 == g && decide (x % 2048 < dataLanes l)).length))
  refine ⟨(groups _ _ rfl rfl (by decide)).trans ?_, (groups _ _ rfl rfl (by decide)).trans ?_, (groups _ _ rfl rfl (by decide)).trans ?_,
    (groups _ _ rfl rfl (by decide)).trans ?_⟩
  all_goals
    simp (disch := decide) only [rd_wr_of_bit_ne, rd_wr_self]
    rfl

section
variable {s : State} {t l : Nat} (tile : t < 36) (edge : l < 4) (rxBad txBad rxGone txGone : List Nat)
include tile edge

/-- Both ends of a tile-edge link show that it has trained, and its attempts are over. -/
theorem trained_of_edge : let u := s.trained t l rxBad txBad rxGone txGone; let i := linkInst t l
    u.rd Reg.LK_STATUS_STATE i = 2 ∧ u.rd Reg.LK_STATUS_WIDTH_RX i = (8 - rxGone.length) % 16 ∧
      u.rd Reg.LK_STATUS_GRP_RETIRED_RX i = maskOf rxGone % 256 ∧ u.rd Reg.LK_STATUS_GRP_RETIRED_TX i = maskOf txGone % 256 ∧
      mget 0 u.lnk.tries i = 0 := by
  have hi := linkInst_lt tile (edge.trans (by decide))
  unfold State.trained
  extract_lets dr dt keys lnk u v w i
  obtain ⟨state, width, rx, tx⟩ := rd_showTrained u tile (edge.trans (by decide)) rxGone txGone rxBad
  have near : State.SameLinkStatus (linkInst t l) (u.showTrained t l rxGone txGone rxBad) v := .showSchOf hi _ tile l
  have links : v.lnk = u.lnk := (showSchOf_lnk ..).trans (showTrained_lnk ..)
  have fresh : mget 0 u.lnk.tries (linkInst t l) = 0 := mget_mset_self 0 s.lnk.tries _ 0
  have far : State.SameLinkStatus (linkInst t l) v w ∧ w.lnk = v.lnk := by
    simp only [w, if_neg (show ¬4 ≤ l by omega)]
    split
    next n next =>
      obtain ⟨other, inside⟩ := neighbour_spec tile next
      have out := oppPort_lt edge
      refine ⟨(State.SameLinkStatus.showTrained hi v ?_ ?_ txGone rxGone txBad).trans (.showSchOf hi _ inside (oppPort l)),
        (showSchOf_lnk ..).trans (showTrained_lnk ..)⟩
      all_goals
        unfold linkInst
        omega
    next => exact ⟨.refl _ v, rfl⟩
  obtain ⟨far, kept⟩ := far
  have same := near.trans far
  exact ⟨(same _ rfl rfl (by decide)).trans state, (same _ rfl rfl (by decide)).trans width, (same _ rfl rfl (by decide)).trans rx,
    (same _ rfl rfl (by decide)).trans tx, by rw [kept, links, fresh]⟩

end

/-! ### An output that becomes INVALID (R230, R232) -/

theorem disarm_nil_of_no_images {s : State} (none : s.sch.images = []) : s.disarm [] = s := by
  simp only [State.disarm, none, List.filter_nil, List.map_nil, State.each, List.foldl_nil, State.setImages]
  rw [← none]

theorem invalidate_of_no_images {s : State} (none : s.sch.images = []) (t port : Nat) : s.invalidate t port =
    (if s.rd Reg.SCH_LINK_INVALID t port = 1 then s else s.wr Reg.SCH_LINK_INVALID t 1 port, []) := by
  have owners : s.ownersOf t port = [] := by simp [State.ownersOf, none]
  unfold State.invalidate
  rw [owners]
  split
  · rfl
  · exact congrArg (·, []) (disarm_nil_of_no_images none)

/-- What outputs that become INVALID leave where no schedule is loaded: no vat is named, and the links' state and LK_STATUS stand. -/
structure State.InvalidatedAlone (i : Nat) (s : State) (r : State × List Nat) : Prop where
  vats : r.2 = []
  images : r.1.sch.images = []
  lnk : r.1.lnk = s.lnk
  status : State.SameLinkStatus i s r.1

theorem edgeInvalid_of_no_images {s : State} (none : s.sch.images = []) {t l i : Nat} (tile : t < 36) (edge : l < 4) (hi : i < 2 ^ 16) :
    s.InvalidatedAlone i (s.edgeInvalid t l) := by
  have inside : ∀ x ∈ (t, l) :: ((neighbour t l).map fun n => (n, oppPort l)).toList, x.1 < 36 ∧ x.2 < 16 := by
    have out := oppPort_lt edge
    cases next : neighbour t l with
    | none => simp; omega
    | some n =>
      have far := (neighbour_spec tile next).2
      simp; omega
  refine List.foldlRecOn (motive := s.InvalidatedAlone i) _ _ ⟨rfl, none, rfl, .refl i s⟩ ?_
  rintro r ⟨vats, none, kept, same⟩ x hx
  obtain ⟨tile, out⟩ := inside x hx
  dsimp only
  rw [invalidate_of_no_images none, vats]
  split
  · exact ⟨rfl, none, kept, same⟩
  · exact ⟨rfl, none, kept, same.trans (.sched hi _ _ rfl tile out)⟩

/-! ### A link that is retired (R319) -/

/-- The record of a link whose training has failed: retired, with all its groups. -/
def State.showUntrained (s : State) (j : Nat) : State :=
  (((((s.wr Reg.LK_STATUS_STATE j 3).wr Reg.LK_STATUS_GRP_RETIRED_RX j 255).wr Reg.LK_STATUS_GRP_RETIRED_TX j 255).wr
    Reg.LK_STATUS_WIDTH_RX j 0).wr Reg.LK_STATUS_WIDTH_TX j 0).each (List.range 8) fun s g => s.wr Reg.LK_GROUP_RETIRED j 1 g

theorem showUntrained_onlyRegs (s : State) (j : Nat) : s.OnlyRegs (s.showUntrained j) :=
  .trans ⟨_, rfl⟩ (.each (fun s g => .wr s Reg.LK_GROUP_RETIRED j 1 g) (List.range 8) _)

namespace State.SameLinkStatus

theorem untrainedGroups {i j : Nat} (hi : i < 2 ^ 16) (small : j < 576) (s : State) :
    SameLinkStatus i s (s.each (List.range 8) fun s g => s.wr Reg.LK_GROUP_RETIRED j 1 g) :=
  each (fun _ hg _ => wr _ _ (.inr (.inr (by decide))) hi (by omega) ((List.mem_range.1 hg).trans (by decide))) s

theorem showUntrained {i j : Nat} (hi : i < 2 ^ 16) (s : State) (other : j ≠ i) (small : j < 576) :
    SameLinkStatus i s (s.showUntrained j) := by
  unfold State.showUntrained
  refine trans ?_ (untrainedGroups hi small _)
  refine trans ?_ (far hi _ _ other small (by decide))
  refine trans ?_ (far hi _ _ other small (by decide))
  refine trans ?_ (far hi _ _ other small (by decide))
  refine trans ?_ (far hi _ _ other small (by decide))
  exact far hi s _ other small (by decide)

end State.SameLinkStatus

theorem rd_showUntrained (s : State) {j : Nat} (small : j < 576) : let u := s.showUntrained j
    u.rd Reg.LK_STATUS_STATE j = 3 ∧ u.rd Reg.LK_STATUS_WIDTH_RX j = 0 ∧ u.rd Reg.LK_STATUS_GRP_RETIRED_TX j = 255 := by
  have groups := State.SameLinkStatus.untrainedGroups (i := j) (by omega) small
  refine ⟨(groups _ _ rfl rfl (by decide)).trans ?_, (groups _ _ rfl rfl (by decide)).trans ?_, (groups _ _ rfl rfl (by decide)).trans ?_⟩
  all_goals
    simp (disch := decide) only [rd_wr_of_bit_ne, rd_wr_self]
    rfl

/-- The state in which a link's training is over and both ends show it as retired. -/
def State.endsUntrained (s : State) (t l : Nat) : State :=
  (s.setLnk { s.lnk with tries := mset 0 s.lnk.tries (linkInst t l) 0, merged := mset ([], []) s.lnk.merged (linkInst t l) ([], [])
                         mergedG := mset 0 s.lnk.mergedG (linkInst t l) 0 }).each (linkEnds t l) State.showUntrained

/-- The state in which the groups of a tile edge have entered the lane history (R315). -/
def State.groupsUntrained (s : State) (t l : Nat) : State :=
  let keys (d : Nat) : List Nat := (List.range 8).map (d * 8 + ·)
  s.setLnk { s.lnk with grpHist := (s.lnk.grpHist ++ keys (dirKey t l true) ++ keys (dirKey t l false)).dedup }

theorem groupsUntrained_regs (s : State) (t l : Nat) : (s.groupsUntrained t l).regs = s.regs := rfl

/-- The state in which the outputs of both ends have no groups. -/
def State.outputsUntrained (s : State) (t l : Nat) : State :=
  s.each (linkEnds t l) fun s j => (s.wr Reg.SCH_LINK_RETIRED (j / 16) 255 (j % 16)).wr Reg.SCH_LINK_DYN_GROUPS (j / 16) 0 (j % 16)

theorem untrained_of_no_vats {s w : State} {t l : Nat} (edge : l < 4) (hw : w = (s.endsUntrained t l).groupsUntrained t l)
    (vats : (w.edgeInvalid t l).2 = []) : s.untrained t l = (w.edgeInvalid t l).1.outputsUntrained t l := by
  have open_ : s.untrained t l = if (w.edgeInvalid t l).2 = [] then (w.edgeInvalid t l).1.outputsUntrained t l
      else ((w.edgeInvalid t l).1.outputsUntrained t l).recEach (w.edgeInvalid t l).2
        { type := evLinkInvalid, tile := t, d0 := linkDetail l 7 } := by
    subst hw
    exact if_neg (Nat.not_le.2 edge)
  rw [open_, if_pos vats]

theorem outputsUntrained_onlyRegs (s : State) (t l : Nat) : s.OnlyRegs (s.outputsUntrained t l) :=
  .each (fun _ _ => ⟨_, rfl⟩) _ s

theorem endsUntrained_sch (s : State) (t l : Nat) : (s.endsUntrained t l).sch = s.sch :=
  (State.OnlyRegs.each showUntrained_onlyRegs _ _).sch

theorem endsUntrained_tries (s : State) (t l : Nat) : mget 0 (s.endsUntrained t l).lnk.tries (linkInst t l) = 0 := by
  rw [State.endsUntrained, (State.OnlyRegs.each showUntrained_onlyRegs _ _).lnk]
  exact mget_mset_self 0 s.lnk.tries _ 0

section
variable {s : State} {t l : Nat} (tile : t < 36) (link : l < 11)
include tile link

theorem rd_endsUntrained : let u := s.endsUntrained t l; let i := linkInst t l
    u.rd Reg.LK_STATUS_STATE i = 3 ∧ u.rd Reg.LK_STATUS_WIDTH_RX i = 0 ∧ u.rd Reg.LK_STATUS_GRP_RETIRED_TX i = 255 := by
  have ends := fun s => State.SameLinkStatus.linkEnds (tile := t) (l := l) (f := State.showUntrained) s fun j mem x =>
    .showUntrained (linkInst_lt tile link) x (mem_farEnds tile mem).1 (mem_farEnds tile mem).2
  have reads := fun s => rd_showUntrained s (j := linkInst t l) (by unfold linkInst; omega)
  unfold State.endsUntrained
  generalize s.setLnk _ = u
  obtain ⟨state, width, tx⟩ := reads u
  exact ⟨(ends u _ rfl rfl (by decide)).trans state, (ends u _ rfl rfl (by decide)).trans width, (ends u _ rfl rfl (by decide)).trans tx⟩

theorem State.SameLinkStatus.outputsUntrained (s : State) : State.SameLinkStatus (linkInst t l) s (s.outputsUntrained t l) := by
  have hi := linkInst_lt tile link
  refine .each (fun j mem y => ?_) s
  have := mem_linkEnds_lt tile link mem
  exact .trans (.sched hi y _ rfl (by omega) (by omega)) (.sched hi _ _ rfl (by omega) (by omega))

end

/-- Without a loaded schedule an edge that is retired names no vat, and its record stands as retired. -/
theorem untrained_of_edge {s : State} {t l : Nat} (tile : t < 36) (edge : l < 4) (none : s.sch.images = []) :
    let u := s.untrained t l; let i := linkInst t l
    u.rd Reg.LK_STATUS_STATE i = 3 ∧ u.rd Reg.LK_STATUS_WIDTH_RX i = 0 ∧ u.rd Reg.LK_STATUS_GRP_RETIRED_TX i = 255 ∧
      mget 0 u.lnk.tries i = 0 := by
  have link : l < 11 := edge.trans (by decide)
  obtain ⟨state, width, tx⟩ := rd_endsUntrained (s := s) tile link
  have tries := endsUntrained_tries s t l
  have images : ((s.endsUntrained t l).groupsUntrained t l).sch.images = [] := (congrArg Sched.images (endsUntrained_sch s t l)).trans none
  obtain ⟨vats, -, kept, same⟩ := edgeInvalid_of_no_images images tile edge (linkInst_lt tile link)
  intro u i
  simp only [u, untrained_of_no_vats edge rfl vats]
  have all := (State.SameLinkStatus.of_regs (groupsUntrained_regs (s.endsUntrained t l) t l)).trans
    (same.trans (.outputsUntrained tile link _))
  refine ⟨(all _ rfl rfl (by decide)).trans state, (all _ rfl rfl (by decide)).trans width, (all _ rfl rfl (by decide)).trans tx, ?_⟩
  rw [(outputsUntrained_onlyRegs ..).lnk, kept]
  exact tries

/-! ### An attempt (R317 to R319) -/

/-- The state in which both ends of a link show that its next attempt has begun. -/
def State.beginAttempt (s : State) (t l : Nat) : State :=
  let n := mget 0 s.lnk.tries (linkInst t l) + 1
  let s := if n = 1 then s.each (linkEnds t l) fun s j => (s.bump Reg.LK_STATUS_TRAINS j).wr Reg.LK_STATUS_DISAGREED j 0 else s
  s.each (linkEnds t l) fun s j => (s.wr Reg.LK_STATUS_ATTEMPT j n).wr Reg.LK_STATUS_STATE j 1

theorem beginAttempt_onlyRegs (s : State) (t l : Nat) : s.OnlyRegs (s.beginAttempt t l) := by
  unfold State.beginAttempt
  extract_lets n u
  have marks : s.OnlyRegs u := by
    simp only [u]
    split
    · exact .each (fun _ _ => ⟨_, rfl⟩) _ s
    · exact .refl s
  exact marks.trans (.each (fun _ _ => ⟨_, rfl⟩) _ u)

theorem rd_beginAttempt (s : State) {t l : Nat} (tile : t < 36) (link : l < 11) : let u := s.beginAttempt t l; let i := linkInst t l
    u.rd Reg.LK_STATUS_ATTEMPT i = (mget 0 s.lnk.tries i + 1) % 4 ∧ u.rd Reg.LK_STATUS_STATE i = 1 := by
  have hi := linkInst_lt tile link
  unfold State.beginAttempt
  extract_lets n u v i
  have ends : State.SameLinkStatus i ((u.wr Reg.LK_STATUS_ATTEMPT i n).wr Reg.LK_STATUS_STATE i 1) v := .linkEnds u fun j mem x =>
    (.trans (.far hi x _ (mem_farEnds tile mem).1 (mem_farEnds tile mem).2 (by decide))
      (.far hi _ _ (mem_farEnds tile mem).1 (mem_farEnds tile mem).2 (by decide)))
  refine ⟨(ends _ rfl rfl (by decide)).trans ?_, (ends _ rfl rfl (by decide)).trans (rd_wr_self ..)⟩
  rw [rd_wr_of_bit_ne _ _ _ _ _ _ _ _ (by decide) (by decide) (by decide), rd_wr_self]
  rfl

/-- The state in which an attempt has begun and this end has sent its proposal. -/
def State.proposed (s : State) (t l : Nat) (own : Proposal) : State :=
  let u := s.beginAttempt t l
  u.setLnk { u.lnk with props := mset none u.lnk.props (linkInst t l) (some own) }

theorem State.OnlyRegs.proposal {s u : State} (h : s.OnlyRegs u) (t l n : Nat) (found : List Nat) (reset : Bool) :
    u.proposal t l n found reset = s.proposal t l n found reset := by
  obtain ⟨_, rfl⟩ := h
  rfl

theorem proposed_sch (s : State) (t l : Nat) (own : Proposal) : (s.proposed t l own).sch = s.sch := (beginAttempt_onlyRegs s t l).sch

/-- The state in which so many attempts of a link have failed. -/
def State.failedTries (s : State) (i n : Nat) : State := s.setLnk { s.lnk with tries := mset 0 s.lnk.tries i n }

theorem rd_failedTries (s : State) (i n : Nat) (f : Fld) (j k : Nat) : (s.failedTries i n).rd f j k = s.rd f j k := rfl

theorem failedTries_tries (s : State) (i n : Nat) : mget 0 (s.failedTries i n).lnk.tries i = n := mget_mset_self 0 s.lnk.tries i n

theorem saveStored_lnk (s : State) : s.saveStored.lnk = s.lnk := rfl

/-- An attempt that has failed and is not the last one: the link shows its number and stays in training. -/
theorem rd_failedAttempt (s : State) {t l n : Nat} (tile : t < 36) (link : l < 11) (own : Proposal)
    (number : mget 0 s.lnk.tries (linkInst t l) + 1 = n) (few : n < 3) :
    let u := (s.proposed t l own).failedTries (linkInst t l) n; let i := linkInst t l
    u.rd Reg.LK_STATUS_ATTEMPT i = n ∧ u.rd Reg.LK_STATUS_STATE i = 1 ∧ mget 0 u.lnk.tries i = n := by
  obtain ⟨attempt, state⟩ := rd_beginAttempt s tile link
  intro u i
  simp only [u, i, rd_failedTries, failedTries_tries, State.proposed, rd_setLnk, attempt, state, number, and_true]
  exact Nat.mod_eq_of_lt (by omega)

section
variable {s : State} {t l : Nat} {p : TrainIn} (may : s.mayTrain t l = true)
include may

/-- No proposal arrived: the third such attempt retires the link, the others are counted. -/
theorem doTraining_of_silence (silent : p.peer = none) : ∃ own, let n := mget 0 s.lnk.tries (linkInst t l) + 1; let u := s.proposed t l own
    s.doTraining t l p = if 3 ≤ n then (if l < 4 then (u.untrained t l).saveStored else (u.untrained t l).dieUntrained t (l - 4))
      else u.failedTries (linkInst t l) n := by
  refine ⟨(s.beginAttempt t l).proposal t l (mget 0 s.lnk.tries (linkInst t l) + 1) p.ownBad (p.ownReset && decide (l < 4)), ?_⟩
  rw [State.doTraining, may, silent]
  rfl

/-- Both proposals are sound and agree, and the test flits pass: an edge comes up with its own proposal. -/
theorem doTraining_of_agreement (edge : l < 4) {q own : Proposal} (answer : p.peer = some q) (good : propGood q (groupLanes l) = true)
    (flits : p.flitsOk = true) (hown : own = s.proposal t l (mget 0 s.lnk.tries (linkInst t l) + 1) p.ownBad p.ownReset)
    (agrees : propAgrees own q = true) : s.doTraining t l p = ((s.proposed t l own).trained t l own.badRx own.badTx
      (setBits (255 - own.groupsRx.toNat)) (setBits (255 - own.groupsTx.toNat))).saveStored := by
  have same : (s.beginAttempt t l).proposal t l (mget 0 s.lnk.tries (linkInst t l) + 1) p.ownBad (p.ownReset && decide (l < 4)) = own := by
    rw [(beginAttempt_onlyRegs s t l).proposal, hown, decide_eq_true edge, Bool.and_true]
  have up : s.doTraining t l p = (s.proposed t l own).linkUp t l own := by
    have passes : ((p.peer.filter fun q => propGood q (groupLanes l)).any (propAgrees own) && p.flitsOk) = true := by
      simp [answer, good, agrees, flits]
    rw [← same] at passes ⊢
    rw [State.doTraining, may]
    exact (if_neg (by decide)).trans (if_pos passes)
  rw [up]
  exact if_pos edge

end

theorem maskOf_setBits_lt (m : Nat) : maskOf (setBits m) < 256 := by
  have bound : maskOf (setBits m) ≤ maskOf (List.range 8) :=
    List.Sublist.sum_le_sum ((List.filter_sublist (l := List.range 8)).map _) fun _ _ => Nat.zero_le _
  exact bound.trans_lt (by decide)

end Sys2Proof.Machine
end

section
/-! PROOFS. Express links and their light (11.5, R322 to R328): a link that ends its training, what a cartridge's state shows, the hand-over
to its partner, and a cartridge that is inserted; and the statement on training and light. -/

namespace Sys2Proof.Machine

/-! ### Express links (R322, R323) -/

/-- A write leaves the other words of every record of its block. -/
theorem rd_wr_of_word_ne (s : State) (f g : Fld) (i v j : Nat) (hf : f.off < 2 ^ 20 ∧ f.lo < 64) (hg : g.off < 2 ^ 20 ∧ g.lo < 64)
    (ne : f.off ≠ g.off) : (s.wr f i v).rd g j = s.rd g j := by
  apply rd_wr_ne
  simp only [fkey]
  omega

/-- A loop that writes one value reads it in every record that it names. -/
theorem rd_each_wr_of_mem {f : Fld} (place : f.off * 64 + f.lo < 2 ^ 26) (v : Nat) {l : List Nat} {i : Nat} (mem : i ∈ l) (s : State) :
    (s.each l fun s j => s.wr f j v).rd f i = v % 2 ^ f.w := by
  obtain ⟨a, b, rfl⟩ := List.append_of_mem mem
  simp only [State.each, List.foldl_append, List.foldl_cons]
  refine List.foldlRecOn (motive := fun u : State => u.rd f i = v % 2 ^ f.w) b _ (rd_wr_self ..) fun u h j _ => ?_
  by_cases same : j = i
  · rw [same]
    exact rd_wr_self ..
  · exact (rd_wr_of_inst_ne u f f v 0 0 rfl (by simpa using place) (by simpa using place) same).trans h

theorem xpInst_mem_expressEnds (t : Nat) (col : Bool) : xpInst t (if col then 2 else 0) ∈ expressEnds t col := by
  simp [expressEnds]

theorem rd_retireExpress_state (s : State) (t : Nat) (col : Bool) {st : Nat} (small : st < 8) :
    (s.retireExpress t col st).rd Reg.XP_STATUS_STATE (xpInst t (if col then 2 else 0)) = st :=
  (rd_each_wr_of_mem (f := Reg.XP_STATUS_STATE) (by decide) st (xpInst_mem_expressEnds t col) s).trans (Nat.mod_eq_of_lt small)

theorem rd_retireExpress_live (s : State) (t : Nat) (col : Bool) (st j : Nat) :
    (s.retireExpress t col st).rd Reg.XP_CHAN_LIVE j = s.rd Reg.XP_CHAN_LIVE j :=
  each_keeps (fun u => u.rd Reg.XP_CHAN_LIVE j = s.rd Reg.XP_CHAN_LIVE j) _
    (fun u i h => (rd_wr_of_word_ne u Reg.XP_STATUS_STATE Reg.XP_CHAN_LIVE i st j (by decide) (by decide) (by decide)).trans h) _ s rfl

/-- The state in which both ends of an express link show the live channels of its two directions. -/
def State.liveShown (s : State) (t n b tx rx : Nat) : State :=
  (((s.wr Reg.XP_CHAN_LIVE (xpInst t b) tx).wr Reg.XP_CHAN_LIVE (xpInst n (b + 1)) tx).wr Reg.XP_CHAN_LIVE (xpInst t (b + 1)) rx).wr
    Reg.XP_CHAN_LIVE (xpInst n b) rx

theorem rd_liveShown (s : State) {t n b tx rx : Nat} (other : n ≠ t) (htx : tx < 2 ^ 32) (hrx : rx < 2 ^ 32) :
    (s.liveShown t n b tx rx).rd Reg.XP_CHAN_LIVE (xpInst t b) = tx ∧
      (s.liveShown t n b tx rx).rd Reg.XP_CHAN_LIVE (xpInst t (b + 1)) = rx := by
  have step (u : State) (v : Nat) {i j : Nat} (ne : i ≠ j) : (u.wr Reg.XP_CHAN_LIVE i v).rd Reg.XP_CHAN_LIVE j = u.rd Reg.XP_CHAN_LIVE j :=
    rd_wr_of_inst_ne u _ _ v 0 0 rfl (by decide) (by decide) ne
  unfold State.liveShown xpInst
  constructor
  · rw [step _ _ (by omega), step _ _ (by omega), step _ _ (by omega), rd_wr_self]
    exact Nat.mod_eq_of_lt htx
  · rw [step _ _ (by omega), rd_wr_self]
    exact Nat.mod_eq_of_lt hrx

theorem doExpressRetrain_of_training {s : State} {t n : Nat} {col : Bool} (next : neighbour t (if col then 5 else 4) = some n)
    (training : s.rd Reg.XP_STATUS_STATE (xpInst t (if col then 2 else 0)) = 1) (near : s.vlnk t = true) (far : s.vlnk n = true)
    (tx rx : Nat) : s.doExpressRetrain t col tx rx = (s.liveShown t n (if col then 2 else 0) tx rx).retireExpress t col
      (if 16 ≤ popcount tx 32 ∧ 16 ≤ popcount rx 32 then 2 else 3) := by
  unfold State.doExpressRetrain
  dsimp only
  rw [next]
  exact if_neg (by simp [training, near, far])

/-! ### Cartridges (Table 11.5) -/

theorem partner_spec : ∀ c : Fin 4, partner c.val ≠ c.val ∧ partner c.val < 4 := by decide

/-- The fields that a cartridge's new state writes. -/
def cartFlds : List Fld := [Reg.LS_CART_STATE, Reg.LS_CART_OUTPUT, Reg.LS_CART_LOCKED, Reg.LS_CART_HOURS]

theorem cartFlds_place : ∀ f ∈ cartFlds, f.blk = .laser ∧ f.off < 16 ∧ f.step = 16 ∧ f.lo < 64 := by decide

section
variable (s : State) (c st out : Nat)

theorem rd_setCart_of_key_ne {g : Fld} {j m : Nat} (ne : ∀ f ∈ cartFlds, fkey f 0 c ≠ fkey g j m) :
    (s.setCart c st out).rd g j m = s.rd g j m := by
  simp only [cartFlds, List.mem_cons, List.not_mem_nil, or_false, forall_eq_or_imp, forall_eq] at ne
  obtain ⟨state, output, locked, hours⟩ := ne
  unfold State.setCart
  dsimp only
  rw [rd_wr_ne _ _ _ _ _ _ _ _ locked, rd_wr_ne _ _ _ _ _ _ _ _ output, rd_wr_ne _ _ _ _ _ _ _ _ state]
  split
  · rfl
  · exact rd_wr_ne _ _ _ _ _ _ _ _ hours

/-- Another cartridge's record stands. -/
theorem rd_setCart_of_other {g : Fld} {d : Nat} (ne : c ≠ d) (place : g.blk = .laser ∧ g.off < 16 ∧ g.step = 16 ∧ g.lo < 64) :
    (s.setCart c st out).rd g 0 d = s.rd g 0 d := by
  refine rd_setCart_of_key_ne s c st out fun f hf => ?_
  obtain ⟨block, off, step, lo⟩ := place
  obtain ⟨block', off', step', lo'⟩ := cartFlds_place f hf
  simp only [fkey, block, block', step, step']
  omega

/-- So do the fields at other bits of its own, INTERLOCK, TAKEOVERS and SERIAL. -/
theorem rd_setCart_of_bit_ne {g : Fld} (lo : g.lo < 64) (ne : ∀ f ∈ cartFlds, f.lo ≠ g.lo) (j m : Nat) :
    (s.setCart c st out).rd g j m = s.rd g j m := by
  refine rd_setCart_of_key_ne s c st out fun f hf => ?_
  have other := ne f hf
  obtain ⟨-, -, -, lo'⟩ := cartFlds_place f hf
  simp only [fkey]
  omega

theorem setCart_frame : ∃ r m, s.setCart c st out = { s with regs := r, lnk := { s.lnk with laserOn := m } } := by
  have writes {u : State} (before : s.OnlyRegs u) (on : FMap Nat) (locked : Nat) : ∃ r m,
      ((State.wr { u with lnk := { u.lnk with laserOn := on } } Reg.LS_CART_STATE 0 st c).wr Reg.LS_CART_OUTPUT 0 out c).wr
        Reg.LS_CART_LOCKED 0 locked c = { s with regs := r, lnk := { s.lnk with laserOn := m } } := by
    obtain ⟨r, rfl⟩ := before
    exact ⟨_, _, rfl⟩
  unfold State.setCart
  dsimp only
  split
  · exact writes (.refl s) _ _
  · exact writes (.wr ..) _ _

@[simp] theorem setCart_bays : (s.setCart c st out).lnk.bays = s.lnk.bays := by
  obtain ⟨r, m, frame⟩ := setCart_frame s c st out
  rw [frame]

@[simp] theorem setCart_free : (s.setCart c st out).free = s.free := by
  obtain ⟨r, m, frame⟩ := setCart_frame s c st out
  rw [frame]

theorem rd_setCart_self : (s.setCart c st out).rd Reg.LS_CART_STATE 0 c = st % 8 ∧
    (s.setCart c st out).rd Reg.LS_CART_OUTPUT 0 c = out % 128 := by
  unfold State.setCart
  dsimp only
  simp (disch := decide) only [rd_wr_of_bit_ne, rd_wr_self]
  exact ⟨rfl, rfl⟩

end

/-! ### A partner takes over (R325, R326, R328) -/

/-- The state in which a cartridge no longer delivers light and its partner carries the load. -/
def State.handOver (s : State) (c st : Nat) : State :=
  let u := ((s.setCart c st 0).setCart (partner c) 3 100).bump Reg.LS_CART_TAKEOVERS 0 1 (partner c)
  u.setLnk { u.lnk with takeover := mset 0 u.lnk.takeover (c / 2) (u.now + 1) }

section
variable {s : State} {c : Fin 4}

theorem cartOff_of_sharing (shares : s.rd Reg.LS_CART_STATE 0 c.val = 2) (both : s.rd Reg.LS_CART_STATE 0 (partner c.val) = 2) (st : Nat) :
    s.cartOff c.val st = (s.handOver c.val st, false) := by
  obtain ⟨other, -⟩ := partner_spec c
  have kept := (rd_setCart_of_other s c.val st 0 (g := Reg.LS_CART_STATE) other.symm (by decide)).trans both
  unfold State.cartOff
  dsimp only
  rw [kept]
  simp only [State.lit, shares, beq_self_eq_true, Bool.true_or, Bool.not_true, Bool.false_eq_true, if_false, if_true]
  rfl

theorem rd_handOver (s : State) (c : Fin 4) {st : Nat} (small : st < 8) : let u := s.handOver c.val st; let q := partner c.val
    u.rd Reg.LS_CART_STATE 0 c.val = st ∧ u.rd Reg.LS_CART_STATE 0 q = 3 ∧ u.rd Reg.LS_CART_OUTPUT 0 q = 100 ∧
      u.rd Reg.LS_CART_INTERLOCK 0 c.val = s.rd Reg.LS_CART_INTERLOCK 0 c.val := by
  obtain ⟨other, -⟩ := partner_spec c
  have count (u : State) (g : Fld) (lo : g.lo < 64) (ne : g.lo ≠ 32) (d : Nat) :
      (u.bump Reg.LS_CART_TAKEOVERS 0 1 (partner c.val)).rd g 0 d = u.rd g 0 d :=
    rd_wr_of_bit_ne u Reg.LS_CART_TAKEOVERS g _ _ _ _ _ (by decide) lo ne.symm
  obtain ⟨state, -⟩ := rd_setCart_self s c.val st 0
  obtain ⟨state', output'⟩ := rd_setCart_self (s.setCart c.val st 0) (partner c.val) 3 100
  unfold State.handOver
  simp (disch := decide) only [rd_setLnk, count]
  refine ⟨(rd_setCart_of_other _ _ _ _ other (by decide)).trans (state.trans (Nat.mod_eq_of_lt small)), state', output', ?_⟩
  exact (rd_setCart_of_bit_ne _ _ _ _ (by decide) (by decide) _ _).trans (rd_setCart_of_bit_ne _ _ _ _ (by decide) (by decide) _ _)

theorem handOver_bays (s : State) (c st : Nat) : (s.handOver c st).lnk.bays = s.lnk.bays := by
  simp only [State.handOver, State.setLnk, bump_lnk, setCart_bays]

theorem doCartFault_of_sharing (shares : s.rd Reg.LS_CART_STATE 0 c.val = 2) (both : s.rd Reg.LS_CART_STATE 0 (partner c.val) = 2) :
    s.doCartFault c.val = (s.handOver c.val 5).faultRec { type := evLaser, d0 := c.val } := by
  rw [State.doCartFault, cartOff_of_sharing shares both, shares]
  exact if_neg (by decide)

theorem doCartRelease_of_sharing (shares : s.rd Reg.LS_CART_STATE 0 c.val = 2) (both : s.rd Reg.LS_CART_STATE 0 (partner c.val) = 2)
    (plain : bitOf (s.rd Reg.LS_CTL_RELEASE 0) c.val = false) : s.doCartRelease c.val = s.handOver c.val 4 := by
  simp only [State.doCartRelease, plain, Bool.false_eq_true, if_false, if_pos both, cartOff_of_sharing shares both]

/-- The state in which a cartridge has been pulled from its bay. -/
def State.pulled (s : State) (c : Nat) : State :=
  (s.setLnk { s.lnk with bays := s.lnk.bays.filter (· != c) }).wr Reg.LS_CART_INTERLOCK 0 0 c

theorem rd_pulled_state (s : State) (c d : Nat) : (s.pulled c).rd Reg.LS_CART_STATE 0 d = s.rd Reg.LS_CART_STATE 0 d :=
  rd_wr_of_bit_ne _ Reg.LS_CART_INTERLOCK Reg.LS_CART_STATE _ _ _ _ _ (by decide) (by decide) (by decide)

theorem doInterlock_of_sharing (shares : s.rd Reg.LS_CART_STATE 0 c.val = 2) (both : s.rd Reg.LS_CART_STATE 0 (partner c.val) = 2)
    (present : s.lnk.bays.contains c.val = true) : s.doInterlock c.val = (s.pulled c.val).handOver c.val 0 := by
  have off := cartOff_of_sharing ((rd_pulled_state s c.val c.val).trans shares) ((rd_pulled_state s c.val _).trans both) 0
  simp only [State.pulled] at off
  simp only [State.doInterlock, present, Bool.not_true, Bool.false_eq_true, if_false, off]
  rfl

theorem pulled_bays (s : State) (c : Nat) : (s.pulled c).lnk.bays.contains c = false := by
  simp [State.pulled, State.setLnk]

/-! ### A cartridge is inserted (R328) -/

/-- The state in which a cartridge is in its bay, with its own counts. -/
def State.cartPut (s : State) (c serial : Nat) : State :=
  let u := s.setLnk { s.lnk with bays := s.lnk.bays ++ [c] }
  (((u.draw.2.draw.2.draw.2.wr Reg.LS_CART_SERIAL 0 serial c).wr Reg.LS_CART_HOURS 0 u.draw.1.toNat c).wr Reg.LS_CART_TAKEOVERS 0
    u.draw.2.draw.1.toNat c).wr Reg.LS_CART_INTERLOCK 0 1 c

theorem cartPut_free (s : State) (c serial : Nat) : (s.cartPut c serial).free = s.free + 3 := rfl

theorem putCart_eq (s : State) (c serial : Nat) : ∃ out, s.putCart c serial =
    if (s.cartPut c serial).rd Reg.BU_STATUS_STATE 0 < 2 then (s.cartPut c serial).setCart c 4 0
    else (s.cartPut c serial).setCart c 1 out := ⟨_, rfl⟩

theorem rd_cartPut_of_key_ne (s : State) (c serial : Nat) {g : Fld} {j m : Nat} (number : fkey Reg.LS_CART_SERIAL 0 c ≠ fkey g j m)
    (hours : fkey Reg.LS_CART_HOURS 0 c ≠ fkey g j m) (takeovers : fkey Reg.LS_CART_TAKEOVERS 0 c ≠ fkey g j m)
    (interlock : fkey Reg.LS_CART_INTERLOCK 0 c ≠ fkey g j m) : (s.cartPut c serial).rd g j m = s.rd g j m := by
  unfold State.cartPut
  dsimp only
  rw [rd_wr_ne _ _ _ _ _ _ _ _ interlock, rd_wr_ne _ _ _ _ _ _ _ _ takeovers, rd_wr_ne _ _ _ _ _ _ _ _ hours,
    rd_wr_ne _ _ _ _ _ _ _ _ number]
  rfl

theorem rd_cartPut_state (s : State) (c serial d : Nat) : (s.cartPut c serial).rd Reg.LS_CART_STATE 0 d = s.rd Reg.LS_CART_STATE 0 d := by
  apply rd_cartPut_of_key_ne
  all_goals
    simp only [fkey, Reg.LS_CART_SERIAL, Reg.LS_CART_HOURS, Reg.LS_CART_TAKEOVERS, Reg.LS_CART_INTERLOCK, Reg.LS_CART_STATE]
    omega

theorem rd_cartPut_buStatus (s : State) (c : Fin 4) (serial : Nat) :
    (s.cartPut c.val serial).rd Reg.BU_STATUS_STATE 0 = s.rd Reg.BU_STATUS_STATE 0 := by
  apply rd_cartPut_of_key_ne
  all_goals
    simp only [fkey, Reg.LS_CART_SERIAL, Reg.LS_CART_HOURS, Reg.LS_CART_TAKEOVERS, Reg.LS_CART_INTERLOCK, Reg.BU_STATUS_STATE, blkNum]
    omega

theorem rd_cartPut_serial (s : State) (c : Nat) (serial : BitVec 32) :
    (s.cartPut c serial.toNat).rd Reg.LS_CART_SERIAL 0 c = serial.toNat := by
  have apart (f : Fld) (ne : f ∈ [Reg.LS_CART_HOURS, Reg.LS_CART_TAKEOVERS, Reg.LS_CART_INTERLOCK]) :
      fkey f 0 c ≠ fkey Reg.LS_CART_SERIAL 0 c := by
    simp only [List.mem_cons, List.not_mem_nil, or_false] at ne
    rcases ne with rfl | rfl | rfl
    all_goals
      simp only [fkey, Reg.LS_CART_HOURS, Reg.LS_CART_TAKEOVERS, Reg.LS_CART_INTERLOCK, Reg.LS_CART_SERIAL]
      omega
  unfold State.cartPut
  dsimp only
  rw [rd_wr_ne _ _ _ _ _ _ _ _ (apart Reg.LS_CART_INTERLOCK (by simp)), rd_wr_ne _ _ _ _ _ _ _ _ (apart Reg.LS_CART_TAKEOVERS (by simp)),
    rd_wr_ne _ _ _ _ _ _ _ _ (apart Reg.LS_CART_HOURS (by simp)), rd_wr_self]
  exact Nat.mod_eq_of_lt serial.isLt

/-- On a module that runs a cartridge warms in its bay. -/
theorem putCart_of_driven (driven : 2 ≤ s.rd Reg.BU_STATUS_STATE 0) (serial : BitVec 32) : let u := s.putCart c.val serial.toNat
    u.rd Reg.LS_CART_SERIAL 0 c.val = serial.toNat ∧ u.free = s.free + 3 ∧ u.rd Reg.LS_CART_STATE 0 c.val = 1 ∧
      u.rd Reg.LS_CART_INTERLOCK 0 c.val = 1 ∧ u.rd Reg.LS_CART_STATE 0 (partner c.val) = s.rd Reg.LS_CART_STATE 0 (partner c.val) := by
  obtain ⟨out, put⟩ := putCart_eq s c.val serial.toNat
  have on : ¬(s.cartPut c.val serial.toNat).rd Reg.BU_STATUS_STATE 0 < 2 := by
    rw [rd_cartPut_buStatus]
    omega
  intro u
  simp only [u, put, if_neg on]
  refine ⟨?number, ?free, ?warms, ?interlock, ?other⟩
  case number => exact (rd_setCart_of_bit_ne _ _ _ _ (by decide) (by decide) _ _).trans (rd_cartPut_serial ..)
  case free => exact (setCart_free ..).trans (cartPut_free ..)
  case warms => exact (rd_setCart_self ..).1
  case interlock => exact (rd_setCart_of_bit_ne _ _ _ _ (by decide) (by decide) _ _).trans (rd_wr_self _ Reg.LS_CART_INTERLOCK 0 1 c.val)
  case other => exact (rd_setCart_of_other _ _ _ _ (partner_spec c).1.symm (by decide)).trans (rd_cartPut_state ..)

theorem doCartInsert_of_absent (absent : s.lnk.bays.contains c.val = false) (serial : Nat) (locked : Bool) :
    s.doCartInsert c.val serial locked = if locked && (s.putCart c.val serial).rd Reg.LS_CART_STATE 0 c.val == 1
      then (s.putCart c.val serial).cartOn c.val else s.putCart c.val serial := by
  simp only [State.doCartInsert, absent, Bool.false_eq_true, if_false]

/-- A cartridge that locks beside one that carries the load alone shares it. -/
theorem cartOn_of_sole (sole : s.rd Reg.LS_CART_STATE 0 (partner c.val) = 3) : let u := s.cartOn c.val
    u.rd Reg.LS_CART_SERIAL 0 c.val = s.rd Reg.LS_CART_SERIAL 0 c.val ∧ u.free = s.free ∧ u.rd Reg.LS_CART_STATE 0 c.val = 2 ∧
      u.rd Reg.LS_CART_OUTPUT 0 c.val = 60 ∧ u.rd Reg.LS_CART_STATE 0 (partner c.val) = 2 ∧
      u.rd Reg.LS_CART_OUTPUT 0 (partner c.val) = 60 := by
  obtain ⟨other, -⟩ := partner_spec c
  have lit : (s.wr Reg.LS_CART_INTERLOCK 0 1 c.val).lit (partner c.val) = true := by
    have kept := (rd_wr_of_bit_ne s Reg.LS_CART_INTERLOCK Reg.LS_CART_STATE 0 1 c.val 0 (partner c.val) (by decide) (by decide)
      (by decide)).trans sole
    simp [State.lit, kept]
  have on : s.cartOn c.val = ((s.wr Reg.LS_CART_INTERLOCK 0 1 c.val).setCart c.val 2 60).setCart (partner c.val) 2 60 := if_pos lit
  obtain ⟨state, output⟩ := rd_setCart_self (s.wr Reg.LS_CART_INTERLOCK 0 1 c.val) c.val 2 60
  obtain ⟨state', output'⟩ := rd_setCart_self ((s.wr Reg.LS_CART_INTERLOCK 0 1 c.val).setCart c.val 2 60) (partner c.val) 2 60
  intro u
  simp only [u, on]
  refine ⟨?number, ?free, ?state, ?output, state', output'⟩
  case number =>
    exact (rd_setCart_of_bit_ne _ _ _ _ (by decide) (by decide) _ _).trans ((rd_setCart_of_bit_ne _ _ _ _ (by decide) (by decide) _ _).trans
      (rd_wr_of_bit_ne _ Reg.LS_CART_INTERLOCK _ _ _ _ _ _ (by decide) (by decide) (by decide)))
  case free => exact (setCart_free ..).trans (setCart_free ..)
  case state => exact (rd_setCart_of_other _ _ _ _ other (by decide)).trans state
  case output => exact (rd_setCart_of_other _ _ _ _ other (by decide)).trans output

end

/-! ### The statement -/

section
variable {s : State} {t : Tile} {l : Fin 11} {p : TrainIn} (may : s.mayTrain t.val l.val = true)
include may

theorem exec_trainingAttempt_of_few (silent : p.peer = none) {n : Nat} (number : mget 0 s.lnk.tries (linkInst t.val l.val) + 1 = n)
    (few : n < 3) : let i := linkInst t.val l.val
    ∃ u, exec (.trainingAttempt t l p) s = .next u ∧ u.rd Reg.LK_STATUS_ATTEMPT i = n ∧ u.rd Reg.LK_STATUS_STATE i = 1 ∧
      mget 0 u.lnk.tries i = n := by
  obtain ⟨own, attempt⟩ := doTraining_of_silence may silent
  dsimp only at attempt
  rw [number, if_neg (by omega)] at attempt
  exact ⟨_, congrArg Host.Outcome.next attempt, rd_failedAttempt s t.isLt l.isLt own number few⟩

theorem exec_trainingAttempt_of_third (silent : p.peer = none) (third : mget 0 s.lnk.tries (linkInst t.val l.val) + 1 = 3)
    (edge : l.val < 4) (none : s.sch.images = []) : let i := linkInst t.val l.val
    ∃ u, exec (.trainingAttempt t l p) s = .next u ∧ u.rd Reg.LK_STATUS_STATE i = 3 ∧ u.rd Reg.LK_STATUS_WIDTH_RX i = 0 ∧
      u.rd Reg.LK_STATUS_GRP_RETIRED_TX i = 255 ∧ mget 0 u.lnk.tries i = 0 := by
  obtain ⟨own, attempt⟩ := doTraining_of_silence may silent
  dsimp only at attempt
  rw [third, if_pos le_rfl, if_pos edge] at attempt
  refine ⟨_, congrArg Host.Outcome.next attempt, ?_⟩
  simp only [rd_saveStored, saveStored_lnk]
  exact untrained_of_edge t.isLt edge ((congrArg Sched.images (proposed_sch ..)).trans none)

theorem exec_trainingAttempt_of_agreement (edge : l.val < 4) {q own : Proposal} (answer : p.peer = some q)
    (good : propGood q (groupLanes l.val) = true) (flits : p.flitsOk = true)
    (hown : own = s.proposal t.val l.val (mget 0 s.lnk.tries (linkInst t.val l.val) + 1) p.ownBad p.ownReset)
    (agrees : propAgrees own q = true) : let i := linkInst t.val l.val
    ∃ u, exec (.trainingAttempt t l p) s = .next u ∧ u.rd Reg.LK_STATUS_STATE i = 2 ∧
      u.rd Reg.LK_STATUS_WIDTH_RX i = 8 - (setBits (255 - own.groupsRx.toNat)).length ∧
      u.rd Reg.LK_STATUS_GRP_RETIRED_RX i = maskOf (setBits (255 - own.groupsRx.toNat)) ∧
      u.rd Reg.LK_STATUS_GRP_RETIRED_TX i = maskOf (setBits (255 - own.groupsTx.toNat)) ∧ mget 0 u.lnk.tries i = 0 := by
  refine ⟨_, congrArg Host.Outcome.next (doTraining_of_agreement may edge answer good flits hown agrees), ?_⟩
  simp only [rd_saveStored, saveStored_lnk]
  obtain ⟨state, width, rx, tx, tries⟩ := trained_of_edge (s := s.proposed t.val l.val own) t.isLt edge own.badRx own.badTx
    (setBits (255 - own.groupsRx.toNat)) (setBits (255 - own.groupsTx.toNat))
  exact ⟨state, width.trans (Nat.mod_eq_of_lt (by omega)), rx.trans (Nat.mod_eq_of_lt (maskOf_setBits_lt _)),
    tx.trans (Nat.mod_eq_of_lt (maskOf_setBits_lt _)), tries⟩

end

/-- Settles O35: attempts by `doTraining_of_silence` and `doTraining_of_agreement` with the records that the link then shows, light by the
lemmas on a cartridge that hands its load over and on one that is inserted. -/
theorem trainingAndLight : Obligations.TrainingAndLight := by
  unfold Obligations.TrainingAndLight
  intro s
  refine ⟨fun t l p may silent => ⟨exec_trainingAttempt_of_few may silent rfl, exec_trainingAttempt_of_third may silent⟩,
    fun t l p q may edge answer good flits => exec_trainingAttempt_of_agreement may edge answer good flits rfl,
    fun t col tx rx n next => ?express, fun c => ?light⟩
  case express =>
    intro b training near far
    obtain ⟨shownTx, shownRx⟩ := rd_liveShown s (t := t.val) (n := n) (b := b) (neighbour_spec t.isLt next).1 tx.isLt rx.isLt
    refine ⟨_, congrArg Host.Outcome.next (doExpressRetrain_of_training next training near far tx.toNat rx.toNat), ?_, ?_, ?_⟩
    · exact rd_retireExpress_state _ _ _ (by split <;> decide)
    · exact (rd_retireExpress_live ..).trans shownTx
    · exact (rd_retireExpress_live ..).trans shownRx
  case light =>
    intro q hand
    refine ⟨fun shares both => ⟨?fault, fun plain => ?release, fun present => ?pulled⟩, fun serial absent driven => ⟨?warms, fun sole => ?locks⟩⟩
    case fault => exact congrArg Host.Outcome.next (doCartFault_of_sharing shares both)
    case release => exact congrArg Host.Outcome.next (doCartRelease_of_sharing shares both plain)
    case pulled =>
      obtain ⟨own, state, output, interlock⟩ := rd_handOver (s.pulled c.val) c (st := 0) (by decide)
      refine ⟨_, congrArg Host.Outcome.next (doInterlock_of_sharing shares both present), ?_, ?_, own, state, output⟩
      · rw [handOver_bays]
        exact pulled_bays s c.val
      · exact interlock.trans (rd_wr_self ..)
    case warms =>
      obtain ⟨number, free, state, interlock, -⟩ := putCart_of_driven driven serial
      exact ⟨_, congrArg Host.Outcome.next (doCartInsert_of_absent absent serial.toNat false), number, free, state, interlock⟩
    case locks =>
      obtain ⟨number, free, state, interlock, other⟩ := putCart_of_driven driven serial
      obtain ⟨number', free', on⟩ := cartOn_of_sole (other.trans sole)
      exact ⟨_, congrArg Host.Outcome.next ((doCartInsert_of_absent absent serial.toNat true).trans (if_pos (by simp [state]))),
        number'.trans number, free'.trans free, on⟩

end Sys2Proof.Machine
end

section
/-! PROOFS. The warm fast path and the scopes of a reset (15.7, 15.8, R321, R450 to R457): which cores a compute reset runs on, what a cold
reset leaves, and the commands that bring the module back along the fast path. -/

namespace Sys2Proof.Machine

/-! ### Compute resets (R450, R456, R457) -/

theorem tile_of_mem_coresOfDie {t p core : Nat} (site : p < 7) (mem : core ∈ coresOfDie t p) : core / 256 = t := by
  simp only [coresOfDie, coresOfClu, coreOf, List.mem_flatMap, List.mem_map, List.mem_range] at mem
  obtain ⟨c, hc, slot, hs, rfl⟩ := mem
  omega

theorem coresOfDie_ne_nil (t p : Nat) : coresOfDie t p ≠ [] := by
  simp [coresOfDie, coresOfClu, List.range_succ]

theorem tile_of_mem_tileCores {s : State} {t core : Nat} (mem : core ∈ s.tileCores t) : core / 256 = t := by
  obtain ⟨p, hp, mem⟩ := List.mem_flatMap.1 mem
  exact tile_of_mem_coresOfDie (List.mem_range.1 (List.mem_of_mem_filter hp)) mem

theorem tile_of_mem_moduleCores {s : State} {core : Nat} (mem : core ∈ s.moduleCores) : core / 256 < 36 := by
  obtain ⟨t, ht, mem⟩ := List.mem_flatMap.1 mem
  exact (tile_of_mem_tileCores mem).trans_lt (List.mem_range.1 ht)

section
variable {s : State} (input : s.pwr.lossAt = none)
include input

/-- At READY, with no reset running or waiting and no site-map change in the tiles of its cores, a compute reset runs at once. -/
theorem askReset_of_idle (ready : s.buSt = 12) (idle : s.boot.rst = none) (noneWaits : s.boot.rstWait = none) (scope : Nat)
    {cores : List Nat} (some : cores ≠ []) (free : ∀ c ∈ cores, s.siteBusy (c / 256) = false) :
    (s.askReset scope cores).1 = s.runReset scope cores := by
  have target : s.rstTarget = none := by simp only [State.rstTarget, idle, noneWaits]
  have quiet : (cores.any fun c => s.siteBusy (c / 256)) = false := by simpa using free
  simp [State.askReset, State.startReset, ready, input, some, target, quiet]

/-- Before READY a compute reset ends with RESULT 1. -/
theorem askReset_of_not_ready (on : 2 ≤ s.buSt) (early : s.buSt ≠ 12) (scope : Nat) (cores : List Nat) :
    (s.askReset scope cores).1 = s.endRst 1 := by
  simp [State.askReset, input, early, show ¬s.buSt < 2 by omega]

/-! ### The entry of the fast path (R450, R451) -/

theorem doWarmReset_of_ready (ready : s.buSt = 12) :
    s.doWarmReset = if s.warmCheck = 0 then s.warmEntry else s.coldStart 5 s.warmCheck := by
  simp only [State.doWarmReset, ready, input]
  cases s.warmCheck <;> rfl

theorem atBu_of_mem (sound : s.rd Reg.BU_STATUS_FAILED 0 = 0) {l : List Nat} (mem : s.buSt ∈ l) : s.atBu l = true := by
  simp [State.atBu, mem, sound, input]

end

/-! ### Cold start (R450, R454, R455) -/

/-- What a cold start leaves of the panel: no vats, no core at work, an empty plane, time 0. -/
structure State.PanelCleared (u : State) : Prop where
  vats : u.vats = []
  cmp : u.cmp = {}
  fab : u.fab = {}
  now : u.now = 0

theorem State.PanelCleared.of_frame {u v : State} {r : FMap Nat} {l : Links} (h : u.PanelCleared) (frame : v = { u with regs := r, lnk := l }) :
    v.PanelCleared := by
  subst frame
  exact ⟨h.vats, h.cmp, h.fab, h.now⟩

theorem relight_frame (s : State) (pair : Nat) : ∃ r, s.relight pair = { s with regs := r } := by
  refine each_keeps (fun t => ∃ r, t = { s with regs := r }) _ (fun u t hu => ?_) _ s ⟨_, rfl⟩
  refine each_keeps (fun t => ∃ r, t = { s with regs := r }) _ (fun u i hu => ?_) _ u hu
  obtain ⟨r, rfl⟩ := hu
  split
  · exact ⟨_, rfl⟩
  · exact ⟨_, rfl⟩

theorem cartOn_frame (s : State) (c : Nat) : ∃ r m, s.cartOn c = { s with regs := r, lnk := { s.lnk with laserOn := m } } := by
  unfold State.cartOn
  dsimp only
  split
  · obtain ⟨r, m, first⟩ := setCart_frame (s.wr Reg.LS_CART_INTERLOCK 0 1 c) c 2 60
    obtain ⟨r', m', second⟩ := setCart_frame (State.setCart (s.wr Reg.LS_CART_INTERLOCK 0 1 c) c 2 60) (partner c) 2 60
    exact ⟨r', m', by rw [second, first]; rfl⟩
  · obtain ⟨r, m, first⟩ := setCart_frame (s.wr Reg.LS_CART_INTERLOCK 0 1 c) c 3 100
    obtain ⟨r', second⟩ := relight_frame (State.setCart (s.wr Reg.LS_CART_INTERLOCK 0 1 c) c 3 100) (c / 2)
    exact ⟨r', m, by rw [second, first]; rfl⟩

theorem panelOff_cleared (s : State) (cell : Nat) : (s.panelOff cell).PanelCleared := by
  refine each_keeps State.PanelCleared _ (fun u c hu => ?_) _ _ (each_keeps State.PanelCleared _ (fun u t hu => hu.of_frame rfl) _ _ ?_)
  · obtain ⟨r, m, frame⟩ := setCart_frame (u.wr Reg.LS_CART_INTERLOCK 0 1 c) c 4 0
    exact (hu.of_frame (l := u.lnk) rfl : (u.wr Reg.LS_CART_INTERLOCK 0 1 c).PanelCleared).of_frame frame
  · exact ⟨rfl, rfl, rfl, rfl⟩

theorem State.PanelCleared.cartOn {u : State} (h : u.PanelCleared) (c : Nat) : (u.cartOn c).PanelCleared := by
  obtain ⟨r, m, frame⟩ := cartOn_frame u c
  exact h.of_frame frame

theorem coldStart_cleared (s : State) (scope fallback : Nat) : (s.coldStart scope fallback).PanelCleared := by
  have cold : (s.saveLife.panelOff 0).coldRegs.PanelCleared := (panelOff_cleared _ 0).of_frame (l := (s.saveLife.panelOff 0).lnk) rfl
  have lit := fun l => each_keeps State.PanelCleared State.cartOn (fun u c h => h.cartOn c) l _ cold
  unfold State.coldStart
  generalize (s.saveLife.panelOff 0).coldRegs = off at lit ⊢
  obtain ⟨vats, cmp, fab, now⟩ := lit s.baysIn
  exact ⟨vats, cmp, fab, now⟩

/-- A cold start leaves STATE 3 and a reset of this scope under way. -/
theorem rd_coldStart (s : State) (fallback : Nat) {scope : Nat} (small : scope < 8) : let u := s.coldStart scope fallback
    u.buSt = 3 ∧ u.rd Reg.RST_STATUS_BUSY 0 = 1 ∧ u.rd Reg.RST_STATUS_SCOPE 0 = scope := by
  simp only [State.coldStart, State.beginRst, State.buSt, rd_with_boot]
  simp (disch := decide) only [rd_wr_of_place_ne, rd_wr_self]
  exact ⟨rfl, rfl, Nat.mod_eq_of_lt small⟩

theorem doColdReset_of_on {s : State} (input : s.pwr.lossAt = none) (on : 2 ≤ s.buSt) : s.doColdReset = s.coldStart 6 0 := by
  simp [State.doColdReset, input, show ¬s.buSt < 2 by omega]

theorem doColdReset_spec {s : State} (input : s.pwr.lossAt = none) (on : 2 ≤ s.buSt) : let u := s.doColdReset
    u.buSt = 3 ∧ u.vats = [] ∧ u.cmp = {} ∧ u.fab = {} ∧ u.now = 0 ∧ u.rd Reg.RST_STATUS_BUSY 0 = 1 ∧ u.rd Reg.RST_STATUS_SCOPE 0 = 6 := by
  have cleared := coldStart_cleared s 6 0
  have regs := rd_coldStart s 0 (scope := 6) (by decide)
  rw [← doColdReset_of_on input on] at cleared regs
  generalize s.doColdReset = u at cleared regs
  obtain ⟨vats, cmp, fab, now⟩ := cleared
  obtain ⟨state, busy, scope⟩ := regs
  exact ⟨state, vats, cmp, fab, now, busy, scope⟩

/-! ### LINK_RESUME (R321) -/

theorem restoreLink_onlyRegs (s : State) (i : Nat) : s.OnlyRegs (s.restoreLink i) := by
  unfold State.restoreLink
  dsimp only [List.foldl]
  have record (a b c d : Nat) : s.OnlyRegs ((((s.wr Reg.LK_STATUS_WIDTH_TX i a).wr Reg.LK_STATUS_WIDTH_RX i b).wr
      Reg.LK_STATUS_GRP_RETIRED_TX i c).wr Reg.LK_STATUS_GRP_RETIRED_RX i d) := ⟨_, rfl⟩
  split
  · exact (((record _ _ _ _).trans (.wr ..)).trans (.wr ..)).trans (.wr ..)
  · exact record _ _ _ _

namespace State.SameLinkStatus

/-- What returns to one link leaves the LK_STATUS of the others. -/
theorem restoreLink {i j : Nat} (hi : i < 2 ^ 16) (s : State) (other : j ≠ i) (small : j < 576) : SameLinkStatus i s (s.restoreLink j) := by
  have back (s : State) {f : Fld} (v : Nat) (fits : f.off ≤ 64 ∧ f.step = 8 ∧ f.lo < 64) : SameLinkStatus i s (s.wr f j v) :=
    far hi s v other small (by decide) fits
  unfold State.restoreLink
  dsimp only [List.foldl]
  have record (a b c d : Nat) : SameLinkStatus i s ((((s.wr Reg.LK_STATUS_WIDTH_TX j a).wr Reg.LK_STATUS_WIDTH_RX j b).wr
      Reg.LK_STATUS_GRP_RETIRED_TX j c).wr Reg.LK_STATUS_GRP_RETIRED_RX j d) :=
    (((back s a (by decide)).trans (back _ b (by decide))).trans (back _ c (by decide))).trans (back _ d (by decide))
  split
  next port serves =>
    have tile : j / 16 < 36 := by omega
    have out := schPort_lt serves
    refine trans ?_ (sched hi _ _ rfl tile out)
    refine trans ?_ (sched hi _ _ rfl tile out)
    refine trans ?_ (sched hi _ _ rfl tile out)
    exact record _ _ _ _
  next => exact record _ _ _ _

/-- In a loop over records that leaves the others, a record reads as after its own round. -/
theorem each_own {i : Nat} {f : State → Nat → State} {l : List Nat} (distinct : l.Nodup) (mem : i ∈ l)
    (others : ∀ j ∈ l, j ≠ i → ∀ t, SameLinkStatus i t (f t j)) (s : State) : ∃ t, SameLinkStatus i (f t i) (s.each l f) := by
  obtain ⟨a, b, rfl⟩ := List.append_of_mem mem
  have later : i ∉ b := fun again => (List.nodup_middle.1 distinct).notMem (List.mem_append_right a again)
  simp only [State.each, List.foldl_append, List.foldl_cons]
  exact ⟨_, each (fun j hj => others j (by simp [hj]) (ne_of_mem_of_not_mem hj later)) _⟩

end State.SameLinkStatus

/-- STATE of a link whose exchange of proposals has ended on the fast path: in training where its ends disagree, else up. -/
def resumedState (disagree : List Nat) (i : Nat) : Nat := if (linkEnds (i / 16) (i % 16)).any disagree.contains then 1 else 2

/-- A link's round of LINK_RESUME. -/
def State.resumeLink (disagree : List Nat) (s : State) (i : Nat) : State :=
  (s.restoreLink i).wr Reg.LK_STATUS_STATE i (resumedState disagree i)

/-- The links that resume. -/
def State.resuming (s : State) : List Nat := (List.range 576).filter fun i => s.rd Reg.LK_STATUS_STATE i == 4

/-- The state in which the resuming links have had their rounds. -/
def State.resumed (s : State) (disagree : List Nat) : State := s.each s.resuming (State.resumeLink disagree)

theorem resumed_eq (s : State) (disagree : List Nat) : (s.each ((List.range 576).filter fun i => s.rd Reg.LK_STATUS_STATE i == 4) fun s i =>
    (s.restoreLink i).wr Reg.LK_STATUS_STATE i (if (linkEnds (i / 16) (i % 16)).any disagree.contains then 1 else 2)) =
      s.resumed disagree := rfl

theorem resumeLink_onlyRegs (disagree : List Nat) (s : State) (i : Nat) : s.OnlyRegs (s.resumeLink disagree i) :=
  (restoreLink_onlyRegs s i).trans (.wr ..)

theorem rd_resumeLink (disagree : List Nat) (s : State) (i : Nat) :
    (s.resumeLink disagree i).rd Reg.LK_STATUS_STATE i = resumedState disagree i := by
  have small : resumedState disagree i < 8 := by
    unfold resumedState
    split
    · decide
    · decide
  exact (rd_wr_self ..).trans (Nat.mod_eq_of_lt small)

theorem rd_resume (disagree : List Nat) (s : State) {i : Nat} (link : i < 576) (resumes : s.rd Reg.LK_STATUS_STATE i = 4) :
    (s.resumed disagree).rd Reg.LK_STATUS_STATE i = resumedState disagree i := by
  have mem : i ∈ s.resuming := List.mem_filter.2 ⟨List.mem_range.2 link, beq_iff_eq.2 resumes⟩
  have others : ∀ j ∈ s.resuming, j ≠ i → ∀ t, State.SameLinkStatus i t (t.resumeLink disagree j) := fun j hj other t =>
    have small := List.mem_range.1 (List.mem_of_mem_filter hj)
    (State.SameLinkStatus.restoreLink (by omega) t other small).trans (.far (by omega) _ _ other small (by decide))
  obtain ⟨t, own⟩ := State.SameLinkStatus.each_own (List.nodup_range.filter _) mem others s
  exact (own _ rfl rfl (by decide)).trans (rd_resumeLink ..)

/-! ### The rest of the fast path (R451, R454, Table 15.7) -/

section
variable {s : State} (input : s.pwr.lossAt = none) (sound : s.rd Reg.BU_STATUS_FAILED 0 = 0)
include input sound

theorem doLinkResume_of_entered (state : s.buSt = 13) (entered : s.boot.warm = 1) (disagree : List Nat) :
    let u := s.resumed disagree
    s.doLinkResume disagree = { u with boot := { u.boot with warm := 2, enteredAt := u.age } } := by
  have at13 : s.atBu [13] = true := atBu_of_mem input sound (by simp [state])
  rw [State.doLinkResume, if_neg (by simp [at13, entered]), resumed_eq]

theorem doLinkResume_spec (state : s.buSt = 13) (entered : s.boot.warm = 1) (disagree : List Nat) : let u := s.doLinkResume disagree
    u.mem = s.mem ∧ u.boot.warm = 2 ∧ ∀ i < 576, s.rd Reg.LK_STATUS_STATE i = 4 →
      u.rd Reg.LK_STATUS_STATE i = if (linkEnds (i / 16) (i % 16)).any disagree.contains then 1 else 2 := by
  simp only [doLinkResume_of_entered input sound state entered, rd_with_boot, true_and]
  exact ⟨(State.OnlyRegs.each (resumeLink_onlyRegs disagree) _ s).mem, fun i => rd_resume disagree s⟩

theorem doMapRestore_of_resumed (state : s.buSt = 13) (resumed : s.boot.warm = 2) (up : s.linksTrain = false) (digest : Nat) :
    s.doMapRestore digest = if digest = s.boot.stored.digest
      then { s.enterBu 14 with regs := mmerge (s.enterBu 14).boot.stored.maps (mkeep (fun k => !isMapKey k) (s.enterBu 14).regs) }
      else s.coldStart 5 3 := by
  have at13 : s.atBu [13] = true := atBu_of_mem input sound (by simp [state])
  have opened : s.doMapRestore digest = if digest ≠ s.boot.stored.digest then s.coldStart 5 3
      else { s.enterBu 14 with regs := mmerge (s.enterBu 14).boot.stored.maps (mkeep (fun k => !isMapKey k) (s.enterBu 14).regs) } :=
    if_neg (by simp [at13, resumed, up])
  rw [opened, ite_not]

theorem doMemRestore_of_sound (state : s.buSt = 9) (warm : s.boot.warm ≠ 0) {r : MemTrainIn} (noStack : r.stackFail = []) (noPkg : r.pkgFail = []) :
    s.doMemRestore r = (s.enterBu 15).trainPorts r.ports := by
  have at9 : s.atBu [9] = true := atBu_of_mem input sound (by simp [state])
  simp [State.doMemRestore, at9, warm, noStack, noPkg]

end

theorem trainPort_mem (s : State) (sum p : Nat) (x : Option T3In) : (s.trainPort sum p x).1.mem = s.mem := by
  unfold State.trainPort
  dsimp only
  split
  next =>
    split
    · rfl
    · rfl
  next => rfl
  next => rfl

theorem trainPorts_mem (s : State) (l : List T3In) : (s.trainPorts l).mem = s.mem := by
  unfold State.trainPorts
  generalize List.range 8 = ports
  refine List.foldlRecOn (motive := fun r : State × Nat => r.1.mem = s.mem) ports _ rfl ?_
  intro r kept p _
  exact (trainPort_mem ..).trans kept

theorem execWarmFallback_of_inWarm {s : State} (warm : s.inWarm = true) {code : BitVec 3} (low : 1 ≤ code.toNat) (high : code.toNat ≤ 5) :
    execWarmFallback code s = .next (s.coldStart 5 code.toNat) := by
  simp [execWarmFallback, warm, low, high]

/-! ### The statement -/

section
variable {s : State} (input : s.pwr.lossAt = none) (ready : s.buSt = 12) (idle : s.boot.rst = none) (noneWaits : s.boot.rstWait = none)
include input ready idle noneWaits

theorem coreReset_of_idle {core : Nat} (active : s.dieActive (core / 256) (core / 32 % 8) = true) (free : s.siteBusy (core / 256) = false) :
    s.coreReset core = s.runReset 1 [core] := by
  rw [State.coreReset, if_pos active]
  exact askReset_of_idle input ready idle noneWaits 1 (List.cons_ne_nil _ _) (by simpa using free)

theorem dieReset_of_idle {t p : Nat} (site : p < 7) (active : s.dieActive t p = true) (free : s.siteBusy t = false) :
    s.dieReset t p = s.runReset 2 (coresOfDie t p) := by
  rw [State.dieReset, if_pos active]
  exact askReset_of_idle input ready idle noneWaits 2 (coresOfDie_ne_nil t p) fun c mem => by rwa [tile_of_mem_coresOfDie site mem]

theorem tileReset_of_idle {t : Nat} (some : s.tileCores t ≠ []) (free : s.siteBusy t = false) :
    s.tileReset t = s.runReset 3 (s.tileCores t) :=
  askReset_of_idle input ready idle noneWaits 3 some fun c mem => by rwa [tile_of_mem_tileCores mem]

theorem panelReset_of_idle (some : s.moduleCores ≠ []) (free : ∀ t : Tile, s.siteBusy t.val = false) :
    (s.askReset 4 s.moduleCores).1 = s.runReset 4 s.moduleCores :=
  askReset_of_idle input ready idle noneWaits 4 some fun c mem => free ⟨c / 256, tile_of_mem_moduleCores mem⟩

end

/-- Settles O48: compute resets by `askReset_of_idle`, the cold reset by what `State.coldStart` leaves, and the fast path command by command. -/
theorem resets : Obligations.Resets := by
  unfold Obligations.Resets
  intro s input
  refine ⟨fun ready idle noneWaits => ⟨?core, ?die, ?tile, ?panel, ?warm, ?cold⟩, fun on early c => ?early, fun on => ?coldReset,
    fun sound => ⟨?resume, ?maps, ?memories, ?fallback⟩⟩
  case core => exact fun c active free => congrArg Host.Outcome.next (coreReset_of_idle input ready idle noneWaits active free)
  case die => exact fun t p active free => congrArg Host.Outcome.next (dieReset_of_idle input ready idle noneWaits p.isLt active free)
  case tile => exact fun t some free => congrArg Host.Outcome.next (tileReset_of_idle input ready idle noneWaits some free)
  case panel => exact fun some free => congrArg Host.Outcome.next (panelReset_of_idle input ready idle noneWaits some free)
  case warm => exact fun holds => congrArg Host.Outcome.next ((doWarmReset_of_ready input ready).trans (if_pos holds))
  case cold =>
    intro k fails
    refine congrArg Host.Outcome.next ((doWarmReset_of_ready input ready).trans ?_)
    rw [fails]
    exact if_neg (Nat.succ_ne_zero k)
  case early => exact congrArg Host.Outcome.next (askReset_of_not_ready input on early 1 _)
  case coldReset => exact ⟨_, rfl, doColdReset_spec input on⟩
  case resume => exact fun l state entered => ⟨_, rfl, doLinkResume_spec input sound state entered l⟩
  case maps =>
    intro d state resumed up
    have restored := doMapRestore_of_resumed input sound state resumed up d
    refine ⟨fun same v entered => ?_, fun other => congrArg Host.Outcome.next (restored.trans (if_neg other))⟩
    subst entered
    exact congrArg Host.Outcome.next (restored.trans (if_pos same))
  case memories =>
    exact fun r state warm noStack noPkg =>
      ⟨congrArg Host.Outcome.next (doMemRestore_of_sound input sound state warm noStack noPkg), trainPorts_mem _ _⟩
  case fallback => exact fun code warm low high => execWarmFallback_of_inWarm warm low high

end Sys2Proof.Machine
end

section
/-! PROOFS. Steps (0.5, 13.6, 14.1, 19.3): every command answers a next state, an empty queue lets one period of CK_T pass, and the
state at reset. -/

namespace Sys2Proof.Machine

/-- Every command's meaning is an operation on the state: none faults and none is refused (R399). -/
theorem exec_next (c : Instr) (s : State) : ∃ t, exec c s = .next t := by
  cases c
  all_goals exact ⟨_, rfl⟩

theorem step_of_empty {s : State} (empty : s.pending = []) : step s = .next (tick s) := by
  simp only [step, empty]

theorem step_of_front {s : State} {c : Instr} {rest : List Instr} (front : s.pending = c :: rest) :
    step s = exec c { s with pending := rest } := by
  simp only [step, front]

theorem tick_of_stopped {s : State} (stopped : s.clk.started = false) : tick s = { s with age := s.age + 1 } := by
  simp [tick, stopped]

/-- A period of CK_T while it counts: the whole part of the accumulated correction moves the time (R391, R392). -/
theorem tick_of_started {s : State} (started : s.clk.started = true) :
    let a := s.clk.rateAcc + toSigned 32 (s.rd Reg.TM_SERVO_RATE 0)
    tick s = { s with age := s.age + 1, now := ((s.now : Int) + 1 + a / 1000000000).toNat % 2 ^ 64,
                      clk := { s.clk with rateAcc := a % 1000000000 } } := by
  intro a
  rw [tick]
  exact if_pos started

/-- Settles O1: the front of the queue is what `step` takes. -/
theorem stepRunsFront : Obligations.StepRunsFront := by
  unfold Obligations.StepRunsFront
  exact fun c s => step_of_front (s := { s with pending := c :: s.pending }) rfl

/-- Settles O2, by whether CK_T has started. -/
theorem emptyQueueTicks : Obligations.EmptyQueueTicks := by
  unfold Obligations.EmptyQueueTicks
  intro s empty
  rw [step_of_empty empty]
  cases started : s.clk.started with
  | false => exact ⟨s.now, s.clk.rateAcc, congrArg _ (tick_of_stopped started), fun _ => ⟨rfl, rfl⟩, nofun⟩
  | true =>
    refine ⟨_, _, congrArg _ (tick_of_started started), nofun, fun _ rate whole => ?_⟩
    have signed : toSigned 32 0 = 0 := by decide
    rw [rate, whole, signed]
    exact ⟨by norm_num, by decide⟩

/-- Settles O3, by whether the queue is empty. -/
theorem noStepStops : Obligations.NoStepStops := by
  unfold Obligations.NoStepStops
  intro s
  cases queue : s.pending with
  | nil => exact ⟨tick s, step_of_empty queue⟩
  | cons c rest =>
    rw [step_of_front queue]
    exact exec_next c _

/-- Settles O59: with no entry listed, every register, S-core and byte reads as its default. -/
theorem resetState : Obligations.ResetState := by
  unfold Obligations.ResetState
  exact ⟨fun _ _ _ => rfl, rfl, rfl, fun _ => rfl, fun _ => rfl, ⟨rfl⟩⟩

end Sys2Proof.Machine
end

section
/-! PROOFS. The input and the e-fuse (12.1, R343 to R346, R369, R504, Table 12.2): what the opening of the e-fuse leaves, and the
commands of the input. -/

namespace Sys2Proof.Machine

theorem rd_with_pwr (s : State) (p : Power) (f : Fld) (i k : Nat) : State.rd { s with pwr := p } f i k = s.rd f i k := rfl

theorem rd_with_tray (s : State) (t : Tray) (f : Fld) (i k : Nat) : State.rd { s with tray := t } f i k = s.rd f i k := rfl

/-! ### Cells off (Table 12.2, R523, R525) -/

theorem lapseToken_frame (s : State) : ∃ r l m, s.lapseToken = { s with regs := r, lnk := l, mgmt := m } := by
  unfold State.lapseToken
  dsimp only
  split
  · exact ⟨_, _, _, rfl⟩
  · refine each_keeps (fun t => ∃ r l m, t = { s with regs := r, lnk := l, mgmt := m }) _ ?_ _ _ ⟨_, _, _, rfl⟩
    rintro _ _ ⟨r, l, m, rfl⟩
    exact ⟨_, l, m, rfl⟩

theorem ctlOff_frame (s : State) : ∃ r l m, s.ctlOff = { s with regs := r, lnk := l, mgmt := m } := by
  obtain ⟨r, l, m, lapsed⟩ := lapseToken_frame s
  rw [State.ctlOff, lapsed]
  exact ⟨_, l, _, rfl⟩

theorem rd_ctlOff_state (s : State) : s.ctlOff.rd Reg.BU_STATUS_STATE 0 = 0 := by
  unfold State.ctlOff
  simp (disch := decide) only [rd_wr_of_place_ne, rd_wr_self, Nat.zero_mod]

/-- What goes on while the cells are off: the time of the standby side, and what the flash keeps of the life counters. -/
structure State.SameStandby (s u : State) : Prop where
  age : u.age = s.age
  savedAt : u.tray.savedAt = s.tray.savedAt

theorem State.SameStandby.of_frame {s u v : State} {r : FMap Nat} {l : Links} (h : s.SameStandby u)
    (frame : v = { u with regs := r, lnk := l }) : s.SameStandby v := by
  subst frame
  exact ⟨h.age, h.savedAt⟩

theorem panelOff_sameStandby (s : State) (cell : Nat) : s.SameStandby (s.panelOff cell) := by
  refine each_keeps s.SameStandby _ (fun u c stands => ?_) _ _ (each_keeps s.SameStandby _ (fun u t stands => stands.of_frame rfl) _ _ ?_)
  · obtain ⟨r, m, frame⟩ := setCart_frame (u.wr Reg.LS_CART_INTERLOCK 0 1 c) c 4 0
    exact (stands.of_frame (l := u.lnk) rfl : s.SameStandby (u.wr Reg.LS_CART_INTERLOCK 0 1 c)).of_frame frame
  · exact ⟨rfl, rfl⟩

/-! ### The e-fuse opens (R343, R371) -/

/-- `u` is `s` with the e-fuse opened to stand at `efuse`: nothing runs, and neither a precharge nor a loss goes on. -/
structure State.FuseOpened (s : State) (efuse : Nat) (u : State) : Prop where
  vats : u.vats = []
  cmp : u.cmp = {}
  fab : u.fab = {}
  precharge : u.pwr.precharge = none
  lossAt : u.pwr.lossAt = none
  age : u.age = s.age
  savedAt : u.tray.savedAt = s.tray.savedAt
  efuse : u.rd Reg.IN_STATUS_EFUSE 0 = efuse % 4
  state : u.rd Reg.BU_STATUS_STATE 0 = 0

theorem phaseDown_onlyRegs (s : State) : s.OnlyRegs s.phaseDown := by
  unfold State.phaseDown
  dsimp only
  split
  · exact .wr ..
  · exact .refl s

theorem rd_phaseDown_of_word_ne (s : State) {g : Fld} (hg : g.off < 2 ^ 20 ∧ g.lo < 64) (ne : Reg.RM_STATUS_PHASE.off ≠ g.off) (j : Nat) :
    s.phaseDown.rd g j = s.rd g j := by
  unfold State.phaseDown
  dsimp only
  split
  · exact rd_wr_of_word_ne s _ g _ _ _ (by decide) hg ne
  · rfl

theorem phaseDown_fuseOpened {s u : State} {efuse : Nat} (h : s.FuseOpened efuse u) : s.FuseOpened efuse u.phaseDown := by
  have read := rd_phaseDown_of_word_ne u (g := Reg.IN_STATUS_EFUSE) (by decide) (by decide) 0
  have readState := rd_phaseDown_of_word_ne u (g := Reg.BU_STATUS_STATE) (by decide) (by decide) 0
  obtain ⟨_, down⟩ := phaseDown_onlyRegs u
  generalize u.phaseDown = v at *
  subst down
  exact ⟨h.vats, h.cmp, h.fab, h.precharge, h.lossAt, h.age, h.savedAt, read.trans h.efuse, readState.trans h.state⟩

/-- With the panel and the service controller off, the standby side shows the open e-fuse and the discharge of the bulk. -/
theorem fuseOpened_of_dark {s v : State} (efuse : Nat) (cleared : v.PanelCleared) (standby : s.SameStandby v)
    (off : v.rd Reg.BU_STATUS_STATE 0 = 0) :
    let u := ((v.wr Reg.IN_STATUS_EFUSE 0 efuse).wr Reg.IN_STATUS_COOLANT_WAIT 0 0).wr Reg.IN_STATUS_IIN 0 0
    s.FuseOpened efuse { u with pwr := { u.pwr with precharge := none, lossAt := none, dischargeAt := some u.age } } := by
  intro u
  have shown : u.rd Reg.IN_STATUS_EFUSE 0 = efuse % 4 := by
    simp (disch := decide) only [u, rd_wr_of_place_ne, rd_wr_self]
    rfl
  have state : u.rd Reg.BU_STATUS_STATE 0 = 0 := by simp (disch := decide) only [u, rd_wr_of_bit_ne, off]
  exact ⟨cleared.vats, cleared.cmp, cleared.fab, rfl, rfl, standby.age, standby.savedAt, shown, state⟩

theorem ctlOff_cleared {s u : State} (cleared : u.PanelCleared) (standby : s.SameStandby u) :
    u.ctlOff.PanelCleared ∧ s.SameStandby u.ctlOff := by
  obtain ⟨r, l, m, off⟩ := ctlOff_frame u
  rw [off]
  exact ⟨⟨cleared.vats, cleared.cmp, cleared.fab, cleared.now⟩, ⟨standby.age, standby.savedAt⟩⟩

theorem openFuse_opened (s : State) (efuse cell : Nat) : s.FuseOpened efuse (s.openFuse efuse cell) := by
  have dark {t : State} (counted : s.OnlyRegs t) : (t.panelOff cell).ctlOff.PanelCleared ∧ s.SameStandby (t.panelOff cell).ctlOff := by
    obtain ⟨_, rfl⟩ := counted
    obtain ⟨age, savedAt⟩ := panelOff_sameStandby _ cell
    exact ctlOff_cleared (panelOff_cleared _ cell) ⟨age, savedAt⟩
  have counted : s.OnlyRegs (if s.rd Reg.IN_STATUS_EFUSE 0 = 0 then s else s.bump Reg.IN_EVENTS_TRIPS 0) := by
    split
    · exact .refl s
    · exact .wr ..
  obtain ⟨cleared, standby⟩ := dark counted
  exact phaseDown_fuseOpened (fuseOpened_of_dark efuse cleared standby (rd_ctlOff_state _))

/-! ### Insertion (R344, R369, R504, Table 12.5) -/

theorem doMate_spec {s : State} (open_ : s.pwr.pin = false) : let u := s.doMate
    u.pwr.mated = true ∧ u.pwr.inputGone = false ∧ u.tray.cutAt = none ∧ u.rd Reg.IN_STATUS_EFUSE 0 = 0 ∧ u.rd Reg.RM_STATUS_PHASE 0 = 0 ∧
      u.rd Reg.RM_STATUS_LATCH_OPEN 0 = 0 ∧ u.rd Reg.TR_CMP_LOCKOUT 0 = 0 := by
  simp only [State.doMate, open_, Bool.false_eq_true, if_false, State.each, List.foldl]
  refine ⟨rfl, rfl, rfl, ?_, ?_, ?_, ?_⟩
  all_goals simp (disch := decide) only [rd_wr_of_place_ne, rd_wr_of_bit_ne, rd_wr_self, Nat.zero_mod]

/-- The state in which the break of the enable pin has opened a live e-fuse. -/
def State.pinBroken (s : State) : State :=
  ((State.wr { s with pwr := { s.pwr with pin := false, mated := false, precharge := none } } Reg.IN_STATUS_EFUSE 0 0).wr
    Reg.IN_STATUS_COOLANT_WAIT 0 0).bump Reg.IN_EVENTS_TRIPS 0

theorem rd_pinBroken (s : State) : s.pinBroken.rd Reg.RM_STATUS_LATCH_OPEN 0 = s.rd Reg.RM_STATUS_LATCH_OPEN 0 ∧
    s.pinBroken.rd Reg.IN_STATUS_EFUSE 0 = 0 ∧ s.pinBroken.rd Reg.IN_EVENTS_TRIPS 0 = min (s.rd Reg.IN_EVENTS_TRIPS 0 + 1) 65535 := by
  have small : min (s.rd Reg.IN_EVENTS_TRIPS 0 + 1) 65535 < 65536 := by omega
  unfold State.pinBroken State.bump
  simp (disch := decide) only [rd_wr_of_place_ne, rd_wr_self, rd_with_pwr, Nat.zero_mod, true_and]
  exact Nat.mod_eq_of_lt small

/-- A pin that breaks with the latch open: the input is not lost. -/
theorem doPinBreak_of_latch_open {s : State} (pin : s.pwr.pin = true) (live : s.fuseLive = true)
    (latch : s.rd Reg.RM_STATUS_LATCH_OPEN 0 = 1) : s.doPinBreak = s.pinBroken := by
  have notLost : ¬(true && s.pinBroken.rd Reg.RM_STATUS_LATCH_OPEN 0 == 0 && s.pinBroken.pwr.lossAt.isNone) = true := by
    simp [(rd_pinBroken s).1, latch]
  unfold State.doPinBreak
  simp only [pin, live, Bool.not_true, Bool.false_eq_true, if_false, if_true]
  exact if_neg notLost

/-! ### Precharge (R343, R345, R369) -/

theorem beginPrecharge_spec (s : State) : let u := s.beginPrecharge
    u.rd Reg.IN_STATUS_EFUSE 0 = 1 ∧ u.rd Reg.BU_STATUS_STATE 0 = 1 ∧ u.pwr.precharge = some s.age ∧ u.pwr.ovAt = none := by
  have regs : s.beginPrecharge.regs = ((s.wr Reg.IN_STATUS_EFUSE 0 1).wr Reg.BU_STATUS_STATE 0 1).regs := rfl
  refine ⟨?_, ?_, rfl, rfl⟩
  all_goals
    rw [rd_of_regs regs]
    simp (disch := decide) only [rd_wr_of_bit_ne, rd_wr_self]
    decide

/-- The state in which the monitors' voltages are stored, once a precharge has begun. -/
def State.precharging (s : State) (vin vbulk : Nat) : State :=
  (s.beginPrecharge.wr Reg.IN_STATUS_VIN 0 vin).wr Reg.IN_STATUS_VBULK 0 vbulk

theorem doPrecharge_of_may {s : State} (may : s.mayPrecharge = true) (vin vbulk flow inlet : Nat) :
    s.doPrecharge vin vbulk flow inlet = let u := s.precharging vin vbulk
      if vbulk + 2000 < vin then u
      else (State.wr { u with pwr := { u.pwr with precharge := none } } Reg.IN_STATUS_EFUSE 0 2).wr Reg.IN_STATUS_COOLANT_WAIT 0
        (b2n (!coolantOk flow inlet)) := by
  obtain ⟨efuse, -⟩ := beginPrecharge_spec s
  unfold State.doPrecharge
  simp only [may, if_true, efuse, ne_eq, not_true_eq_false, if_false]
  rfl

theorem rd_precharging (s : State) (vin vbulk : Nat) : let u := s.precharging vin vbulk
    u.rd Reg.IN_STATUS_EFUSE 0 = 1 ∧ u.rd Reg.BU_STATUS_STATE 0 = 1 := by
  obtain ⟨efuse, state, -⟩ := beginPrecharge_spec s
  refine ⟨?_, ?_⟩
  · simp (disch := decide) only [State.precharging, rd_wr_of_place_ne, efuse]
  · simp (disch := decide) only [State.precharging, rd_wr_ne, state]

theorem coolantOk_eq_true {flow inlet : Nat} : coolantOk flow inlet = true ↔ 240 ≤ flow ∧ 200 ≤ inlet ∧ inlet ≤ 450 := by
  simp [coolantOk, and_assoc]

/-- COOLANT_WAIT shows that the coolant is out of range. -/
theorem rd_coolantWait (s : State) (flow inlet : Nat) :
    (s.wr Reg.IN_STATUS_COOLANT_WAIT 0 (b2n (!coolantOk flow inlet))).rd Reg.IN_STATUS_COOLANT_WAIT 0 = 0 ↔
      240 ≤ flow ∧ 200 ≤ inlet ∧ inlet ≤ 450 := by
  rw [rd_wr_self, ← coolantOk_eq_true]
  cases coolantOk flow inlet <;> decide

theorem doCoolantEnd_of_ok {s : State} (waits : s.rd Reg.IN_STATUS_COOLANT_WAIT 0 = 1) {flow inlet : Nat} (ok : coolantOk flow inlet = true) :
    (s.doCoolantEnd flow inlet).rd Reg.IN_STATUS_COOLANT_WAIT 0 = 0 ∧ (s.doCoolantEnd flow inlet).boot.enteredAt = s.age := by
  rw [State.doCoolantEnd, if_pos ⟨waits, ok⟩]
  exact ⟨(rd_with_boot ..).trans (rd_wr_self ..), rfl⟩

theorem doPrechargeTimeout_of_late {s : State} {t : Nat} (began : s.pwr.precharge = some t) (late : t + 135000000 ≤ s.age) :
    s.doPrechargeTimeout = (s.openFuse 3 0).wr Reg.IN_STATUS_LAST_TRIP 0 3 := by
  simp only [State.doPrechargeTimeout, began, us]
  exact if_neg (by omega)

/-! ### Trips and losses (R343, R346, Table 12.2) -/

namespace State.FuseOpened

variable {s u : State} {efuse : Nat}

/-- The reason of a trip stands beside what the e-fuse shows. -/
theorem lastTrip (h : s.FuseOpened efuse u) (v : Nat) : s.FuseOpened efuse (u.wr Reg.IN_STATUS_LAST_TRIP 0 v) :=
  ⟨h.vats, h.cmp, h.fab, h.precharge, h.lossAt, h.age, h.savedAt,
    (rd_wr_of_place_ne u Reg.IN_STATUS_LAST_TRIP Reg.IN_STATUS_EFUSE _ _ rfl (by decide)).trans h.efuse,
    (rd_wr_of_bit_ne u Reg.IN_STATUS_LAST_TRIP Reg.BU_STATUS_STATE _ _ _ _ _ (by decide) (by decide) (by decide)).trans h.state⟩

theorem rd_lastTrip (u : State) (v : Nat) : (u.wr Reg.IN_STATUS_LAST_TRIP 0 v).powerDirty.rd Reg.IN_STATUS_LAST_TRIP 0 = v % 8 :=
  rd_wr_self u Reg.IN_STATUS_LAST_TRIP 0 v 0

theorem powerDirty (h : s.FuseOpened efuse u) : s.FuseOpened efuse u.powerDirty :=
  ⟨h.vats, h.cmp, h.fab, h.precharge, h.lossAt, h.age, h.savedAt, h.efuse, h.state⟩

end State.FuseOpened

theorem doInputLoss_of_live {s u : State} (live : s.fuseLive = true) (sound : s.pwr.lossAt = none)
    (gone : u = { s with pwr := { s.pwr with inputGone := true, ovAt := none } }) :
    s.doInputLoss = ((u.bump Reg.IN_EVENTS_LOSSES 0).wr Reg.IN_STATUS_LAST_TRIP 0 4).declareLoss := by
  have still : (!u.fuseLive || u.pwr.lossAt.isSome) = false := by
    have : u.fuseLive = s.fuseLive := by rw [gone]; rfl
    rw [this, live, gone]
    exact congrArg Option.isSome sound
  have opened : s.doInputLoss = if !u.fuseLive || u.pwr.lossAt.isSome then u
      else ((u.bump Reg.IN_EVENTS_LOSSES 0).wr Reg.IN_STATUS_LAST_TRIP 0 4).declareLoss := by rw [gone]; rfl
  rw [opened, still]
  rfl

theorem doOvRecovery_of_good {s : State} {t : Nat} (back : s.pwr.ovAt = some t) (late : t + 90000000 ≤ s.age)
    (may : State.mayPrecharge { s with pwr := { s.pwr with ovAt := none } } = true) :
    s.doOvRecovery = State.beginPrecharge { s with pwr := { s.pwr with ovAt := none } } := by
  simp only [State.doOvRecovery, back, us]
  exact if_pos ⟨by omega, may⟩

theorem doLossCellOff_of_late {s : State} {t : Nat} (lost : s.pwr.lossAt = some t) (late : t + 522000 ≤ s.age) :
    s.doLossCellOff = s.openFuse 0 0 := by
  simp only [State.doLossCellOff, lost, us]
  exact if_neg (by omega)

/-! ### The statement -/

/-- Settles O42: every opening of the e-fuse by `openFuse_opened`, every precharge by `beginPrecharge_spec`. -/
theorem inputAndFuse : Obligations.InputAndFuse := by
  unfold Obligations.InputAndFuse
  intro s
  refine ⟨?mate, ?returns, ?breaks, ?precharge, ?timeout, ?coolant, ?live, ?recovery, ?cellOff⟩
  case mate => exact fun pin => ⟨s.doMate, rfl, doMate_spec pin⟩
  case returns => exact fun mated => ⟨congrArg Host.Outcome.next (if_pos mated), congrArg Host.Outcome.next (if_pos mated)⟩
  case breaks =>
    intro pin live latch
    obtain ⟨-, efuse, trips⟩ := rd_pinBroken s
    exact ⟨s.pinBroken, congrArg Host.Outcome.next (doPinBreak_of_latch_open pin live latch), rfl, rfl, efuse, trips⟩
  case precharge =>
    intro may vin vbulk flow inlet
    have runs := doPrecharge_of_may may vin vbulk flow inlet
    obtain ⟨efuse, state⟩ := rd_precharging s vin vbulk
    constructor
    · intro apart
      rw [if_pos apart] at runs
      exact ⟨_, congrArg Host.Outcome.next runs, efuse, state, rfl⟩
    · intro near
      rw [if_neg (by omega)] at runs
      refine ⟨_, congrArg Host.Outcome.next runs, ?_, rfl, rd_coolantWait _ flow inlet⟩
      exact (rd_wr_of_place_ne _ Reg.IN_STATUS_COOLANT_WAIT Reg.IN_STATUS_EFUSE _ _ rfl (by decide)).trans (rd_wr_self ..)
  case timeout =>
    intro t began late
    have tripped := (openFuse_opened s 3 0).lastTrip 3
    exact ⟨_, congrArg Host.Outcome.next (doPrechargeTimeout_of_late began late), tripped.efuse, rd_wr_self .., tripped.vats,
      tripped.precharge⟩
  case coolant => exact fun waits flow inlet h240 h200 h450 => ⟨s.doCoolantEnd flow inlet, rfl, doCoolantEnd_of_ok waits (coolantOk_eq_true.2 ⟨h240, h200, h450⟩)⟩
  case live =>
    intro live
    refine ⟨congrArg Host.Outcome.next (if_pos live), ⟨_, congrArg Host.Outcome.next (if_pos live), ?_⟩,
      ⟨_, congrArg Host.Outcome.next (if_pos live), ?_⟩, ?_⟩
    · have tripped := ((openFuse_opened s 3 0).lastTrip 1).powerDirty
      exact ⟨tripped.efuse, State.FuseOpened.rd_lastTrip _ 1, tripped.vats, rfl⟩
    · have tripped := ((openFuse_opened s 0 0).lastTrip 2).powerDirty
      exact ⟨(rd_with_pwr ..).trans tripped.efuse, (rd_with_pwr ..).trans (State.FuseOpened.rd_lastTrip _ 2), congrArg some tripped.age⟩
    · exact fun sound u gone => congrArg Host.Outcome.next (doInputLoss_of_live live sound gone)
  case recovery =>
    intro t back late pin input sound efuse cut lockout phase
    have may : State.mayPrecharge { s with pwr := { s.pwr with ovAt := none } } = true := by
      simp [State.mayPrecharge, rd_with_pwr, pin, input, sound, efuse, cut, lockout, phase]
    obtain ⟨shown, -, began, done⟩ := beginPrecharge_spec { s with pwr := { s.pwr with ovAt := none } }
    exact ⟨_, congrArg Host.Outcome.next (doOvRecovery_of_good back late may), shown, done, began⟩
  case cellOff =>
    intro t lost late
    obtain ⟨vats, cmp, fab, -, lossAt, -, -, efuse, state⟩ := openFuse_opened s 0 0
    exact ⟨_, congrArg Host.Outcome.next (doLossCellOff_of_late lost late), efuse, vats, cmp, fab, lossAt, state⟩

end Sys2Proof.Machine
end

section
/-! PROOFS. Cells, sensors, heartbeats and removal (12.2, 12.8, R349 to R352, R370, R371, R400): what the standby side keeps while
the cells go off, and the commands of a removal. -/

namespace Sys2Proof.Machine

/-! ### The phase of a removal while the cells go off (R371, R525) -/

theorem mget_mmerge_of_not_mem {α : Type} (d : α) (k : Nat) : ∀ (a m : FMap α), (∀ e ∈ a, e.1 ≠ k) → mget d (mmerge a m) k = mget d m k
  | [], _, _ => rfl
  | (j, v) :: r, m, apart => by
    have rest := mget_mmerge_of_not_mem d k r (minsert j v m) fun e he => apart e (List.mem_cons_of_mem _ he)
    rw [mget_minsert, if_neg (apart _ List.mem_cons_self)] at rest
    exact rest

/-- A register of the standby side that is no life counter reads as before when the panel goes off. -/
theorem mget_standby {d k : Nat} (kept : keepsOff k = true) (notLife : isLifeKey k = false) (saved regs : FMap Nat) :
    mget d (mmerge (mkeep isLifeKey saved) (mkeep keepsOff regs)) k = mget d regs k := by
  rw [mget_mmerge_of_not_mem]
  · rw [mkeep, mget_filter, if_pos kept]
  · rintro e he rfl
    have life : isLifeKey e.1 = true := (List.mem_filter.1 he).2
    simp [life] at notLife

theorem cartFlds_apart_phase : ∀ c : Fin 4, ∀ f ∈ cartFlds, fkey f 0 c.val ≠ fkey Reg.RM_STATUS_PHASE 0 0 := by decide

theorem rd_panelOff_phase (s : State) (cell : Nat) : (s.panelOff cell).rd Reg.RM_STATUS_PHASE 0 = s.rd Reg.RM_STATUS_PHASE 0 := by
  have tile (u : State) (t : Nat) (h : u.rd Reg.RM_STATUS_PHASE 0 = s.rd Reg.RM_STATUS_PHASE 0) :
      (u.wr Reg.PW_STATUS_CELL t cell).rd Reg.RM_STATUS_PHASE 0 = s.rd Reg.RM_STATUS_PHASE 0 :=
    (rd_wr_of_word_ne u Reg.PW_STATUS_CELL Reg.RM_STATUS_PHASE _ _ _ (by decide) (by decide) (by decide)).trans h
  refine List.foldlRecOn (motive := fun u : State => u.rd Reg.RM_STATUS_PHASE 0 = s.rd Reg.RM_STATUS_PHASE 0) _ _
    (each_keeps _ _ tile _ _ (mget_standby (by decide) (by decide) _ _)) fun u h c hc => ?_
  have bay : c < 4 := List.mem_range.1 (List.mem_filter.1 hc).1
  exact (rd_setCart_of_key_ne _ _ _ _ (cartFlds_apart_phase ⟨c, bay⟩)).trans
    ((rd_wr_of_bit_ne u Reg.LS_CART_INTERLOCK Reg.RM_STATUS_PHASE _ _ _ _ _ (by decide) (by decide) (by decide)).trans h)

theorem rd_lapseToken_phase (s : State) : s.lapseToken.rd Reg.RM_STATUS_PHASE 0 = s.rd Reg.RM_STATUS_PHASE 0 := by
  have stopped (u : State) (t : Nat) (h : u.rd Reg.RM_STATUS_PHASE 0 = s.rd Reg.RM_STATUS_PHASE 0) :
      (u.wr Reg.LINJ_STATUS_ACTIVE t 0).rd Reg.RM_STATUS_PHASE 0 = s.rd Reg.RM_STATUS_PHASE 0 :=
    (rd_wr_of_bit_ne u Reg.LINJ_STATUS_ACTIVE Reg.RM_STATUS_PHASE _ _ _ _ _ (by decide) (by decide) (by decide)).trans h
  have token {u : State} (same : u.regs = s.regs) :
      (((u.wr Reg.LC_STATUS_TOKEN_ACTIVE 0 0).wr Reg.LC_STATUS_LINK_INJECT 0 0).wr Reg.LC_STATUS_TOKEN_LEFT 0 0).rd Reg.RM_STATUS_PHASE 0 =
        s.rd Reg.RM_STATUS_PHASE 0 := by
    simp (disch := decide) only [rd_wr_of_bit_ne]
    exact rd_of_regs same _ _ _
  unfold State.lapseToken
  dsimp only
  split
  · exact token rfl
  · exact each_keeps (fun u : State => u.rd Reg.RM_STATUS_PHASE 0 = s.rd Reg.RM_STATUS_PHASE 0) _ stopped _ _ (token rfl)

theorem rd_ctlOff_phase (s : State) : s.ctlOff.rd Reg.RM_STATUS_PHASE 0 = s.rd Reg.RM_STATUS_PHASE 0 := by
  unfold State.ctlOff
  simp (disch := decide) only [rd_wr_ne]
  exact rd_lapseToken_phase s

/-- A removal that waits for its drain or shuts down goes on with the discharge. -/
theorem rd_phaseDown_phase {s : State} (h : s.rd Reg.RM_STATUS_PHASE 0 = 1 ∨ s.rd Reg.RM_STATUS_PHASE 0 = 2) :
    s.phaseDown.rd Reg.RM_STATUS_PHASE 0 = 3 := by
  rw [State.phaseDown, if_pos h]
  exact rd_wr_self ..

theorem rd_openFuse_phase {s : State} (h : s.rd Reg.RM_STATUS_PHASE 0 = 1 ∨ s.rd Reg.RM_STATUS_PHASE 0 = 2) (efuse cell : Nat) :
    (s.openFuse efuse cell).rd Reg.RM_STATUS_PHASE 0 = 3 := by
  have counted : (if s.rd Reg.IN_STATUS_EFUSE 0 = 0 then s else s.bump Reg.IN_EVENTS_TRIPS 0).rd Reg.RM_STATUS_PHASE 0 =
      s.rd Reg.RM_STATUS_PHASE 0 := by
    split
    · rfl
    · exact rd_wr_ne _ _ _ _ _ _ _ _ (by decide)
  have dark (u : State) : ((((u.panelOff cell).ctlOff.wr Reg.IN_STATUS_EFUSE 0 efuse).wr Reg.IN_STATUS_COOLANT_WAIT 0 0).wr Reg.IN_STATUS_IIN 0
      0).rd Reg.RM_STATUS_PHASE 0 = u.rd Reg.RM_STATUS_PHASE 0 := by
    simp (disch := decide) only [rd_wr_ne, rd_ctlOff_phase, rd_panelOff_phase]
  refine rd_phaseDown_phase ?_
  rw [rd_with_pwr, dark, counted]
  exact h

theorem saveLife_spec (s : State) : (s.wr Reg.RM_STATUS_PHASE 0 2).saveLife.rd Reg.RM_STATUS_PHASE 0 = 2 ∧
    (s.wr Reg.RM_STATUS_PHASE 0 2).saveLife.tray.savedAt = s.age :=
  ⟨(rd_with_tray ..).trans (rd_wr_self ..), rfl⟩

/-- The shutdown of a removal opens the e-fuse and saves the life counters. -/
theorem shutDown_spec (s : State) : let u := s.shutDown
    u.rd Reg.IN_STATUS_EFUSE 0 = 0 ∧ u.vats = [] ∧ u.rd Reg.RM_STATUS_PHASE 0 = 3 ∧ u.tray.savedAt = s.age := by
  obtain ⟨phase, saved⟩ := saveLife_spec s
  unfold State.shutDown
  generalize (s.wr Reg.RM_STATUS_PHASE 0 2).saveLife = v at phase saved
  have opened := openFuse_opened v 0 0
  exact ⟨opened.efuse, opened.vats, rd_openFuse_phase (.inr phase) 0 0, opened.savedAt.trans saved⟩

/-! ### Cells and VLNK (R349, R351, R352) -/

section
variable {s : State}

theorem doFeedLoss_of_vlnk {t : Nat} (vlnk : s.vlnk t = true) (own : Bool) : s.doFeedLoss t own =
    let u := (s.wr (if own then Reg.PW_STATUS_FEED_OWN else Reg.PW_STATUS_FEED_ALT) t 0).wr Reg.PW_STATUS_VLNK_RED t 1
    if u.rd Reg.PW_STATUS_FEED_OWN t = 0 ∧ u.rd Reg.PW_STATUS_FEED_ALT t = 0 then u.tileDown t 4 4 evVlnkLost else u := by
  simp [State.doFeedLoss, vlnk]

/-- With its own feed open a tile stands on the other one. -/
theorem rd_feeds_of_own (t : Nat) : let u := (s.wr Reg.PW_STATUS_FEED_OWN t 0).wr Reg.PW_STATUS_VLNK_RED t 1
    u.rd Reg.PW_STATUS_FEED_OWN t = 0 ∧ u.rd Reg.PW_STATUS_FEED_ALT t = s.rd Reg.PW_STATUS_FEED_ALT t := by
  simp (disch := decide) only [rd_wr_of_lo_ne, rd_wr_self, Nat.zero_mod, and_self]

theorem rd_feeds_of_alt (t : Nat) : let u := (s.wr Reg.PW_STATUS_FEED_ALT t 0).wr Reg.PW_STATUS_VLNK_RED t 1
    u.rd Reg.PW_STATUS_FEED_OWN t = s.rd Reg.PW_STATUS_FEED_OWN t := by
  simp (disch := decide) only [rd_wr_of_lo_ne]

theorem doBeatLoss_of_dark {t : Nat} (dark : s.vlnk t = false) : s.doBeatLoss t = s := if_pos (by simp [dark])

theorem doBeatLoss_of_heard {t b : Nat} (heard : mget 0 s.flt.beats t = b + 1) (early : s.now < b + 90000) : s.doBeatLoss t = s :=
  if_pos (by simp [heard, us, early])

theorem doBeatLoss_of_silent {t b : Nat} (vlnk : s.vlnk t = true) (cell : s.cellOn t = true) (watcher : s.vlnk (altFeed t) = true)
    (heard : mget 0 s.flt.beats t = b + 1) (late : b + 90000 ≤ s.now) : s.doBeatLoss t = s.tileDown t 4 0 evTileCtlLost :=
  if_neg (by simp [vlnk, cell, watcher, heard, us, late])

end

/-! ### Sensors (R350) -/

/-- The state in which the readings of a domain's sensors are shown. -/
def State.sensed (s : State) (t dom : Nat) (mv : List Nat) : State :=
  let low := (mv.filter fun x => !decide (2 * x + 160 < median2 mv)).foldl min 4095
  ((s.wr Reg.PW_DOM_MIN_MV t low dom).wr Reg.PW_DOM_MIN_SENSOR t (mv.findIdx (· == low)) dom).wr Reg.PW_DOM_EXCLUDED t
    (mv.filter fun x => decide (2 * x + 160 < median2 mv)).length dom

theorem doSensor_of_on {s : State} {t dom : Nat} {mv : List Nat} (cell : s.cellOn t = true) (sensors : mv.length = 64) :
    s.doSensor t dom mv = let v := s.sensed t dom mv
      if 8 < v.rd Reg.PW_DOM_EXCLUDED t dom ∧ v.rd Reg.PW_STATUS_SENSOR_BAD t = 0 then
        (v.wr Reg.PW_STATUS_SENSOR_BAD t 1).faultRec { type := evSensorBad, tile := t, d0 := dom }
      else v :=
  if_neg (by simp [cell, sensors])

theorem rd_sensed {s : State} {t dom : Nat} {mv : List Nat} (sensors : mv.length = 64) :
    (s.sensed t dom mv).rd Reg.PW_DOM_EXCLUDED t dom = (mv.filter fun x => decide (2 * x + 160 < median2 mv)).length ∧
      (s.sensed t dom mv).rd Reg.PW_STATUS_SENSOR_BAD t = s.rd Reg.PW_STATUS_SENSOR_BAD t := by
  have le : (mv.filter fun x => decide (2 * x + 160 < median2 mv)).length ≤ mv.length := List.length_filter_le ..
  constructor
  · exact (rd_wr_self ..).trans (Nat.mod_eq_of_lt (Nat.lt_of_le_of_lt (le.trans_eq sensors) (by decide)))
  · unfold State.sensed
    simp (disch := decide) only [rd_wr_of_bit_ne]

/-! ### Removal (R370, R371) -/

/-- An event that no EVENT_WAIT waits for is held. -/
theorem event_frame {s : State} (none_ : s.host.cmds = []) (w : Nat) : ∃ r h, s.event w = { s with regs := r, host := h } := by
  unfold State.event
  rw [none_]
  dsimp only [List.find?_nil]
  split
  · exact ⟨_, _, rfl⟩
  · exact ⟨_, _, rfl⟩

theorem rd_requested (s : State) : ((s.wr Reg.RM_CTL_REQUEST 0 1).wr Reg.RM_CTL_DRAIN_DONE 0 0).rd Reg.RM_CTL_REQUEST 0 = 1 :=
  (rd_wr_ne _ _ _ _ _ _ _ _ (by decide)).trans (rd_wr_self ..)

/-- A removal that waits for the vats to drain. -/
def State.draining (s : State) : State :=
  let u := (s.wr Reg.RM_CTL_REQUEST 0 1).wr Reg.RM_CTL_DRAIN_DONE 0 0
  State.wr { u with pwr := { u.pwr with drainAt := some s.age } } Reg.RM_STATUS_PHASE 0 1

/-- A remove request that is taken. -/
theorem removeRequest_of_idle {s : State} (phase : s.rd Reg.RM_STATUS_PHASE 0 = 0) (mated : s.pwr.mated = true) :
    s.removeRequest = let u := (s.wr Reg.RM_CTL_REQUEST 0 1).wr Reg.RM_CTL_DRAIN_DONE 0 0
      if !s.fuseLive then
        State.wr { u with tray := { s.tray with cutAt := none }
                          pwr := { s.pwr with ovAt := none, dischargeAt := some (s.pwr.dischargeAt.getD s.age) } } Reg.RM_STATUS_PHASE 0 3
      else if s.rd Reg.BU_STATUS_STATE 0 ≠ 12 then u.shutDown
      else
        let v := s.draining.event (4 + s.draining.ownMod * 2 ^ 16)
        if v.vats = [] then v.shutDown else v := by
  have live : ((s.wr Reg.RM_CTL_REQUEST 0 1).wr Reg.RM_CTL_DRAIN_DONE 0 0).fuseLive = s.fuseLive := by
    unfold State.fuseLive
    simp (disch := decide) only [rd_wr_ne]
  have state : ((s.wr Reg.RM_CTL_REQUEST 0 1).wr Reg.RM_CTL_DRAIN_DONE 0 0).rd Reg.BU_STATUS_STATE 0 = s.rd Reg.BU_STATUS_STATE 0 := by
    simp (disch := decide) only [rd_wr_ne]
  unfold State.removeRequest
  dsimp only
  rw [if_neg (by simp [phase, mated]), live, state]
  rfl

/-- The host's notice of a removal leaves the removal's registers, the cells and the vats. -/
theorem draining_spec {s : State} (idle : s.host.cmds = []) (w : Nat) : let u := s.draining.event w
    u.rd Reg.RM_CTL_REQUEST 0 = 1 ∧ u.rd Reg.RM_CTL_DRAIN_DONE 0 = 0 ∧ u.rd Reg.RM_STATUS_PHASE 0 = 1 ∧ u.pwr.drainAt = some s.age ∧
      u.vats = s.vats := by
  have kept := State.SameRegsBelowLog.event s.draining w
  obtain ⟨r, h, frame⟩ := event_frame (s := s.draining) idle w
  refine ⟨(kept _ _ _ (by decide)).trans ?_, (kept _ _ _ (by decide)).trans ?_, (kept _ _ _ (by decide)).trans ?_, ?_, ?_⟩
  · exact (rd_wr_ne _ _ _ _ _ _ _ _ (by decide)).trans ((rd_with_pwr ..).trans (rd_requested s))
  · exact (rd_wr_ne _ _ _ _ _ _ _ _ (by decide)).trans ((rd_with_pwr ..).trans (rd_wr_self ..))
  · exact rd_wr_self ..
  · rw [frame]
    rfl
  · rw [frame]
    rfl

theorem doDrainTimeout_of_late {s : State} {t : Nat} (began : s.pwr.drainAt = some t) (phase : s.rd Reg.RM_STATUS_PHASE 0 = 1)
    (late : t + 900000000 * s.rd Reg.RM_CTL_DRAIN_TIMEOUT 0 ≤ s.age) :
    s.doDrainTimeout = let u : State := { s with pwr := { s.pwr with drainAt := none } }
      if s.rd Reg.RM_CTL_FORCE 0 = 1 then (u.releaseVats (s.vats.map Vat.id)).shutDown
      else (u.wr Reg.RM_STATUS_PHASE 0 5).wr Reg.RM_CTL_REQUEST 0 0 := by
  simp only [State.doDrainTimeout, began]
  exact if_neg (by simp only [phase, us]; omega)

theorem doLatch_of_low {s : State} {vbulk : Nat} (low : vbulk ≤ 12900) (phase : s.rd Reg.RM_STATUS_PHASE 0 = 3)
    (live : s.pwr.inputGone = false) :
    s.doLatch vbulk =
      let u := (((s.wr Reg.IN_STATUS_VBULK 0 vbulk).wr Reg.RM_STATUS_PHASE 0 4).wr Reg.RM_STATUS_LATCH_OPEN 0 1).wr Reg.RM_CTL_REQUEST 0 0
      { u with pwr := { s.pwr with dischargeAt := none } } :=
  if_neg (by simp [low, phase, live])

theorem doDischargeFailure_of_late {s : State} {vbulk t : Nat} (high : 12900 < vbulk) (began : s.pwr.dischargeAt = some t)
    (late : t + 1800000000 ≤ s.age) : s.doDischargeFailure vbulk = (s.wr Reg.IN_STATUS_VBULK 0 vbulk).wr Reg.RM_STATUS_PHASE 0 6 := by
  simp only [State.doDischargeFailure, began, us]
  exact if_neg (by omega)

/-! ### The statement -/

/-- Settles O43: a case for each command, the shutdowns by `shutDown_spec`. -/
theorem cellsAndRemoval : Obligations.CellsAndRemoval := by
  unfold Obligations.CellsAndRemoval
  intro s
  refine ⟨?short, ?dark, ?vlnk, ?sensors, ?request, ?late, ?done, ?timeout, ?latch, ?failure⟩
  case short =>
    intro t under on d r
    have runs : s.doCellShort t.val under = if r.1.rd Reg.PW_STATUS_FEED_ALT t.val = 1
        then State.downAll 36 r.2 (r.1.wr Reg.PW_STATUS_VLNK_RED t.val 1) else State.downAll 36 (t.val :: r.2) r.1 := if_neg (by simp [on])
    exact ⟨fun alt => congrArg Host.Outcome.next (runs.trans (if_pos alt)), fun alt => congrArg Host.Outcome.next (runs.trans (if_neg alt))⟩
  case dark =>
    exact fun t dark => ⟨congrArg Host.Outcome.next (if_neg (by simp [dark])), congrArg Host.Outcome.next (doBeatLoss_of_dark dark)⟩
  case vlnk =>
    intro t vlnk
    have own := doFeedLoss_of_vlnk vlnk true
    have alt := doFeedLoss_of_vlnk vlnk false
    obtain ⟨opened, stands⟩ := rd_feeds_of_own (s := s) t.val
    refine ⟨fun under => congrArg Host.Outcome.next (if_pos vlnk), fun other => ?_, fun other => ?_, fun gone => ?_,
      congrArg Host.Outcome.next (if_pos vlnk),
      fun b cell watcher heard silent => congrArg Host.Outcome.next (doBeatLoss_of_silent vlnk cell watcher heard silent),
      fun b heard early => congrArg Host.Outcome.next (doBeatLoss_of_heard heard early)⟩
    · exact congrArg Host.Outcome.next (own.trans (if_neg fun h => by simp [stands.symm.trans h.2] at other))
    · exact congrArg Host.Outcome.next (alt.trans (if_neg fun h => by simp [(rd_feeds_of_alt (s := s) t.val).symm.trans h.1] at other))
    · exact congrArg Host.Outcome.next (own.trans (if_pos ⟨opened, stands.trans gone⟩))
  case sensors =>
    rintro t dom mv on sensors n _ rfl
    have runs := doSensor_of_on (dom := dom.val) on sensors
    obtain ⟨excluded, bad⟩ := rd_sensed (s := s) (t := t.val) (dom := dom.val) sensors
    dsimp only at runs
    rw [excluded, bad] at runs
    exact ⟨fun few => congrArg Host.Outcome.next (runs.trans (if_neg (by omega))),
      fun many first => congrArg Host.Outcome.next (runs.trans (if_pos ⟨many, first⟩))⟩
  case request =>
    intro phase mated
    have runs := removeRequest_of_idle phase mated
    refine ⟨fun dead => ?_, fun live early => ?_, fun live ready vats idle => ?_⟩
    · simp only [dead, Bool.not_false, if_true] at runs
      refine ⟨_, congrArg Host.Outcome.next runs, rfl, ?_, rd_wr_self .., rfl⟩
      exact (rd_wr_ne _ _ _ _ _ _ _ _ (by decide)).trans (rd_requested s)
    · simp only [live, Bool.not_true, Bool.false_eq_true, if_false] at runs
      exact congrArg Host.Outcome.next (runs.trans (if_pos early))
    · simp only [live, Bool.not_true, Bool.false_eq_true, if_false] at runs
      rw [if_neg (by simp [ready])] at runs
      obtain ⟨-, -, -, -, same⟩ := draining_spec idle (4 + s.draining.ownMod * 2 ^ 16)
      exact ⟨_, congrArg Host.Outcome.next (runs.trans (if_neg (same.trans_ne vats))), draining_spec idle _⟩
  case late =>
    intro phase
    exact congrArg Host.Outcome.next (if_neg ((rd_wr_ne _ _ _ _ _ _ _ _ (by decide)).trans_ne phase))
  case done =>
    intro phase
    refine ⟨_, congrArg Host.Outcome.next (if_pos ((rd_wr_ne _ _ _ _ _ _ _ _ (by decide)).trans phase)), ?_⟩
    exact shutDown_spec (s.wr Reg.RM_CTL_DRAIN_DONE 0 1)
  case timeout =>
    intro t began phase late
    have runs := doDrainTimeout_of_late began phase late
    refine ⟨fun force => congrArg Host.Outcome.next (runs.trans (if_pos force)), fun force => ?_⟩
    refine ⟨_, congrArg Host.Outcome.next (runs.trans (if_neg (by simp [force]))), ?_, rd_wr_self .., rfl, rfl⟩
    exact (rd_wr_ne _ _ _ _ _ _ _ _ (by decide)).trans (rd_wr_self ..)
  case latch =>
    intro vbulk low phase live
    refine ⟨_, congrArg Host.Outcome.next (doLatch_of_low low phase live), ?_, ?_, ?_, rfl⟩
    all_goals
      rw [rd_with_pwr]
      simp (disch := decide) only [rd_wr_ne, rd_wr_self]
    · decide
    · decide
    · exact Nat.mod_eq_of_lt (Nat.lt_of_le_of_lt low (by decide))
  case failure => exact fun vbulk t high began late => congrArg Host.Outcome.next (doDischargeFailure_of_late high began late)

end Sys2Proof.Machine
end

section
/-! PROOFS. The power-up of a die (12.4, R354 to R356). -/

namespace Sys2Proof.Machine

section
variable {s : State} {u : PowerUp}

/-- What a power-up that has begun its check, or its ramp, becomes where no other goes on. -/
theorem setUp_of_single (single : s.pwr.ups = [u]) (c r : Option Nat) :
    s.setUp { u with checkAt := c, rampAt := r } = { s with pwr := { s.pwr with ups := [{ u with checkAt := c, rampAt := r }] } } := by
  simp [State.setUp, single]

theorem grantOk_of_waiting (single : s.pwr.ups = [u]) (waits : u.checkAt = none) {t : Nat} (power : s.rd Reg.PW_POWER_P1MS t ≤ 510) :
    s.grantOk t = true := by
  have idle : u.busy s.now = false := by simp [PowerUp.busy, waits]
  simp [State.grantOk, single, idle]
  omega

/-- A waiting power-up beside quiet neighbours is granted (R354, R355). -/
theorem doGrant_of_waiting (single : s.pwr.ups = [u]) (waits : u.checkAt = none) (power : s.rd Reg.PW_POWER_P1MS u.tile ≤ 510)
    (still : s.rd Reg.CK_STATUS_CHANGING u.tile = 0) : s.doGrant u.tile =
      let v := s.setSiteSt u.tile u.site (if u.why = 0 then 4 else 3)
      if v.rampCheck u.tile then
        State.ramp { v with pwr := { v.pwr with ups := [{ u with checkAt := some s.now, rampAt := some s.now }] } } u.tile 0 false
      else { v with pwr := { v.pwr with ups := [{ u with checkAt := some s.now }] } } := by
  have oldest : s.pwr.ups.find? (fun u => u.checkAt.isNone) = some u := by simp [single, waits]
  have granted : ¬(u.tile ≠ u.tile ∨ (!s.grantOk u.tile) = true ∨ s.rd Reg.CK_STATUS_CHANGING u.tile = 1) := by
    simp [grantOk_of_waiting single waits power, still]
  have shown : (s.setSiteSt u.tile u.site (if u.why = 0 then 4 else 3)).pwr.ups = [u] := single
  have checked := setUp_of_single shown (some s.now) (some s.now)
  have polls := setUp_of_single shown (some s.now) u.rampAt
  unfold State.doGrant
  rw [oldest]
  dsimp only
  rw [if_neg granted]
  simp only [setSiteSt_now, checked, polls]

/-- A granted power-up whose ramp has not begun is polled (R355). -/
theorem doRampPoll_of_granted {c : Nat} (single : s.pwr.ups = [u]) (granted : u.checkAt = some c) (still : u.rampAt = none) :
    s.doRampPoll u.tile =
      let v : State := { s with pwr := { s.pwr with ups := [{ u with rampAt := some s.now }] } }
      if s.rampCheck u.tile then v.ramp u.tile (min ((s.now - c) / 900) 5000) false
      else if 5000 ≤ (s.now - c) / 900 then v.ramp u.tile 5000 true
      else s := by
  have polled : s.pwr.ups.find? (fun v => v.tile == u.tile && v.checkAt.isSome && v.rampAt.isNone) = some u := by
    simp [single, granted, still]
  have ramps := setUp_of_single single u.checkAt (some s.now)
  unfold State.doRampPoll
  rw [polled]
  dsimp only
  rw [ramps, granted]
  rfl

/-- A migration's power-up that waits 5 ms ends it BUSY (R354). -/
theorem doReserveTimeout_of_late {m : Migr} (single : s.pwr.ups = [u]) (waits : u.checkAt = none) (late : u.since + 4500000 ≤ s.now)
    (runs : s.flt.migrs = [m]) (tile : m.tile = u.tile) (fresh : m.fresh = u.site) :
    s.doReserveTimeout u.tile = (s.dropUp u.tile u.site).failMigr m 1 := by
  have waiting : s.pwr.ups.find? (fun v => v.tile == u.tile && v.checkAt.isNone) = some u := by simp [single, waits]
  have asked : s.flt.migrs.find? (fun m => m.tile == u.tile && m.fresh == u.site) = some m := by simp [runs, tile, fresh]
  unfold State.doReserveTimeout
  rw [waiting]
  dsimp only
  rw [if_neg (by simp only [us]; omega), asked]

theorem condemn_flt (s : State) (t p : Nat) : (s.condemn t p).flt = s.flt := by
  unfold State.condemn
  dsimp only
  split
  · rfl
  · rfl

/-- A ramp that fails condemns the die; no migration and no test has asked for it (R356). -/
theorem doRampFailure_of_ramping (single : s.pwr.ups = [u]) (ramps : u.rampAt.isSome = true) (noMigr : s.flt.migrs = [])
    (noTest : s.flt.tests = []) : s.doRampFailure u.tile =
      (((s.dropUp u.tile u.site).dropTest u.tile u.site).condemn u.tile u.site).saveStored := by
  have ramping : s.pwr.ups.find? (fun v => v.tile == u.tile && v.rampAt.isSome) = some u := by simp [single, ramps]
  have migrs : (((s.dropUp u.tile u.site).dropTest u.tile u.site).condemn u.tile u.site).flt.migrs = [] :=
    (congrArg Faults.migrs (condemn_flt ..)).trans noMigr
  unfold State.doRampFailure
  rw [ramping, noTest]
  simp only [List.any_nil, Bool.false_eq_true, if_false, migrs, List.find?_nil]

end

/-- Settles O44: a case for each command of a power-up. -/
theorem diePowerUp : Obligations.DiePowerUp := by
  unfold Obligations.DiePowerUp
  intro s t
  refine ⟨fun p why wants => ?reserve, fun u single tile => ?_⟩
  case reserve =>
    refine congrArg Host.Outcome.next ?_
    unfold State.doReserve
    rw [wants]
  rw [← tile]
  have exec_grant : exec (.reservationGrant t) s = .next (s.doGrant u.tile) := by rw [tile]; rfl
  have exec_poll : exec (.rampCheckPoll t) s = .next (s.doRampPoll u.tile) := by rw [tile]; rfl
  have exec_timeout : exec (.reservationTimeout t) s = .next (s.doReserveTimeout u.tile) := by rw [tile]; rfl
  have exec_failure : exec (.rampFailure t) s = .next (s.doRampFailure u.tile) := by rw [tile]; rfl
  refine ⟨?grant, ?poll, ?timeout, ?failure⟩
  case grant =>
    rintro waits power still _ rfl
    rw [exec_grant, doGrant_of_waiting single waits power still]
    exact ⟨fun good => congrArg Host.Outcome.next (if_pos good), fun bad => congrArg Host.Outcome.next (if_neg (by simp [bad]))⟩
  case poll =>
    intro c granted still waited
    rw [exec_poll, doRampPoll_of_granted single granted still]
    refine ⟨fun good => congrArg Host.Outcome.next (if_pos good), fun bad late => ?_, fun bad early => ?_⟩
    · exact congrArg Host.Outcome.next ((if_neg (by simp [bad])).trans (if_pos late))
    · exact congrArg Host.Outcome.next ((if_neg (by simp [bad])).trans (if_neg (by omega)))
  case timeout =>
    intro m waits late runs mtile fresh
    rw [exec_timeout, doReserveTimeout_of_late single waits late runs mtile fresh]
  case failure =>
    intro ramps noMigr noTest
    rw [exec_failure, doRampFailure_of_ramping single ramps noMigr noTest]

end Sys2Proof.Machine
end

section
/-! PROOFS. Dies and sites (14.4, 14.5, R404, R405, R409 to R421): migrations, losses, substitutions, tests and disables. -/

namespace Sys2Proof.Machine

/-! ### Migrations (R404, R413, R417) -/

section
variable {s : State} {t l : Nat}

/-- The state in which a migration of a logical site has entered. -/
def State.entered (s : State) (t l fresh ph : Nat) (vs : List Nat) : State :=
  { s with flt := { s.flt with migrs := s.flt.migrs ++ [⟨t, l, s.psite t l, fresh, vs, ph, s.now, true, false⟩] } }

theorem startMigr_of_busy (busy : s.siteBusy t = true) (preempt byCmd strike : Bool) :
    s.startMigr t l preempt byCmd strike = (s, some 1) := by
  simp [State.startMigr, busy]

theorem doMigrate_of_busy (busy : s.siteBusy t = true) (preempt : Bool) : s.doMigrate t l preempt = s.endSite t 1 := by
  rw [State.doMigrate, startMigr_of_busy busy]

theorem doMigrate_of_dry (free : s.siteBusy t = false) (small : l < 6) (mapped : s.psite t l ≠ 7) (some_ : s.rd Reg.SITE_MAP_DRY t ≠ 7)
    (dry : s.siteSt t (s.rd Reg.SITE_MAP_DRY t) = 2) (preempt : Bool) :
    s.doMigrate t l preempt = s.entered t l (s.rd Reg.SITE_MAP_DRY t) 0 [] := by
  have starts : s.startMigr t l preempt true false = (s.entered t l (s.rd Reg.SITE_MAP_DRY t) 0 [], none) := by
    unfold State.startMigr
    dsimp only
    rw [if_neg (by simp [free]), if_neg (by omega), if_pos ⟨some_, dry⟩]
    rfl
  rw [State.doMigrate, starts]

theorem siteBusy_entered (fresh ph : Nat) (vs : List Nat) : (s.entered t l fresh ph vs).siteBusy t = true := by
  simp [State.siteBusy, State.entered]

/-- Without a dry die a migration ends BUSY. -/
theorem doMigrate_of_no_dry (free : s.siteBusy t = false) (small : l < 6) (mapped : s.psite t l ≠ 7) (none_ : s.rd Reg.SITE_MAP_DRY t = 7) :
    s.doMigrate t l false = s.endSite t 1 := by
  have starts : s.startMigr t l false true false = (s, some 1) := by
    unfold State.startMigr
    dsimp only
    rw [if_neg (by simp [free]), if_neg (by omega), if_neg (fun h => h.1 none_)]
    rfl
  rw [State.doMigrate, starts]

/-- With PREEMPT the vats that hold the site pause, and vat 0's cores of it. -/
theorem doMigrate_of_preempt (free : s.siteBusy t = false) (small : l < 6) (mapped : s.psite t l ≠ 7) (none_ : s.rd Reg.SITE_MAP_DRY t = 7) :
    s.doMigrate t l true = let w := s.entered t l 7 1 (s.holders t l)
      (w.each (s.holders t l) fun u v => u.pauseVat v .servicePause true).pauseSvc (w.svcClus t l) := by
  have starts : s.startMigr t l true true false = (let w := s.entered t l 7 1 (s.holders t l)
      ((w.each (s.holders t l) fun u v => u.pauseVat v .servicePause true).pauseSvc (w.svcClus t l), none)) := by
    unfold State.startMigr
    dsimp only
    rw [if_neg (by simp [free]), if_neg (by omega), if_neg (fun h => h.1 none_)]
    rfl
  rw [State.doMigrate, starts]

theorem doMigrateDrain_of_late {m : Migr} (single : s.flt.migrs = [m]) (pauses : m.ph = 1) (waits : s.drained m = false)
    (late : m.since + 45000 ≤ s.now) : s.doMigrateDrain m.tile = s.failMigr m 1 := by
  have found : s.flt.migrs.find? (fun x => x.tile == m.tile && x.ph == 1) = some m := by simp [single, pauses]
  unfold State.doMigrateDrain
  rw [found]
  exact if_neg (by simp only [waits, us, Bool.false_eq_true, false_or]; omega)

/-- The rotation migrates the next logical site. -/
theorem doRotation_of_dry (some_ : s.rd Reg.SITE_MAP_DRY t ≠ 7) (dry : s.siteSt t (s.rd Reg.SITE_MAP_DRY t) = 2) (free : s.flt.migrs = [])
    (never : mget 0 s.svc.rotateSeen t = 0) : s.doRotation t = State.doMigrate { s with svc := { s.svc with
      rotated := mset 0 s.svc.rotated t ((mget 0 s.svc.rotated t + 1) % 6), rotateSeen := mset 0 s.svc.rotateSeen t (s.now + 1) } } t
      (mget 0 s.svc.rotated t) false :=
  if_neg (by simp [some_, dry, free, never])

/-! ### Losses and substitutions (R405, R409, R412) -/

theorem doSubstitute_of_busy (busy : s.siteBusy t = true) (out : SubstOut) : s.doSubstitute t l out = s.endSite t 1 := if_pos busy

theorem doSubstitute_of_free (free : s.siteBusy t = false) (small : l < 6) (mapped : s.psite t l ≠ 7) (out : SubstOut) :
    s.doSubstitute t l out = let d := s.rd Reg.SITE_MAP_DRY t
      if d = 7 ∨ s.siteSt t d ≠ 2 then s.endSite t 1 else s.loseMapped t (s.psite t l) l 6 true out := by
  unfold State.doSubstitute
  dsimp only
  rw [if_neg (by simp [free]), if_neg (by omega)]

/-- The loss of a mapped die with no substitution running. -/
theorem doDieLoss_of_mapped {p : Nat} (active : s.siteSt t p = 1) (none_ : s.flt.substs = []) (mapped : s.lsite t p ≠ 7)
    (empty : s.flt.lossQueue = []) (out : SubstOut) : s.doDieLoss t p .router out = s.loseMapped t p (s.lsite t p) 1 false out := by
  have same : ({ s with flt := { s.flt with lossQueue := s.flt.lossQueue.erase (dieKey t p, lossCode .router) } } : State) = s := by
    rw [empty]
    exact congrArg (fun q => ({ s with flt := { s.flt with lossQueue := q } } : State)) empty.symm
  have told : LossWhy.router = .router ∨ LossWhy.router = .test ∨ s.flt.lossQueue.contains (dieKey t p, lossCode .router) := .inl rfl
  unfold State.doDieLoss
  dsimp only
  rw [if_pos told, same]
  unfold State.loseDie
  dsimp only
  rw [if_neg (by simp [active]), if_neg (by simp [none_]), if_pos mapped]
  rfl

theorem doSubstFailed_of_single {x : Subst} (single : s.flt.substs = [x]) (told : x.byCmd = false) : s.doSubstFailed x.tile =
    let v := ((((State.setSiteSt { s with flt := { s.flt with substs := [] } } x.tile x.fresh 6).closeDieLink x.tile x.fresh).wr
      Reg.SITE_MAP_DRY x.tile 7).remap x.tile x.lsite 7).dropReset (coresOfDie x.tile x.fresh)
    ((v.recEach x.vats { type := evSubstFailed, tile := x.tile, psite := x.fresh, lsite := x.lsite }).oldDie x.tile x.old
      x.retest).saveStored := by
  have found : s.flt.substs.find? (fun y => y.tile == x.tile) = some x := by simp [single]
  have gone : s.flt.substs.filter (fun y => y.tile != x.tile) = [] := by simp [single]
  unfold State.doSubstFailed
  rw [found]
  simp only [gone, told, Bool.false_eq_true, if_false]

/-! ### Tests (R415, R419) -/

theorem doBist_of_single {p since : Nat} (single : s.flt.tests = [⟨t, p, 3, since⟩]) (testing : s.siteSt t p = 3) (r : BistResult) :
    s.doBist t p r =
      let v := (s.recordTest t p r).addHistory (dieLinkKeys t p 16384 r.badLanes) (dieLinkKeys t p 8 r.badGroups)
      (if r.pass && !v.tooNarrow t (4 + p) then v.toDry t p else v.condemn t p).saveStored := by
  have found : s.flt.tests.find? (fun x => x.tile == t && x.site == p) = some ⟨t, p, 3, since⟩ := by simp [single]
  unfold State.doBist
  rw [found]
  dsimp only
  rw [if_neg (by simp [testing]), if_neg (by decide)]
  generalize (s.recordTest t p r).addHistory (dieLinkKeys t p 16384 r.badLanes) (dieLinkKeys t p 8 r.badGroups) = v
  cases r.pass && !v.tooNarrow t (4 + p)
  · rfl
  · rfl

theorem doTestDry_of_free (free : s.siteBusy t = false) (noTest : s.flt.tests = []) : s.doTestDry t =
    let d := s.rd Reg.SITE_MAP_DRY t
    if d = 7 ∨ s.siteSt t d ≠ 2 then (s.wr Reg.FT_TEST_DONE t 1).wr Reg.FT_TEST_RESULT t 2 else s.addTest ⟨t, d, 3, s.now⟩ :=
  if_neg (by simp [free, noTest])

end

/-! ### Uncorrectable words (R404) -/

theorem coreKey_parts (c : Core) : coreKey c / 256 = c.tile.val ∧ coreKey c / 32 % 8 = c.site.val ∧ coreKey c / 8 % 4 = c.cl.val ∧
    slotOf (coreKey c) = c.slot.val := by
  have site := c.site.isLt
  have cl := c.cl.isLt
  have slot := c.slot.isLt
  unfold coreKey slotOf
  omega

/-- The first uncorrectable word that a reader has met is reported with count 1. -/
theorem doUeReport_of_first {s : State} {core word src : Nat} (on : s.dieOn (core / 256) (core / 32 % 8) = true) (none_ : s.flt.ues = [])
    (met : s.cmp.ueNew = [(core * 2 ^ 21 + word, src)]) : s.doUeReport core word src false = State.faultRec { s with
        cmp := { s.cmp with ueNew := [] }
        flt := { s.flt with ues := [(dieKey (core / 256) (core / 32 % 8), core * 2 ^ 21 + word, s.now)] } }
      { type := evScratchUe, tile := core / 256, psite := core / 32 % 8, lsite := s.lsite (core / 256) (core / 32 % 8),
        cluster := core / 8 % 4, slot := slotOf core, d0 := 0, d1 := 1 } := by
  have first : (!s.dieOn (core / 256) (core / 32 % 8) || !s.cmp.ueNew.contains (core * 2 ^ 21 + word, src)) = false := by simp [on, met]
  have erased : s.cmp.ueNew.erase (core * 2 ^ 21 + word, src) = [] := by simp [met]
  unfold State.doUeReport
  dsimp only
  rw [first, erased, none_]
  simp
  rfl

/-! ### VF disables (R420, R421) -/

theorem doVfDisable_of_no_vat {s : State} {vf : Nat} (notPf : vf ≠ 0) (noVat : (s.resetFn (vf + 1)).vat? (mget 0 s.host.vfVat vf) = none) :
    s.doVfDisable vf = s.resetFn (vf + 1) := by
  unfold State.doVfDisable
  dsimp only
  rw [if_neg notPf, if_pos (.inl noVat)]

theorem doVfDisable_of_vat {s : State} {vf : Nat} {v : Vat} (notPf : vf ≠ 0)
    (held : (s.resetFn (vf + 1)).vat? (mget 0 s.host.vfVat vf) = some v) (lives : v.killing = none)
    (none_ : (s.resetFn (vf + 1)).host.disables = []) : s.doVfDisable vf =
      let r := s.resetFn (vf + 1)
      let q : State := { r with host := { r.host with disables := [vf] } }
      if r.clk.started then q else q.disableVf vf := by
  unfold State.doVfDisable
  dsimp only
  rw [if_neg notPf]
  generalize s.resetFn (vf + 1) = r at held none_ ⊢
  rw [if_neg (by simp [held, lives, none_]), none_]
  refine ite_congr rfl (fun _ => rfl) fun still => if_neg ?_
  simp only [Bool.not_eq_true] at still
  simp [still]

theorem doVatDrain_of_ended {s : State} {id k : Nat} {v : Vat} (held : s.vat? id = some v) (killed : v.killing = some k)
    (ended : s.underWay (s.subtree id) = false ∨ k + 4500000 ≤ s.now) : s.doVatDrain id = s.endDisable (s.topOf id) := by
  unfold State.doVatDrain
  rw [held]
  dsimp only [Option.bind_some]
  rw [killed]
  refine if_neg ?_
  rw [Bool.and_eq_true]
  rintro ⟨runs, early⟩
  have early : s.now < k + 4500000 := of_decide_eq_true early
  rcases ended with drained | late
  · simp [drained] at runs
  · omega

/-! ### The statement -/

/-- Settles O45: a case for each command. -/
theorem diesAndSites : Obligations.DiesAndSites := by
  unfold Obligations.DiesAndSites
  intro s t
  refine ⟨?migrate, ?busy, ?drain, ?loss, ?failed, ?bist, ?test, ?word, ?disable, ?gone⟩
  case migrate =>
    intro l small mapped free
    have fresh := doMigrate_of_dry free small mapped
    have subst := doSubstitute_of_free free small mapped
    refine ⟨fun some_ dry => ⟨congrArg Host.Outcome.next (fresh some_ dry false), siteBusy_entered ..⟩, fun none_ => ⟨?_, fun out => ?_, ?_⟩,
      fun out some_ dry => ?_⟩
    · exact congrArg Host.Outcome.next (doMigrate_of_no_dry free small mapped none_)
    · exact congrArg Host.Outcome.next ((subst out).trans (if_pos (.inl none_)))
    · exact congrArg Host.Outcome.next (doMigrate_of_preempt free small mapped none_)
    · exact congrArg Host.Outcome.next ((subst out).trans (if_neg (by simp [some_, dry])))
  case busy =>
    exact fun l out busy => ⟨congrArg Host.Outcome.next (doMigrate_of_busy busy false), congrArg Host.Outcome.next (doMigrate_of_busy busy true),
      congrArg Host.Outcome.next (doSubstitute_of_busy busy out)⟩
  case drain =>
    intro m single tile pauses waits late
    have runs := doMigrateDrain_of_late single pauses waits late
    rw [tile] at runs
    exact congrArg Host.Outcome.next runs
  case loss => exact fun p out active none_ mapped empty => congrArg Host.Outcome.next (doDieLoss_of_mapped active none_ mapped empty out)
  case failed =>
    intro x single tile told
    have runs := doSubstFailed_of_single single told
    rw [tile] at runs
    exact congrArg Host.Outcome.next runs
  case bist => exact fun p r since single testing => congrArg Host.Outcome.next (doBist_of_single single testing r)
  case test =>
    intro free noTest
    have runs := doTestDry_of_free free noTest
    refine ⟨fun some_ dry => ?_, fun none_ => ?_, fun some_ dry noMigr never => ?_⟩
    · exact congrArg Host.Outcome.next (runs.trans (if_neg (by simp [some_, dry])))
    · exact congrArg Host.Outcome.next (runs.trans (if_pos (.inl none_)))
    · exact congrArg Host.Outcome.next (doRotation_of_dry some_ dry noMigr never)
  case word =>
    intro c word src p w on none_ met
    obtain ⟨tile, site, cluster, slot⟩ := coreKey_parts c
    have reports := doUeReport_of_first (s := s) (core := coreKey c) (word := word.toNat) (src := src.toNat)
    rw [tile, site, cluster, slot] at reports
    exact congrArg Host.Outcome.next (reports on none_ met)
  case disable =>
    intro vf notPf r id q
    have notPf : vf.toNat ≠ 0 := fun h => notPf (BitVec.eq_of_toNat_eq h)
    exact ⟨fun noVat => congrArg Host.Outcome.next (doVfDisable_of_no_vat notPf noVat),
      fun v held lives none_ => congrArg Host.Outcome.next (doVfDisable_of_vat notPf held lives none_)⟩
  case gone => exact fun id v k held killed ended => congrArg Host.Outcome.next (doVatDrain_of_ended held killed ended)

end Sys2Proof.Machine
end

section
/-! PROOFS. The culture (15.5, R442 to R448). -/

namespace Sys2Proof.Machine

section
variable {s : State}

/-- Every state of the bring-up that CULTURE begins from begins it alike. -/
theorem doCulture_of_choice {v : State} (at_ : s.atBu [10, 15] = true) (maker : s.rd Reg.LC_STATUS_STATE 0 ≠ 0)
    (chosen : s.chooseCulture = (v, true)) : s.doCulture =
      let img := (v.boot.cul.getD (v.rd Reg.CUL_STATUS_SLOT 0) {}).data
      let y := ((v.enterBu 11).writeTier svcT1 img).writeTier svcT2 img
      let z := ((y.wr Reg.CUL_STATUS_ROUNDS 0 0).wr Reg.CUL_STATUS_FETCHED 0 0).wr Reg.CUL_STATUS_FENCED 0 0
      { z with boot := { z.boot with image := img, bits := [], confirmed := [], reload := [], sentAt := z.now,
                                     passEnd := z.now + 24 * imageChunks img } } := by
  have starts : (!s.atBu [10, 15] || s.rd Reg.LC_STATUS_STATE 0 == 0) = false := by simp [at_, maker]
  unfold State.doCulture
  rw [starts, chosen]
  rfl

theorem doChunk_of_bad (u : CulUnit) (i : Nat) : s.doChunk u i false = s := if_pos (by simp)

/-- A base die takes a good chunk that it needs and lacks (R443). -/
theorem doChunk_of_base {t : Tile} {i : Nat} (at_ : s.atBu [11] = true) (small : i < s.culN) (target : s.culKeys.contains (baseKey t.val) = true)
    (waits : s.culDone (baseKey t.val) = false) (needs : s.needs (baseKey t.val) i = true) (lacks : s.hasChunk (baseKey t.val) i = false) :
    s.doChunk (.base t) i true = s.takeChunk (baseKey t.val) i := by
  have taken : (unitKeys (.base t)).filter (fun k => s.culKeys.contains k && !s.culDone k && s.needs k i && !s.hasChunk k i) =
      [baseKey t.val] := List.filter_eq_self.2 (by simpa [unitKeys, waits, needs, lacks] using target)
  unfold State.doChunk
  rw [if_neg (by simp [at_, small]), taken]
  rfl

/-- A repair round is counted and sends what is missing (R444). -/
theorem doMissing_of_gone {gone : List Nat} (at_ : s.atBu [11] = true)
    (missing : gone = (List.range s.culN).filter fun i => s.culKeys.any fun k => !s.culDone k && s.needs k i && !s.hasChunk k i)
    (some_ : gone ≠ []) (passed : s.boot.passEnd + 9000 ≤ s.now) (rounds : s.rd Reg.CUL_STATUS_ROUNDS 0 < 3) :
    s.doMissing = { s.bump Reg.CUL_STATUS_ROUNDS 0 with boot := { s.boot with passEnd := s.now + 24 * gone.length } } := by
  have late : ¬s.now < s.boot.passEnd + us 10 := by simp only [us]; omega
  have starts : (!s.atBu [11] || decide (s.now < s.boot.passEnd + us 10) || gone == [] || s.rd Reg.CUL_STATUS_ROUNDS 0 == 3) = false := by
    simp [at_, late, some_]
    omega
  unfold State.doMissing
  rw [← missing]
  dsimp only
  rw [starts]
  rfl

/-- After the third round a base die fetches the chunk that it lacks (R445). -/
theorem doFetch_of_base {t : Tile} {i : Nat} (at_ : s.atBu [11] = true) (rounds : s.rd Reg.CUL_STATUS_ROUNDS 0 = 3)
    (passed : s.boot.passEnd + 9000 ≤ s.now) (target : s.culKeys.contains (baseKey t.val) = true)
    (waits : s.culDone (baseKey t.val) = false) (lacks : s.missing (baseKey t.val) = [i]) (tgt : Nat) :
    s.doFetch (.base t) tgt = s.fetchChunk (baseKey t.val) i := by
  have late : ¬s.now < s.boot.passEnd + us 10 := by simp only [us]; omega
  have starts : (!s.atBu [11] || s.rd Reg.CUL_STATUS_ROUNDS 0 != 3 || decide (s.now < s.boot.passEnd + us 10) ||
      !s.culKeys.contains (baseKey t.val) || s.culDone (baseKey t.val)) = false := by
    rw [at_, target, waits, rounds, decide_eq_false late]
    rfl
  unfold State.doFetch
  dsimp only
  rw [starts, lacks]
  rfl

/-- A core that has not confirmed is fenced, reported, and its die lost (R446). -/
theorem doConfirmDeadline_of_core {core : Nat} (at_ : s.atBu [11] = true) (passed : s.boot.sentAt + 45000000 ≤ s.now)
    (open_ : (s.culKeys.filter fun k => !s.culDone k) = [core]) (small : core < 2 ^ 20) : s.doConfirmDeadline =
      ((s.unconfirmed core).bump Reg.CUL_STATUS_FENCED 0).reportLoss (dieKey (core / 256) (core / 32 % 8) / 8)
        (dieKey (core / 256) (core / 32 % 8) % 8) 4 := by
  have late : ¬s.now < s.boot.sentAt + us 50000 := by simp only [us]; omega
  have starts : (!s.atBu [11] || decide (s.now < s.boot.sentAt + us 50000)) = false := by simp [at_, late]
  have isCore : isBase core = false := decide_eq_false (by omega)
  unfold State.doConfirmDeadline
  rw [starts, open_]
  simp [isCore, State.each]

/-- A zero-filled core whose parts verify is confirmed again (R448). -/
theorem doReload_of_sound {u : State} {core e : Nat} (ready : 11 ≤ s.buSt) (waits : s.boot.reload.contains core = true)
    (active : s.dieActive (core / 256) (core / 32 % 8) = true) (loads : s.loadCulture core = (u, some e)) (noReset : u.boot.rst = none) :
    s.doReload core = ((u.confirm core e).awaitStart core).leaveReset core := by
  have starts : ¬(!s.boot.reload.contains core || !s.dieActive (core / 256) (core / 32 % 8) || decide (s.buSt < 11)) = true := by
    rw [waits, active, decide_eq_false (by omega)]
    decide
  have lives : ¬(u.boot.rst.any fun r => r.2.2.contains core) = true := by simp [noReset]
  unfold State.doReload
  rw [if_neg starts, loads]
  dsimp only
  rw [if_neg lives]

end

/-- Settles O47: a case for each command of the culture. -/
theorem cultureBroadcast : Obligations.CultureBroadcast := by
  unfold Obligations.CultureBroadcast
  intro s sound input
  refine ⟨?begins, fun state => ?broadcast, ?reload⟩
  case begins =>
    rintro v _ _ state maker chosen _ rfl rfl rfl
    exact congrArg Host.Outcome.next (doCulture_of_choice (atBu_of_mem input sound (by simp [state])) maker chosen)
  case reload =>
    exact fun c u e ready waits active loads noReset => congrArg Host.Outcome.next (doReload_of_sound ready waits active loads noReset)
  case broadcast =>
    have at_ : s.atBu [11] = true := atBu_of_mem input sound (by simp [state])
    refine ⟨fun t i => ⟨congrArg Host.Outcome.next (doChunk_of_bad ..), fun small target waits needs lacks => ?_⟩, ?missing, ?fetch, ?deadline⟩
    · exact congrArg Host.Outcome.next (doChunk_of_base at_ small target waits needs lacks)
    case missing =>
      intro gone missing some_ passed rounds
      refine ⟨_, congrArg Host.Outcome.next (doMissing_of_gone at_ missing some_ passed rounds), rfl, ?_, rfl⟩
      refine (rd_with_boot ..).trans ((rd_bump_self ..).trans ?_)
      exact Nat.min_eq_left rounds
    case fetch =>
      exact fun t tgt i rounds passed target waits lacks => congrArg Host.Outcome.next (doFetch_of_base at_ rounds passed target waits lacks tgt.val)
    case deadline =>
      exact fun core late open_ small => congrArg Host.Outcome.next (doConfirmDeadline_of_core at_ late open_ small)

end Sys2Proof.Machine
end

section
/-! PROOFS. The host link and the modules of a system (16.1, 16.4, R460, R461, R473 to R476). -/

namespace Sys2Proof.Machine

section
variable {s : State}

theorem doAnnounce_of_open {m : Nat} (system : s.host.inSystem = true) (other : m ≠ s.ownMod) (inside : m < 16 * s.host.depthZ)
    (open_ : s.rd Reg.FN_SYS_FORMED 0 = 0) :
    s.doAnnounce m = { s with host := { s.host with announced := (s.host.announced ++ [m]).dedup, upMods := (s.host.upMods ++ [m]).dedup } } :=
  if_neg (by simp [system, other, inside, open_])

theorem doJoin_of_formed {m : Nat} (system : s.host.inSystem = true) (other : m ≠ s.ownMod) (inside : m < 16 * s.host.depthZ)
    (formed : s.rd Reg.FN_SYS_FORMED 0 = 1) (away : s.host.upMods.contains m = false) : s.doJoin m =
      ((State.bumpW { s with host := { s.host with upMods := s.host.upMods ++ [m], announced := (s.host.announced ++ [m]).dedup } }
        Reg.FN_SYS_MODULES 0).event (2 + m * 2 ^ 16)) :=
  if_neg (by rw [system, formed, away]; simp [other, inside])

/-- A formed system under a lead. -/
def State.formed (s : State) (lead : Nat) : State :=
  let u := ((s.wr Reg.FN_SYS_LEAD 0 lead).wr Reg.FN_SYS_MODULES 0 s.host.announced.length).wr Reg.FN_SYS_FORMED 0 1
  { u with host := { s.host with up := lead == s.ownMod, leadLostAt := none } }

/-- What a formation shows. -/
theorem rd_formed {lead : Nat} (small : lead < 64) : (s.formed lead).rd Reg.FN_SYS_LEAD 0 = lead ∧
    (s.formed lead).rd Reg.FN_SYS_FORMED 0 = 1 ∧ (s.formed lead).host.up = (lead == s.ownMod) ∧
    (s.formed lead).rd Reg.FN_SYS_MODULES 0 = s.host.announced.length % 128 := by
  unfold State.formed
  simp (disch := decide) only [rd_with_host, rd_wr_ne, rd_wr_self, true_and]
  exact ⟨Nat.mod_eq_of_lt small, by decide, rfl⟩

section
variable (system : s.host.inSystem = true) (ready : s.buSt = 12) (open_ : s.rd Reg.FN_SYS_FORMED 0 = 0) (first : s.host.leadLostAt = none)
include system ready open_ first

theorem formation_ends {joined : Option Nat} (complete : joined.isSome = true ∨ s.host.announced.length = 16 * s.host.depthZ) :
    (!s.host.inSystem || s.buSt != 12 || s.rd Reg.FN_SYS_FORMED 0 == 1 ||
      !(s.host.leadLostAt.isNone || s.host.announced.contains (s.rd Reg.FN_SYS_LEAD 0)) ||
      !(joined.isSome || s.host.announced.length == 16 * s.host.depthZ || decide (s.host.readyAt + us (60 * 10 ^ 6) ≤ s.age))) = false := by
  rcases complete with known | full
  · simp [system, ready, open_, first, known]
  · simp [system, ready, open_, first, full]

/-- The formation of a whole torus makes its lowest cabled module the lead (R474). -/
theorem doFormation_of_full {cabled : List Nat} {lead : Nat} (full : s.host.announced.length = 16 * s.host.depthZ)
    (least : (cabled.filter s.host.announced.contains).min? = some lead) (reached : cabled.contains s.ownMod = false ∨ lead = s.ownMod) :
    s.doFormation cabled none = s.formed lead := by
  have noReport : ¬(cabled.contains s.ownMod = true ∧ lead ≠ s.ownMod) := fun ⟨cable, ne⟩ =>
    reached.elim (fun off => Bool.noConfusion (off.symm.trans cable)) ne
  unfold State.doFormation
  dsimp only
  rw [formation_ends system ready open_ first (joined := none) (.inr full), least]
  exact if_neg noReport

/-- A module that joins a formed system takes that system's lead (R475). -/
theorem doFormation_of_joined {cabled : List Nat} {m : Nat} (other : m ≠ s.ownMod) (off : cabled.contains s.ownMod = false) :
    s.doFormation cabled (some m) = s.formed m := by
  have noReport : ¬(cabled.contains s.ownMod = true ∧ m ≠ s.ownMod) := fun h => Bool.noConfusion (off.symm.trans h.1)
  unfold State.doFormation
  dsimp only
  rw [formation_ends system ready open_ first (joined := some m) (.inl rfl), if_neg other]
  exact if_neg noReport

end

/-- With no vats placed only the system's fields change when the lead is lost (R476). -/
theorem doLeadLost_of_other (system : s.host.inSystem = true) (formed : s.rd Reg.FN_SYS_FORMED 0 = 1)
    (other : s.rd Reg.FN_SYS_LEAD 0 ≠ s.ownMod) (noVats : s.vats = []) : s.doLeadLost = { s.wr Reg.FN_SYS_FORMED 0 0 with host := { s.host with
      leadLostAt := some s.age, announced := s.host.announced.filter (· != s.rd Reg.FN_SYS_LEAD 0)
      upMods := s.host.upMods.filter (· != s.rd Reg.FN_SYS_LEAD 0) } } := by
  unfold State.doLeadLost
  dsimp only
  rw [if_neg (by simp [system, formed, other]), noVats]
  rfl

/-- A module of the system is counted off. -/
def State.withoutModule (s : State) (m : Nat) : State :=
  let v : State := { s with host := { s.host with upMods := s.host.upMods.filter (· != m), announced := s.host.announced.filter (· != m) } }
  v.wr Reg.FN_SYS_MODULES 0 (s.rd Reg.FN_SYS_MODULES 0 - 1)

/-- The loss of a module is reported for each of its vats, which are held. -/
def State.moduleGone (s : State) (m : Nat) (vs : List Nat) : State :=
  ((s.each vs fun u v => u.faultHold v false).recEach vs { type := evModuleLost, d0 := m }).event (3 + m * 2 ^ 16)

theorem each_nil {α : Type} (s : State) (f : State → α → State) : s.each [] f = s := rfl

theorem each_singleton {α : Type} (s : State) (f : State → α → State) (x : α) : s.each [x] f = f s x := rfl

/-- Where no vat is concerned one record is entered, for vat 0. -/
theorem recEach_nil (s : State) {r : FRec} (r0 : r.vat = 0) : s.recEach [] r = s.faultRec r := by
  obtain ⟨⟩ := r
  subst r0
  rw [State.recEach, if_pos rfl, each_singleton]

theorem moduleGone_nil (s : State) (m : Nat) :
    s.moduleGone m [] = (s.faultRec { type := evModuleLost, d0 := m }).event (3 + m * 2 ^ 16) := by
  rw [State.moduleGone, each_nil, recEach_nil _ rfl]

theorem doModuleLost_of_up {m : Nat} (up : s.host.upMods.contains m = true) : s.doModuleLost m =
    (s.withoutModule m).moduleGone m ((s.vats.filter fun v => v.parent == 0 && v.mods.contains m).map Vat.id) := by
  have runs : s.doModuleLost m = if !s.host.upMods.contains m then s else
      (s.withoutModule m).moduleGone m ((s.vats.filter fun v => v.parent == 0 && v.mods.contains m).map Vat.id) := rfl
  rw [runs, if_neg (by rw [up]; decide)]

theorem doReformTimeout_of_late {t : Nat} (lost : s.host.leadLostAt = some t) (late : t + 54000000000 ≤ s.age) :
    s.doReformTimeout = s.releaseVats ((s.vats.filter fun v => v.parent == 0).map Vat.id) := by
  simp only [State.doReformTimeout, lost, us]
  exact if_neg (by omega)

end

/-- Settles O52: a case for each command, the formations by `rd_formed`. -/
theorem systemOfModules : Obligations.SystemOfModules := by
  unfold Obligations.SystemOfModules
  intro s
  refine ⟨fun up => congrArg Host.Outcome.next (if_pos up), fun lead ready => congrArg Host.Outcome.next (if_pos (by simp [lead, ready])),
    fun system => ⟨fun m other inside => ⟨fun open_ => ?announce, ?join⟩, ?formation, ?joined, ?lost⟩, ?moduleLost, ?reform⟩
  case announce => exact ⟨_, congrArg Host.Outcome.next (doAnnounce_of_open system other inside open_), rfl, rfl, rfl⟩
  case join =>
    rintro formed away _ rfl
    exact congrArg Host.Outcome.next (doJoin_of_formed system other inside formed away)
  case formation =>
    intro cabled lead ready open_ first full least reached small
    obtain ⟨shown, formed, up, modules⟩ := rd_formed (s := s) small
    refine ⟨_, congrArg Host.Outcome.next (doFormation_of_full system ready open_ first full least reached), shown, formed, up, ?_⟩
    rw [modules, full]
  case joined =>
    intro cabled m ready open_ first other off
    obtain ⟨shown, formed, up, modules⟩ := rd_formed (s := s) m.isLt
    exact ⟨_, congrArg Host.Outcome.next (doFormation_of_joined system ready open_ first other off), shown, formed,
      up.trans (beq_false_of_ne other), modules⟩
  case lost =>
    intro formed other noVats
    exact ⟨_, congrArg Host.Outcome.next (doLeadLost_of_other system formed other noVats), (rd_with_host ..).trans (rd_wr_self ..), rfl, rfl⟩
  case moduleLost =>
    rintro m up noVats _ rfl
    have runs := doModuleLost_of_up up
    rw [noVats, List.filter_nil, List.map_nil, moduleGone_nil] at runs
    exact congrArg Host.Outcome.next runs
  case reform => exact fun t lost late => congrArg Host.Outcome.next (doReformTimeout_of_late lost late)

end Sys2Proof.Machine
end

section
/-! PROOFS. Management (17, R359, R473, R485 to R492): telemetry, settings, updates, attestation, congestion records. -/

namespace Sys2Proof.Machine

section
variable {s : State}

theorem ctlUp_of_up (up : 2 ≤ s.buSt) : s.ctlUp = true := decide_eq_true up

theorem overRedfish_of_up (up : 2 ≤ s.buSt) : s.overRedfish .redfish = true := by
  rw [State.overRedfish, ctlUp_of_up up]
  rfl

/-! ### Telemetry and settings (Table 17.4, R359, R473) -/

theorem doReadSensors_of_up (up : 2 ≤ s.buSt) (ifc : MgmtIf) {id : BitVec 16} {v : Nat} (reads : s.sensor id.toNat = some v) :
    s.doReadSensors ifc (.sensor id) = s.answer [v] := by
  unfold State.doReadSensors
  rw [if_neg (by simp [ctlUp_of_up up])]
  dsimp only
  rw [reads]

theorem rd_showBudget_cap (s : State) : s.showBudget.rd Reg.LG_CAP_CAP_W 0 = s.rd Reg.LG_CAP_CAP_W 0 := by
  unfold State.showBudget
  simp (disch := decide) only [rd_wr_ne]

/-- A cap in range is stored. -/
theorem rd_setCap {w : Nat} (low : 4000 ≤ w) (high : w ≤ 17500) : (s.setCap w).rd Reg.LG_CAP_CAP_W 0 = w ∧ (s.setCap w).mem = s.mem := by
  rw [State.setCap, if_pos ⟨low, high⟩]
  refine ⟨(rd_showBudget_cap _).trans ((rd_with_pwr ..).trans ((rd_wr_self ..).trans ?_)), rfl⟩
  exact Nat.mod_eq_of_lt (Nat.lt_of_le_of_lt high (by decide))

/-- The torus position is stored. -/
def State.torusStored (s : State) (x y z depth : Nat) : State :=
  ((((s.wr Reg.TORUS_X 0 x).wr Reg.TORUS_Y 0 y).wr Reg.TORUS_Z 0 z).wr Reg.TORUS_DEPTH 0 depth).wr Reg.TORUS_VALID 0 1

theorem doTorus_of_valid (up : 2 ≤ s.buSt) {z depth : Nat} (some_ : 1 ≤ depth) (small : depth ≤ 4) (inside : z < depth) (x y : Nat) :
    s.doTorus .redfish x y z depth = s.torusStored x y z depth :=
  if_neg (by simp [overRedfish_of_up up, some_, small, inside])

theorem rd_torusStored (x y z : BitVec 2) (depth : BitVec 3) : let u := s.torusStored x.toNat y.toNat z.toNat depth.toNat
    u.rd Reg.TORUS_X 0 = x.toNat ∧ u.rd Reg.TORUS_Y 0 = y.toNat ∧ u.rd Reg.TORUS_Z 0 = z.toNat ∧ u.rd Reg.TORUS_DEPTH 0 = depth.toNat ∧
      u.rd Reg.TORUS_VALID 0 = 1 := by
  unfold State.torusStored
  simp (disch := decide) only [rd_wr_ne, rd_wr_self]
  exact ⟨Nat.mod_eq_of_lt x.isLt, Nat.mod_eq_of_lt y.isLt, Nat.mod_eq_of_lt z.isLt, Nat.mod_eq_of_lt depth.isLt, by decide⟩

/-! ### Updates and attestation (R488, R490) -/

/-- An update of the service image goes to the slot that is not in use. -/
theorem doUpdate_of_service (up : 2 ≤ s.buSt) {p : UpdateIn} (service : p.culture = false) : s.doUpdate p =
    let i := 1 - s.boot.svcInUse
    if p.interrupted then { s with boot := { s.boot with svc := s.boot.svc.set i {} } }
    else
      let x : Slot := ⟨true, p.data, p.svn.toNat, p.keyIndex.toNat, p.release.toNat, sigsBoth p.sigs⟩
      let u : State := { s with boot := { s.boot with svc := s.boot.svc.set i x } }
      u.answer [b2n (u.svcOk i)] := by
  unfold State.doUpdate
  rw [if_neg (by simp [ctlUp_of_up up]), service]
  cases p.interrupted
  · rfl
  · rfl

/-- The free words of an answer come after what has been answered, and change no register. -/
theorem answerFree_spec : ∀ (n : Nat) (s : State), (State.answerFree n s).regs = s.regs ∧
    ∃ ws, (State.answerFree n s).mgmt.answers = s.mgmt.answers ++ ws
  | 0, _ => ⟨rfl, [], (List.append_nil _).symm⟩
  | n + 1, s => by
    obtain ⟨regs, ws, answers⟩ := answerFree_spec n ((s.draw.2).answer [s.draw.1.toNat])
    exact ⟨regs, [w64 s.draw.1.toNat] ++ ws, answers.trans (List.append_assoc ..)⟩

theorem doAttest_of_culture (up : 2 ≤ s.buSt) (keyed : s.rd Reg.LC_STATUS_STATE 0 ≠ 0) :
    s.doAttest .mctp (.getMeasurements 3) = State.answerFree 12 (s.answer ((List.range 6).map fun n => s.rd Reg.CUL_DIGEST_DIGEST 0 n)) :=
  (if_neg (by simp [ctlUp_of_up up, isRedfish, keyed])).trans (if_pos (by decide))

/-- The answer to a measurement of the culture begins with MANIFEST_DIGEST. -/
theorem attests_culture (up : 2 ≤ s.buSt) (keyed : s.rd Reg.LC_STATUS_STATE 0 ≠ 0) : let u := s.doAttest .mctp (.getMeasurements 3)
    u.regs = s.regs ∧ u.mgmt.answers.take (s.mgmt.answers.length + 6) =
      s.mgmt.answers ++ (List.range 6).map fun n => w64 (s.rd Reg.CUL_DIGEST_DIGEST 0 n) := by
  rw [doAttest_of_culture up keyed]
  obtain ⟨regs, ws, answers⟩ := answerFree_spec 12 (s.answer ((List.range 6).map fun n => s.rd Reg.CUL_DIGEST_DIGEST 0 n))
  refine ⟨regs, ?_⟩
  have begins : (s.answer ((List.range 6).map fun n => s.rd Reg.CUL_DIGEST_DIGEST 0 n)).mgmt.answers =
      s.mgmt.answers ++ (List.range 6).map fun n => w64 (s.rd Reg.CUL_DIGEST_DIGEST 0 n) :=
    congrArg (s.mgmt.answers ++ ·) List.map_map
  rw [answers, begins]
  exact List.take_left' (by simp)

/-! ### Congestion records (R492) -/

/-- The state in which the record of an interval that has been kept is written. -/
def State.congRecorded (s : State) : State :=
  let u := (s.stBytes (s.congAddr (s.rd Reg.CM_HEAD_HEAD 0)) (toBytes (s.congWords.flatMap (leBytes 8)))).bumpW Reg.CM_HEAD_HEAD 0
  { u with cong := { s.cong with seq := s.cong.seq + 1 } }

theorem doCongestion_of_next (started : s.clk.started = true) (enabled : s.rd Reg.CM_CTL_ENABLE 0 = 1)
    (next : s.now / 900000 = s.cong.at_ + 1) : s.doCongestion = s.congRecorded.congStart := by
  have millisecond : s.now / ms 1 = s.cong.at_ + 1 := next
  unfold State.doCongestion
  dsimp only
  rw [millisecond, if_neg (by simp [started]), if_neg (by rw [enabled]; decide), Nat.add_sub_cancel_left, if_pos rfl]
  rfl

/-- A new interval begins without a change of registers or of the records' number. -/
theorem congStart_spec (s : State) : s.congStart.cong.at_ = s.now / 900000 ∧ s.congStart.cong.seq = s.cong.seq ∧ s.congStart.regs = s.regs :=
  ⟨rfl, rfl, rfl⟩

theorem congRecorded_spec (s : State) : s.congRecorded.now = s.now ∧ s.congRecorded.cong.seq = s.cong.seq + 1 ∧
    s.congRecorded.rd Reg.CM_HEAD_HEAD 0 = (s.rd Reg.CM_HEAD_HEAD 0 + 1) % 2 ^ Reg.CM_HEAD_HEAD.w :=
  ⟨rfl, rfl, rd_wr_self (s.stBytes ..) Reg.CM_HEAD_HEAD 0 _ 0⟩

end

/-- Settles O53: a case for each service. -/
theorem management : Obligations.Management := by
  unfold Obligations.Management
  intro s
  refine ⟨fun up => ⟨fun ifc => ?sensor, fun ifc w low high => ?cap, ?torus, ?update, fun keyed => ?attest, fun area idx => ?log⟩, ?record⟩
  case sensor => exact congrArg Host.Outcome.next (doReadSensors_of_up up ifc rfl)
  case cap =>
    obtain ⟨cap, mem⟩ := rd_setCap (s := s) low high
    exact ⟨_, congrArg Host.Outcome.next (if_pos (ctlUp_of_up up)), cap, mem⟩
  case torus =>
    intro x y z depth some_ small inside
    exact ⟨_, congrArg Host.Outcome.next (doTorus_of_valid up some_ small inside x.toNat y.toNat), rfl, rd_torusStored x y z depth⟩
  case update =>
    rintro ifc p service _ rfl
    have runs := doUpdate_of_service up service
    refine ⟨fun cut => congrArg Host.Outcome.next (runs.trans (if_pos cut)), ?_⟩
    rintro whole _ _ rfl rfl
    exact congrArg Host.Outcome.next (runs.trans (if_neg (by simp [whole])))
  case attest => exact ⟨_, rfl, attests_culture up keyed⟩
  case log => exact congrArg Host.Outcome.next (if_pos (overRedfish_of_up up))
  case record =>
    intro started enabled next
    obtain ⟨now, number, head⟩ := congRecorded_spec s
    obtain ⟨began, same, regs⟩ := congStart_spec s.congRecorded
    refine ⟨_, congrArg Host.Outcome.next (doCongestion_of_next started enabled next), ?_, same.trans number, (rd_of_regs regs _ _ _).trans head⟩
    rw [began, now, next]

end Sys2Proof.Machine
end

section
/-! PROOFS. Clocks and margins (13, R375 to R390): references, PLLs, margins, stretch, voltages and dividers of a tile. -/

namespace Sys2Proof.Machine

/-- Fields of one unit lie apart in every unit where they do in unit 0. -/
theorem rd_wr_of_key_ne (s : State) (f g : Fld) (i v k m : Nat) (ne : fkey f 0 k ≠ fkey g 0 m) : (s.wr f i v k).rd g i m = s.rd g i m := by
  have shift (h : Fld) (n : Nat) : fkey h i n = fkey h 0 n + i * 2 ^ 26 := by
    unfold fkey
    ring
  refine rd_wr_ne _ _ _ _ _ _ _ _ ?_
  rw [shift f k, shift g m]
  exact fun h => ne (Nat.add_right_cancel h)

section
variable {s : State} {t : Nat}

/-! ### PLLs (R378 to R380) -/

/-- The state in which a tile has noted that its PLL has lost lock. -/
def State.unlocked (s : State) (t : Nat) : State :=
  let c : State := { s with clk := { s.clk with unlocks := mset [] [] t [s.now] } }
  (c.wr Reg.CK_STATUS_PLL_LOCK t 0).bump Reg.CK_EVENTS_UNLOCKS t

/-- The first loss of lock of a tile that its own PLL drives. -/
theorem doUnlock_of_first (started : s.clk.started = true) (vlnk : s.vlnk t = true) (own : s.rd Reg.CK_STATUS_SOURCE t = 0)
    (locked : s.rd Reg.CK_STATUS_PLL_LOCK t = 1) (first : s.clk.unlocks = []) (noOut : s.clk.pllOut = []) (noBack : s.clk.pllBack = []) :
    s.doUnlock t = let v := s.unlocked t
      if (v.pickSource t).isSome then
        (State.askHold { v with clk := { v.clk with pllOut := [t] } } t).faultRec { type := evClockFallback, tile := t }
      else v := by
  unfold State.doUnlock State.unlocked
  simp [started, vlnk, own, locked, first, noOut, noBack, mget]

theorem doPllReturn_of_locked (started : s.clk.started = true) (vlnk : s.vlnk t = true) (other : s.rd Reg.CK_STATUS_SOURCE t ≠ 0)
    (used : s.rd Reg.CK_STATUS_PLL_RETIRED t = 0) (noBack : s.clk.pllBack = []) (first : s.clk.unlocks = []) (late : 90000 ≤ s.now) :
    s.doPllReturn t = State.askHold (State.wr { s with clk := { s.clk with pllBack := [t] } } Reg.CK_STATUS_PLL_LOCK t 1) t := by
  have held : us 100 ≤ s.now := late
  unfold State.doPllReturn
  dsimp only
  rw [if_neg (by simp [started, vlnk, other, used, noBack, first, mget, held]), noBack]
  rfl

/-! ### Margins and stretch (R383, R384) -/

/-- The report of a base-die path that is not broken. -/
def State.reported (s : State) (t : Nat) (r : PathReport) : State :=
  if s.rd Reg.CK_SITE_MIN_MARGIN t 7 ≤ r.slack.toNat then s
  else (s.wr Reg.CK_SITE_MIN_MARGIN t r.slack.toNat 7).wr Reg.CK_SITE_MIN_PATH t r.path.val 7

theorem pathReport_of_sound {r : PathReport} (base : r.site = 7) (whole : r.broken = false) (good : s.rd Reg.CK_SITE_REPLICA_BAD t 7 = 0)
    (l : List PathReport) : s.pathReport t l r = s.reported t r := by
  have site : r.site.val = 7 := by rw [base]; rfl
  have notBroken : PathReport.isBroken l r = false := by simp [PathReport.isBroken, whole]
  simp [State.pathReport, State.reported, notBroken, site, good, bitOf]

theorem reported_spec (r : PathReport) : (s.reported t r).mem = s.mem ∧ (s.reported t r).sch = s.sch ∧
    (s.reported t r).rd Reg.CK_SITE_MIN_MARGIN t 7 = min (s.rd Reg.CK_SITE_MIN_MARGIN t 7) r.slack.toNat ∧
    (s.reported t r).rd Reg.CK_SITE_REPLICA_BAD t 7 = s.rd Reg.CK_SITE_REPLICA_BAD t 7 ∧
    (s.reported t r).rd Reg.CK_CTL_STRETCH_TH t = s.rd Reg.CK_CTL_STRETCH_TH t ∧
    (s.reported t r).rd Reg.SCH_STRETCH_S_SLOT t = s.rd Reg.SCH_STRETCH_S_SLOT t := by
  unfold State.reported
  split
  case isTrue le => exact ⟨rfl, rfl, (Nat.min_eq_left le).symm, rfl, rfl, rfl⟩
  case isFalse gt =>
    simp (disch := decide) only [wr_mem, wr_sch, rd_wr_of_key_ne, rd_wr_self, true_and, and_true]
    rw [Nat.min_eq_right (Nat.le_of_not_le gt)]
    exact Nat.mod_eq_of_lt r.slack.isLt

/-- The state in which a tile's margin is shown. -/
def State.margined (s : State) (t m : Nat) : State :=
  let u := s.wr Reg.CK_STATUS_MARGIN t m
  let lo := mget 0 s.cong.margin t
  { u with cong := { u.cong with margin := mset 0 s.cong.margin t (if lo = 0 then m + 1 else min lo (m + 1)) } }

theorem rd_margined (s : State) (t m : Nat) : (s.margined t m).rd Reg.CK_STATUS_MARGIN t = m % 64 ∧
    (s.margined t m).rd Reg.CK_SITE_MIN_MARGIN t 7 = s.rd Reg.CK_SITE_MIN_MARGIN t 7 ∧
    (s.margined t m).rd Reg.CK_CTL_STRETCH_TH t = s.rd Reg.CK_CTL_STRETCH_TH t ∧
    (s.margined t m).rd Reg.SCH_STRETCH_S_SLOT t = s.rd Reg.SCH_STRETCH_S_SLOT t := by
  have shown (f : Fld) (k : Nat) : (s.margined t m).rd f t k = (s.wr Reg.CK_STATUS_MARGIN t m).rd f t k := rfl
  simp (disch := decide) only [shown, rd_wr_of_key_ne, rd_wr_self, and_true]
  rfl

/-- One base-die path's report is the tile's margin. -/
theorem doStretch_of_base {r : PathReport} (started : s.clk.started = true) (vlnk : s.vlnk t = true) (base : r.site = 7)
    (path : r.path.val < 8) (whole : r.broken = false) (good : s.rd Reg.CK_SITE_REPLICA_BAD t 7 = 0) :
    s.doStretch t [r] =
      let u := (s.reported t r).margined t r.slack.toNat
      let n := stretchSize (s.rd Reg.CK_CTL_STRETCH_TH t) r.slack.toNat
      if n = 0 then u else u.stretch t n := by
  obtain ⟨-, -, -, bad, threshold, -⟩ := reported_spec (s := s) (t := t) r
  obtain ⟨-, -, same, -⟩ := rd_margined (s.reported t r) t r.slack.toNat
  have site : r.site.val = 7 := by rw [base]; rfl
  have shown : [r].filter (fun r => decide (r.site.val < 7) || decide (r.path.val < 8)) = [r] := by simp [path]
  have counts : (s.reported t r).pathCounts t r = true := by simp [State.pathCounts, site, bad, good, path, bitOf]
  have counted : [r].filter ((s.reported t r).pathCounts t) = [r] := by simp [counts]
  have least : [r].foldl (fun a r => min a r.slack.toNat) 63 = r.slack.toNat := Nat.min_eq_right (Nat.le_of_lt_succ r.slack.isLt)
  have live : (s.reported t r).clk.started = true ∧ (s.reported t r).vlnk t = true := by
    unfold State.reported
    split
    · exact ⟨started, vlnk⟩
    · refine ⟨started, ?_⟩
      unfold State.vlnk at vlnk ⊢
      simp (disch := decide) only [rd_wr_of_key_ne, vlnk]
  have first : (if s.clk.started && s.vlnk t then
      s.each ([r].filter fun r => decide (r.site.val < 7) || decide (r.path.val < 8)) fun s r_1 => s.pathReport t [r] r_1 else s) =
      s.reported t r := by
    rw [if_pos (by simp [started, vlnk]), shown, each_singleton, pathReport_of_sound base whole good]
  have runs : s.doStretch t [r] = let n := stretchSize (((s.reported t r).margined t r.slack.toNat).rd Reg.CK_CTL_STRETCH_TH t) r.slack.toNat
      if n = 0 then (s.reported t r).margined t r.slack.toNat else ((s.reported t r).margined t r.slack.toNat).stretch t n := by
    unfold State.doStretch
    dsimp only
    rw [first, counted, least]
    exact if_neg (by simp [live])
  rw [runs, same, threshold]

theorem askHold_sch (s : State) (t : Nat) : (s.askHold t).mem = s.mem ∧ (s.askHold t).sch.events = s.sch.events := by
  unfold State.askHold
  dsimp only
  split
  · exact ⟨rfl, rfl⟩
  · exact ⟨rfl, rfl⟩

theorem rd_askHold (s : State) (t : Nat) (g : Fld) (m : Nat) (ne : fkey Reg.SCH_HOLDS_ASSERTED 0 0 ≠ fkey g 0 m) :
    (s.askHold t).rd g t m = s.rd g t m := by
  have counted : (s.bumpW Reg.SCH_HOLDS_ASSERTED t).rd g t m = s.rd g t m := rd_wr_of_key_ne _ _ _ _ _ _ _ ne
  unfold State.askHold
  dsimp only
  split
  · exact counted
  · exact counted

/-- The state in which a stretch event has lengthened the slot. -/
def State.stretched (s : State) (t n : Nat) : State :=
  (State.wr { s with sch := { s.sch with events := mset 0 s.sch.events t (mget 0 s.sch.events t + 1) } } Reg.SCH_STRETCH_S_SLOT t
    (s.rd Reg.SCH_STRETCH_S_SLOT t + n)).bumpW Reg.CK_EVENTS_STRETCHES t

theorem rd_stretched (s : State) (t n : Nat) : (s.stretched t n).rd Reg.SCH_STRETCH_S_SLOT t = (s.rd Reg.SCH_STRETCH_S_SLOT t + n) % 16 ∧
    (s.stretched t n).rd Reg.CK_STATUS_MARGIN t = s.rd Reg.CK_STATUS_MARGIN t ∧
    (s.stretched t n).rd Reg.CK_SITE_MIN_MARGIN t 7 = s.rd Reg.CK_SITE_MIN_MARGIN t 7 := by
  unfold State.stretched State.bumpW
  simp (disch := decide) only [rd_wr_of_key_ne, rd_wr_self]
  exact ⟨rfl, rfl, rfl⟩

/-- A stretch event that the slot still takes. -/
theorem stretch_spec {n : Nat} (few : mget 0 s.sch.events t < 3) : let u := s.stretch t n
    u.mem = s.mem ∧ u.rd Reg.SCH_STRETCH_S_SLOT t = (s.rd Reg.SCH_STRETCH_S_SLOT t + n) % 16 ∧
      mget 0 u.sch.events t = mget 0 s.sch.events t + 1 ∧ u.rd Reg.CK_STATUS_MARGIN t = s.rd Reg.CK_STATUS_MARGIN t ∧
      u.rd Reg.CK_SITE_MIN_MARGIN t 7 = s.rd Reg.CK_SITE_MIN_MARGIN t 7 := by
  have runs : s.stretch t n = if s.rd Reg.SCH_STRETCH_S_SLOT t ≤ 8 ∧ 8 < s.rd Reg.SCH_STRETCH_S_SLOT t + n then (s.stretched t n).askHold t
      else s.stretched t n := if_neg (by omega)
  have events : mget 0 (s.stretched t n).sch.events t = mget 0 s.sch.events t + 1 := mget_mset_self 0 s.sch.events t (mget 0 s.sch.events t + 1)
  obtain ⟨slot, margin, least⟩ := rd_stretched s t n
  rw [runs]
  split
  · obtain ⟨mem, same⟩ := askHold_sch (s.stretched t n) t
    dsimp only
    rw [mem, same, rd_askHold _ _ _ _ (by decide), rd_askHold _ _ _ _ (by decide), rd_askHold _ _ _ _ (by decide)]
    exact ⟨rfl, slot, events, margin, least⟩
  · exact ⟨rfl, slot, events, margin, least⟩

/-- A stretch event that waits for a later slot. -/
theorem stretch_of_full {n : Nat} (full : 3 ≤ mget 0 s.sch.events t) : (s.stretch t n).mem = s.mem ∧ (s.stretch t n).regs = s.regs := by
  have waits : s.stretch t n = { s with sch := { s.sch with evWait := mset [] s.sch.evWait t (mget [] s.sch.evWait t ++ [n]) } } := if_pos full
  rw [waits]
  exact ⟨rfl, rfl⟩

/-! ### Warnings, voltages and settings (R385, R386, R389, R390) -/

/-- The state in which a margin warning has started. -/
def State.warned (s : State) (t : Nat) : State :=
  (State.wr { s with clk := { s.clk with warnSince := mset 0 s.clk.warnSince t (s.now + 1), calmSince := mset 0 s.clk.calmSince t 0 } }
    Reg.CK_STATUS_MARGIN_WARN t 1).bump Reg.CK_EVENTS_WARNINGS t

theorem doMarginWarning_of_start (started : s.clk.started = true) (vlnk : s.vlnk t = true) (calm : s.rd Reg.CK_STATUS_MARGIN_WARN t = 0)
    {low stretches : Nat} (warns : 1800 < low ∨ 256 < stretches) : s.doMarginWarning t low stretches = s.warned t := by
  have starts : ((decide (1800 < low) || decide (256 < stretches)) && !(s.rd Reg.CK_STATUS_MARGIN_WARN t == 1)) = true := by
    simp [calm, warns]
  unfold State.doMarginWarning
  dsimp only
  rw [if_neg (by simp [started, vlnk]), starts]
  rfl

theorem warned_spec (s : State) (t : Nat) : (s.warned t).rd Reg.CK_STATUS_MARGIN_WARN t = 1 ∧
    (s.warned t).rd Reg.CK_EVENTS_WARNINGS t = min (s.rd Reg.CK_EVENTS_WARNINGS t + 1) 65535 ∧
    mget 0 (s.warned t).clk.warnSince t = s.now + 1 := by
  refine ⟨?_, (rd_bump_self ..).trans ?_, mget_mset_self 0 s.clk.warnSince t (s.now + 1)⟩
  · unfold State.warned State.bump
    simp (disch := decide) only [rd_wr_of_key_ne, rd_wr_self]
    decide
  · simp (disch := decide) only [rd_wr_of_key_ne]
    rfl

theorem vmemNominal_lt (setting : Nat) : vmemNominal setting < 4096 := by
  match setting with
  | 0 | 1 | 2 | 3 => decide
  | n + 4 => simp [vmemNominal]

/-- The setpoints that follow from the setting and the trim. -/
theorem rd_showVoltage (s : State) (t : Nat) :
    (s.showVoltage t).rd Reg.PW_DOM_SETPOINT t 0 = min 850 (vlogNominal (s.rd Reg.CK_STATUS_SETTING t) + s.rd Reg.CK_STATUS_VTRIM t) ∧
      (s.showVoltage t).rd Reg.PW_DOM_SETPOINT t 1 = vmemNominal (s.rd Reg.CK_STATUS_SETTING t) := by
  have nominal := vmemNominal_lt (s.rd Reg.CK_STATUS_SETTING t)
  unfold State.showVoltage
  simp (disch := decide) only [rd_wr_of_key_ne, rd_wr_self]
  exact ⟨Nat.mod_eq_of_lt (Nat.lt_of_le_of_lt (Nat.min_le_left ..) (by decide)), Nat.mod_eq_of_lt nominal⟩

/-- The state in which a setting is in force, before its voltages are. -/
def State.dividerSet (s : State) (t setting : Nat) : State :=
  (State.wr { s with clk := { s.clk with divWait := mset 0 s.clk.divWait t 0 } } Reg.CK_STATUS_SETTING t setting).wr Reg.CK_STATUS_CHANGING t 0

theorem rd_dividerSet (s : State) (t setting : Nat) : (s.dividerSet t setting).rd Reg.CK_CTL_DIV_REQ t = s.rd Reg.CK_CTL_DIV_REQ t ∧
    (s.dividerSet t setting).rd Reg.CK_STATUS_CHANGING t = 0 ∧ (s.dividerSet t setting).rd Reg.CK_STATUS_SETTING t = setting % 4 ∧
    (s.dividerSet t setting).rd Reg.CK_STATUS_VTRIM t = s.rd Reg.CK_STATUS_VTRIM t := by
  unfold State.dividerSet
  simp (disch := decide) only [rd_wr_of_key_ne, rd_wr_self]
  exact ⟨rfl, rfl, rfl, rfl⟩

theorem applyDiv_eq (s : State) (t setting : Nat) : s.applyDiv t setting = (s.dividerSet t setting).showVoltage t := rfl

/-- A setting that nothing blocks is in force at once, with its nominal voltages. -/
theorem applyDiv_spec (s : State) (t setting : Nat) : let u := s.applyDiv t setting
    u.rd Reg.CK_CTL_DIV_REQ t = s.rd Reg.CK_CTL_DIV_REQ t ∧ u.rd Reg.CK_STATUS_CHANGING t = 0 ∧
      u.rd Reg.CK_STATUS_SETTING t = setting % 4 ∧
      u.rd Reg.PW_DOM_SETPOINT t 0 = min 850 (vlogNominal (setting % 4) + s.rd Reg.CK_STATUS_VTRIM t) ∧
      u.rd Reg.PW_DOM_SETPOINT t 1 = vmemNominal (setting % 4) := by
  have kept (w : State) (g : Fld) (low : fkey Reg.PW_DOM_SETPOINT 0 0 ≠ fkey g 0 0) (high : fkey Reg.PW_DOM_SETPOINT 0 1 ≠ fkey g 0 0) :
      (w.showVoltage t).rd g t = w.rd g t := (rd_wr_of_key_ne _ _ _ _ _ _ _ high).trans (rd_wr_of_key_ne _ _ _ _ _ _ _ low)
  obtain ⟨request, still, set, trim⟩ := rd_dividerSet s t setting
  obtain ⟨vlog, vmem⟩ := rd_showVoltage (s.dividerSet t setting) t
  rw [set, trim] at vlog
  rw [set] at vmem
  rw [applyDiv_eq]
  exact ⟨(kept _ _ (by decide) (by decide)).trans request, (kept _ _ (by decide) (by decide)).trans still,
    (kept _ _ (by decide) (by decide)).trans set, vlog, vmem⟩

/-- The state in which a setting is asked for. -/
def State.asked (s : State) (t setting : Nat) : State := s.wr Reg.CK_CTL_DIV_REQ t setting

/-- The state in which the request waits. -/
def State.askedBlocked (s : State) (t setting : Nat) : State :=
  State.wr { s.asked t setting with clk := { s.clk with divWait := mset 0 s.clk.divWait t (setting + 1) } } Reg.CK_STATUS_CHANGING t 1

theorem askedBlocked_spec (s : State) (t setting : Nat) : (s.askedBlocked t setting).rd Reg.CK_CTL_DIV_REQ t = setting % 4 ∧
    (s.askedBlocked t setting).rd Reg.CK_STATUS_CHANGING t = 1 ∧ mget 0 (s.askedBlocked t setting).clk.divWait t = setting + 1 :=
  ⟨(rd_wr_of_key_ne _ _ _ _ _ _ _ (by decide)).trans ((rd_with_clk ..).trans (rd_wr_self ..)), rd_wr_self ..,
    mget_mset_self 0 s.clk.divWait t (setting + 1)⟩

theorem requestDiv_eq (s : State) (t setting : Nat) : s.requestDiv t setting =
    if s.divBlocked t then s.askedBlocked t setting else (s.asked t setting).applyDiv t setting := rfl

/-- The state in which VTRIM has risen. -/
def State.trimmed (s : State) (t : Nat) : State :=
  State.showVoltage (State.wr { s with clk := { s.clk with warnSince := mset 0 s.clk.warnSince t (mget 0 s.clk.warnSince t + us 1000) } }
    Reg.CK_STATUS_VTRIM t (s.rd Reg.CK_STATUS_VTRIM t + 5)) t

theorem doVlogTrim_of_warned {w : Nat} (whey : isWhey s.slotIx = true) (since : mget 0 s.clk.warnSince t = w + 1) (late : w + 900000 ≤ s.now)
    (low : s.rd Reg.CK_STATUS_VTRIM t < 30) : s.doVlogTrim t = s.trimmed t := by
  unfold State.doVlogTrim
  dsimp only
  rw [if_neg (by simp [whey]), if_pos (by simp only [since, us]; omega)]
  rfl

theorem rd_trimmed (low : s.rd Reg.CK_STATUS_VTRIM t < 30) : (s.trimmed t).rd Reg.CK_STATUS_VTRIM t = s.rd Reg.CK_STATUS_VTRIM t + 5 := by
  unfold State.trimmed State.showVoltage
  simp (disch := decide) only [rd_wr_of_key_ne, rd_wr_self]
  exact Nat.mod_eq_of_lt (by simp only [Reg.CK_STATUS_VTRIM] at low ⊢; omega)

end

/-! ### The statement -/

/-- Settles O39: a case for each command. -/
theorem clocksAndMargins : Obligations.ClocksAndMargins := by
  unfold Obligations.ClocksAndMargins
  intro s
  refine ⟨fun up => ⟨?switch, fun sound => ⟨?fail, ?dirty⟩⟩, fun t started vlnk => ⟨?unlock, ?back, ?none, ?stretch, ?warning, ?divider⟩, ?trim⟩
  case switch => exact congrArg Host.Outcome.next (if_neg (by omega))
  case fail => exact congrArg Host.Outcome.next (if_neg (by simp [sound]; omega))
  case dirty => rfl
  case unlock =>
    intro own locked first noOut noBack
    have runs := doUnlock_of_first started vlnk own locked first noOut noBack
    have none_ {c : Option Nat} (h : c = none) : ¬c.isSome = true := by rw [h]; decide
    exact ⟨fun gone => congrArg Host.Outcome.next (runs.trans (if_neg (none_ gone))),
      fun some_ => congrArg Host.Outcome.next (runs.trans (if_pos some_))⟩
  case back =>
    exact fun other used noBack first late =>
      congrArg Host.Outcome.next (doPllReturn_of_locked started vlnk other used noBack first late)
  case none => exact fun out none_ => congrArg Host.Outcome.next (if_pos (by simp [started, vlnk, out, none_]))
  case stretch =>
    intro r base path whole good
    have runs := doStretch_of_base started vlnk base path whole good
    obtain ⟨mem, sch, least, -, -, slot⟩ := reported_spec (s := s) (t := t.val) r
    obtain ⟨shown, same, -, slot'⟩ := rd_margined (s.reported t.val r) t.val r.slack.toNat
    have small : r.slack.toNat % 64 = r.slack.toNat := Nat.mod_eq_of_lt r.slack.isLt
    have events : ((s.reported t.val r).margined t.val r.slack.toNat).sch = s.sch := sch
    by_cases none_ : stretchSize (s.rd Reg.CK_CTL_STRETCH_TH t.val) r.slack.toNat = 0
    · exact ⟨_, congrArg Host.Outcome.next (runs.trans (if_pos none_)), mem, shown.trans small, same.trans least, fun _ => slot'.trans slot,
        fun some_ => absurd none_ some_⟩
    · refine ⟨_, congrArg Host.Outcome.next (runs.trans (if_neg none_)), ?_⟩
      rcases Nat.lt_or_ge (mget 0 s.sch.events t.val) 3 with few | many
      · have taken := stretch_spec (s := (s.reported t.val r).margined t.val r.slack.toNat) (t := t.val)
          (n := stretchSize (s.rd Reg.CK_CTL_STRETCH_TH t.val) r.slack.toNat) (by rw [events]; exact few)
        obtain ⟨mem', longer, counted, shown', least'⟩ := taken
        rw [slot', slot] at longer
        rw [events] at counted
        exact ⟨mem'.trans mem, shown'.trans (shown.trans small), least'.trans (same.trans least), fun h => absurd h none_,
          fun _ _ => ⟨longer, counted⟩⟩
      · have waits := stretch_of_full (s := (s.reported t.val r).margined t.val r.slack.toNat) (t := t.val)
          (n := stretchSize (s.rd Reg.CK_CTL_STRETCH_TH t.val) r.slack.toNat) (by rw [events]; exact many)
        obtain ⟨mem', regs⟩ := waits
        exact ⟨mem'.trans mem, (rd_of_regs regs _ _ _).trans (shown.trans small), (rd_of_regs regs _ _ _).trans (same.trans least),
          fun h => absurd h none_, fun _ few => absurd few (by omega)⟩
  case warning =>
    exact fun low stretches calm warns =>
      ⟨_, congrArg Host.Outcome.next (doMarginWarning_of_start started vlnk calm warns), warned_spec s t.val⟩
  case divider =>
    intro set
    have runs : exec (.divReq t set) s = .next (s.requestDiv t.val set.toNat) := congrArg Host.Outcome.next (if_pos (by simp [started, vlnk]))
    rw [requestDiv_eq] at runs
    have small : set.toNat % 4 = set.toNat := Nat.mod_eq_of_lt set.isLt
    cases blocked : s.divBlocked t.val with
    | true =>
      obtain ⟨request, changing, waits⟩ := askedBlocked_spec s t.val set.toNat
      exact ⟨_, runs.trans (congrArg Host.Outcome.next (if_pos blocked)), request.trans small, fun _ => ⟨changing, waits⟩, nofun⟩
    | false =>
      obtain ⟨request, still, shown, vlog, vmem⟩ := applyDiv_spec (s.asked t.val set.toNat) t.val set.toNat
      have asked : (s.asked t.val set.toNat).rd Reg.CK_CTL_DIV_REQ t.val = set.toNat := (rd_wr_self ..).trans small
      have trim : (s.asked t.val set.toNat).rd Reg.CK_STATUS_VTRIM t.val = s.rd Reg.CK_STATUS_VTRIM t.val :=
        rd_wr_of_key_ne _ _ _ _ _ _ _ (by decide)
      rw [small] at shown vlog vmem
      rw [trim] at vlog
      exact ⟨_, runs.trans (congrArg Host.Outcome.next (if_neg (by simp [blocked]))), request.trans asked, nofun,
        fun _ => ⟨still, shown, vlog, vmem⟩⟩
  case trim =>
    exact fun t w whey since late low =>
      ⟨_, congrArg Host.Outcome.next (doVlogTrim_of_warned whey since late low), rd_trimmed low, rfl⟩

end Sys2Proof.Machine
end

section
/-! PROOFS. Thermal life and the tray (17.5, 18.4 to 18.6, R493, R494, R507 to R513). -/

namespace Sys2Proof.Machine

/-! ### Temperatures and the life counters (R493, R494) -/

/-- `u` has the memory and the shown temperatures of a tile as `s` has them: only the tile's life counters may have moved on. -/
structure State.SameTemps (t : Nat) (s u : State) : Prop where
  mem : u.mem = s.mem
  temp : u.rd Reg.TL_TEMP_TEMP t = s.rd Reg.TL_TEMP_TEMP t
  peak : u.rd Reg.TL_TEMP_PEAK t = s.rd Reg.TL_TEMP_PEAK t

namespace State.SameTemps

variable {t : Nat} {s u v : State}

theorem refl (t : Nat) (s : State) : s.SameTemps t s := ⟨rfl, rfl, rfl⟩

theorem trans (h : State.SameTemps t s u) (g : State.SameTemps t u v) : State.SameTemps t s v :=
  ⟨g.mem.trans h.mem, g.temp.trans h.temp, g.peak.trans h.peak⟩

theorem wr (s : State) (f : Fld) (v : Nat) (temp : fkey f 0 0 ≠ fkey Reg.TL_TEMP_TEMP 0 0) (peak : fkey f 0 0 ≠ fkey Reg.TL_TEMP_PEAK 0 0) :
    State.SameTemps t s (s.wr f t v) :=
  ⟨rfl, rd_wr_of_key_ne _ _ _ _ _ _ _ temp, rd_wr_of_key_ne _ _ _ _ _ _ _ peak⟩

theorem of_ite {p : Prop} [Decidable p] (h : State.SameTemps t s u) (g : State.SameTemps t s v) : State.SameTemps t s (if p then u else v) := by
  split
  · exact h
  · exact g

end State.SameTemps

theorem countCycle_sameTemps (s : State) (t d : Nat) (half : Bool) : s.SameTemps t (s.countCycle t d half) := by
  have bins : ∀ f ∈ [Reg.TL_BIN01_BIN_20_30, Reg.TL_BIN01_BIN_30_40, Reg.TL_BIN23_BIN_40_60, Reg.TL_BIN23_BIN_60],
      fkey f 0 0 ≠ fkey Reg.TL_TEMP_TEMP 0 0 ∧ fkey f 0 0 ≠ fkey Reg.TL_TEMP_PEAK 0 0 := by decide
  have bin : (if d < 30 then Reg.TL_BIN01_BIN_20_30 else if d < 40 then Reg.TL_BIN01_BIN_30_40
      else if d < 60 then Reg.TL_BIN23_BIN_40_60 else Reg.TL_BIN23_BIN_60) ∈
      [Reg.TL_BIN01_BIN_20_30, Reg.TL_BIN01_BIN_30_40, Reg.TL_BIN23_BIN_40_60, Reg.TL_BIN23_BIN_60] := by
    split_ifs
    all_goals decide
  unfold State.countCycle
  dsimp only
  generalize (if d < 30 then Reg.TL_BIN01_BIN_20_30 else if d < 40 then Reg.TL_BIN01_BIN_30_40
      else if d < 60 then Reg.TL_BIN23_BIN_40_60 else Reg.TL_BIN23_BIN_60) = f at bin
  obtain ⟨temp, peak⟩ := bins f bin
  have counted := (State.SameTemps.wr (t := t) s f (min (s.rd f t + if half then 1 else 2) (2 ^ f.w - 1)) temp peak).trans
    (State.SameTemps.wr _ Reg.TL_LIFE_LIFE_USED (min ((s.bump f t (if half then 1 else 2)).rd Reg.TL_LIFE_LIFE_USED t +
      roundEven (5 * d * d) (if half then 16 else 8)) (2 ^ 40 - 1)) (by decide) (by decide))
  exact .of_ite (.refl t s) (.of_ite (counted.trans (.wr _ _ _ (by decide) (by decide))) counted)

theorem turningPoint_sameTemps (s : State) (t x : Nat) (stack : List Nat) : s.SameTemps t (s.turningPoint t x stack).1 := by
  have closed (l : List Nat) : s.SameTemps t (s.each l fun s d => s.countCycle t d false) :=
    each_keeps (s.SameTemps t) _ (fun u d h => h.trans (countCycle_sameTemps u t d false)) l s (.refl t s)
  unfold State.turningPoint
  dsimp only
  split
  · exact (closed _).trans (countCycle_sameTemps _ t _ true)
  · exact closed _

/-- A point of a tile's series moves its residue and its counters only. -/
theorem lifePoint_sameTemps (s : State) (t x : Nat) : s.SameTemps t (s.lifePoint t x) := by
  have put {u : State} (h : s.SameTemps t u) (l : List Nat) : s.SameTemps t
      (State.wr { u with tray := { u.tray with residue := mset [] u.tray.residue t l } } Reg.TL_TEMP_RESIDUE t (l.length - 1)) :=
    ⟨h.mem, (rd_wr_of_key_ne _ _ _ _ _ _ _ (by decide)).trans h.temp, (rd_wr_of_key_ne _ _ _ _ _ _ _ (by decide)).trans h.peak⟩
  unfold State.lifePoint
  split
  · exact put (.refl t s) _
  · exact .of_ite (put (.refl t s) _) (.refl t s)
  · exact .of_ite (put (.refl t s) _) (.of_ite (.refl t s) (put (turningPoint_sameTemps ..) _))

/-- The state in which a sample's highest live reading is shown. -/
def State.sampled (s : State) (t top : Nat) (temps : FMap Nat) : State :=
  let u : State := { s with tray := { s.tray with dieTemp := temps } }
  (u.wr Reg.TL_TEMP_TEMP t (min top 255)).wr Reg.TL_TEMP_PEAK t (max (min top 255) (s.rd Reg.TL_TEMP_PEAK t))

theorem rd_sampled (s : State) (t top : Nat) (temps : FMap Nat) : (s.sampled t top temps).rd Reg.TL_TEMP_TEMP t = min top 255 ∧
    (s.sampled t top temps).rd Reg.TL_TEMP_PEAK t = max (min top 255) (s.rd Reg.TL_TEMP_PEAK t) % 256 := by
  unfold State.sampled
  simp (disch := decide) only [rd_wr_of_key_ne, rd_wr_self]
  exact ⟨Nat.mod_eq_of_lt (Nat.lt_of_le_of_lt (Nat.min_le_right ..) (by decide)), rfl⟩

theorem doThermalSample_of_live {s : State} {x : TempSample} {live : List Nat} (vlnk : s.vlnk x.tile.val = true)
    (alive : live = (List.range x.readings.length).filter fun i => decide (28 ≤ i) || s.dieOn x.tile.val (i / 4)) (some_ : live ≠ []) :
    ∃ temps, s.doThermalSample [x] =
      (s.sampled x.tile.val (live.foldl (fun m i => max m (x.readings.getD i 0)) 0) temps).lifePoint x.tile.val
        (live.foldl (fun m i => max m (x.readings.getD i 0)) 0) := by
  refine ⟨(live.filter fun i => decide (i < 28)).foldl (fun m i => mset 0 m (x.tile.val * 32 + i) (x.readings.getD i 0)) s.tray.dieTemp, ?_⟩
  have one : s.doThermalSample [x] = s.sampleTile x.tile.val x.readings := rfl
  rw [one]
  unfold State.sampleTile
  rw [if_neg (by simp [vlnk]), ← alive]
  exact if_neg some_

theorem doLifeSave_of_due {s : State} (up : 2 ≤ s.buSt) (due : s.tray.savedAt + 540000000000 ≤ s.age) : (s.doLifeSave).tray.savedAt = s.age ∧
    s.doLifeSave.tray.savedResidue = s.tray.residue ∧ s.doLifeSave.mem = s.mem := by
  have late : ¬(s.buSt < 2 ∨ s.age < s.tray.savedAt + secs 600) := by simp only [secs, us]; omega
  have saved {v : State} (frame : v.age = s.age ∧ v.tray.residue = s.tray.residue ∧ v.mem = s.mem) (f : State → Nat → State)
      (shows : ∀ (u : State) t, u.OnlyRegs (f u t)) : let u := (v.each (List.range 36) f).saveLife
      u.tray.savedAt = s.age ∧ u.tray.savedResidue = s.tray.residue ∧ u.mem = s.mem := by
    obtain ⟨r, only⟩ := State.OnlyRegs.each shows (List.range 36) v
    rw [only]
    exact frame
  unfold State.doLifeSave
  rw [if_neg late]
  refine saved ?_ _ fun u t => .wr ..
  split
  · exact ⟨rfl, rfl, rfl⟩
  · exact ⟨rfl, rfl, rfl⟩

/-! ### Coolant, temperatures, comparators (R507 to R512) -/

/-- The state in which a forecast's coolant readings are shown. -/
def State.cooled (s : State) (inlet outlet flow : Nat) : State :=
  ((s.wr Reg.TR_COOL_INLET 0 (min inlet 0xFFF)).wr Reg.TR_COOL_OUTLET 0 (min outlet 0xFFF)).wr Reg.TR_COOL_FLOW 0 (min flow 0x3FF)

theorem doThermalForecast_eq {s : State} (up : 2 ≤ s.buSt) (inlet outlet flow : Nat) : s.doThermalForecast inlet outlet flow =
    let u := s.cooled inlet outlet flow
    let out := if flow = 0 then 0xFFF else min 0xFFF (inlet + 1000 * u.rd Reg.TR_FCST_P_FCST 0 / (593 * flow))
    let lim := min 0xFFFF (593 * flow * (10 * u.rd Reg.TR_CTL_OUT_LIMIT 0 - inlet) / 1000)
    ((u.wr Reg.TR_FCST_OUT_FCST 0 out).wr Reg.TR_FCST_THERM_LIMIT_W 0 lim).wr Reg.TR_FCST_LIMITING 0
      (b2n (decide (lim < u.rd Reg.LG_CAP_CAP_W 0))) := if_neg (by omega)

theorem rd_cooled (s : State) {inlet outlet flow : Nat} (inletSmall : inlet < 2 ^ 12) (outletSmall : outlet < 2 ^ 12)
    (flowSmall : flow < 2 ^ 10) : let u := s.cooled inlet outlet flow
    u.rd Reg.TR_COOL_INLET 0 = inlet ∧ u.rd Reg.TR_COOL_OUTLET 0 = outlet ∧ u.rd Reg.TR_COOL_FLOW 0 = flow ∧
      u.rd Reg.TR_FCST_P_FCST 0 = s.rd Reg.TR_FCST_P_FCST 0 ∧ u.rd Reg.TR_CTL_OUT_LIMIT 0 = s.rd Reg.TR_CTL_OUT_LIMIT 0 := by
  have stored {x n : Nat} (small : x < 2 ^ n) : min x (2 ^ n - 1) % 2 ^ n = x := by
    rw [Nat.min_eq_left (by omega)]
    exact Nat.mod_eq_of_lt small
  unfold State.cooled
  simp (disch := decide) only [rd_wr_of_key_ne, rd_wr_self]
  exact ⟨stored inletSmall, stored outletSmall, stored flowSmall, trivial, trivial⟩

theorem doThermalForecast_spec {s : State} (up : 2 ≤ s.buSt) {inlet outlet flow : Nat} (flows : 0 < flow) (flowSmall : flow < 2 ^ 10)
    (inletSmall : inlet < 2 ^ 12) (outletSmall : outlet < 2 ^ 12) : let u := s.doThermalForecast inlet outlet flow
    u.rd Reg.TR_COOL_INLET 0 = inlet ∧ u.rd Reg.TR_COOL_OUTLET 0 = outlet ∧ u.rd Reg.TR_COOL_FLOW 0 = flow ∧
      u.rd Reg.TR_FCST_OUT_FCST 0 = min 4095 (inlet + 1000 * s.rd Reg.TR_FCST_P_FCST 0 / (593 * flow)) ∧
      u.rd Reg.TR_FCST_THERM_LIMIT_W 0 = min 65535 (593 * flow * (10 * s.rd Reg.TR_CTL_OUT_LIMIT 0 - inlet) / 1000) := by
  obtain ⟨shownIn, shownOut, shownFlow, power, limit⟩ := rd_cooled s inletSmall outletSmall flowSmall
  have bounded (b x : Nat) : min b x % (b + 1) = min b x := Nat.mod_eq_of_lt (Nat.lt_succ_of_le (Nat.min_le_left ..))
  rw [doThermalForecast_eq up]
  generalize s.cooled inlet outlet flow = u at *
  dsimp only
  rw [if_neg (by omega), power, limit]
  simp (disch := decide) only [rd_wr_of_key_ne, rd_wr_self, shownIn, shownOut, shownFlow]
  exact ⟨trivial, trivial, trivial, bounded 4095 _, bounded 65535 _⟩

/-- The levels' display changes neither a tile's limiter nor its events. -/
theorem showLevels_spec (s : State) (t : Nat) : s.OnlyRegs s.showLevels ∧
    s.showLevels.rd Reg.PW_STATUS_LIMITING t = s.rd Reg.PW_STATUS_LIMITING t ∧
    s.showLevels.rd Reg.PW_POWER_LIMIT_EVENTS t = s.rd Reg.PW_POWER_LIMIT_EVENTS t := by
  refine ⟨State.OnlyRegs.each (fun u v => .wr ..) _ s, ?_, ?_⟩
  · exact each_keeps (fun u : State => u.rd Reg.PW_STATUS_LIMITING t = s.rd Reg.PW_STATUS_LIMITING t) _ (fun u v h =>
      (rd_wr_of_bit_ne u Reg.LG_VAT_LEVEL Reg.PW_STATUS_LIMITING _ _ _ _ _ (by decide) (by decide) (by decide)).trans h) _ s rfl
  · exact each_keeps (fun u : State => u.rd Reg.PW_POWER_LIMIT_EVENTS t = s.rd Reg.PW_POWER_LIMIT_EVENTS t) _ (fun u v h =>
      (rd_wr_of_bit_ne u Reg.LG_VAT_LEVEL Reg.PW_POWER_LIMIT_EVENTS _ _ _ _ _ (by decide) (by decide) (by decide)).trans h) _ s rfl

theorem showLimiting_spec (s : State) (t : Nat) : (s.showLimiting t).pwr = s.pwr ∧
    (s.showLimiting t).rd Reg.PW_STATUS_LIMITING t = b2n (s.pwr.limiting.contains t || s.pwr.hot.contains t) ∧
    (s.showLimiting t).rd Reg.PW_POWER_LIMIT_EVENTS t = s.rd Reg.PW_POWER_LIMIT_EVENTS t := by
  obtain ⟨⟨r, only⟩, limiting, events⟩ :=
    showLevels_spec (s.wr Reg.PW_STATUS_LIMITING t (b2n (s.pwr.limiting.contains t || s.pwr.hot.contains t))) t
  refine ⟨?_, limiting.trans ((rd_wr_self ..).trans ?_), events.trans (rd_wr_of_key_ne _ _ _ _ _ _ _ (by decide))⟩
  · rw [State.showLimiting, only]
    rfl
  · cases s.pwr.limiting.contains t || s.pwr.hot.contains t <;> decide

/-- A tile of which a die reaches 100 degrees is limited (R510). -/
theorem doDieTemp_of_hot {s : State} {t temp : Nat} (cell : s.cellOn t = true) (hot : 100 ≤ temp) (cool : s.pwr.hot = []) :
    s.doDieTemp t temp = (State.bump { s with pwr := { s.pwr with hot := [t] } } Reg.PW_POWER_LIMIT_EVENTS t).showLimiting t := by
  simp [State.doDieTemp, cell, hot, cool]

/-- A limited tile whose dies are all below 95 degrees is limited no more. -/
theorem doDieTemp_of_cool {s : State} {t temp : Nat} (cell : s.cellOn t = true) (below : temp < 95) (hot : s.pwr.hot = [t]) :
    s.doDieTemp t temp = State.showLimiting { s with pwr := { s.pwr with hot := [] } } t := by
  simp [State.doDieTemp, cell, below, hot]

/-- The state that a comparator leaves once the e-fuse is open. -/
def State.comparatorCut (u : State) (cause : Nat) : State :=
  let v := (u.wr Reg.TR_CMP_LAST_CUT 0 cause).bump Reg.TR_CMP_CUTS 0
  { v with tray := { v.tray with cutAt := some v.age, cutDue := true } }

theorem comparatorCut_spec {s u : State} {efuse : Nat} (opened : s.FuseOpened efuse u) (cause : Nat) : let v := u.comparatorCut cause
    v.rd Reg.IN_STATUS_EFUSE 0 = efuse % 4 ∧ v.rd Reg.TR_CMP_LAST_CUT 0 = cause % 4 ∧ v.tray.cutAt = some s.age ∧ v.vats = [] := by
  refine ⟨(rd_with_tray ..).trans ?_, (rd_with_tray ..).trans ?_, congrArg some opened.age, opened.vats⟩
  · exact (rd_wr_ne _ _ _ _ _ _ _ _ (by decide)).trans ((rd_wr_ne _ _ _ _ _ _ _ _ (by decide)).trans opened.efuse)
  · exact (rd_wr_ne _ _ _ _ _ _ _ _ (by decide)).trans (rd_wr_self ..)

theorem doComparator_of_outlet {s : State} (live : s.fuseLive = true) :
    s.doComparator false true true = ((s.openFuse 0 5).powerDirty).comparatorCut 2 := if_neg (by simp [live])

/-- The state in which a restart is counted. -/
def State.restartCounted (s : State) : State :=
  { s with tray := { s.tray with cutAt := none, restartAt := s.age :: s.tray.restartAt } }

/-- The state in which the count of restarts is shown. -/
def State.restarting (s : State) : State := s.restartCounted.wr Reg.TR_CMP_RESTARTS_1H 0 s.restartCounted.restarts

theorem restartCounted_age (s : State) : s.restartCounted.age = s.age := rfl

theorem beginPrecharge_tray (s : State) : s.beginPrecharge.tray = s.tray := rfl

theorem restarting_spec (s : State) : let u := s.restarting.beginPrecharge
    u.rd Reg.IN_STATUS_EFUSE 0 = 1 ∧ u.tray.cutAt = none ∧ u.pwr.precharge = some s.age := by
  obtain ⟨efuse, -, began, -⟩ := beginPrecharge_spec s.restarting
  refine ⟨efuse, ?_, ?_⟩
  · rw [beginPrecharge_tray, State.restarting, wr_tray]
    rfl
  · rw [began, State.restarting, wr_age, restartCounted_age]

/-- What a comparator's restart depends on, 60 s after the cut with cool and flowing coolant (R512). -/
theorem doComparatorRestart_of_cool {s : State} {t outlet : Nat} (cut : s.tray.cutAt = some t) (late : t + 54000000000 ≤ s.age)
    (cool : outlet < 550) : s.doComparatorRestart outlet true =
      let u : State := { s with tray := { s.tray with cutAt := none } }
      if 3 ≤ s.restarts then u.wr Reg.TR_CMP_LOCKOUT 0 1
      else if !u.mayPrecharge then s
      else s.restarting.beginPrecharge := by
  have due : ¬(s.age < t + secs 60 ∨ 550 ≤ outlet ∨ (!true) = true) := by simp only [secs, us]; simp; omega
  unfold State.doComparatorRestart
  rw [cut]
  exact if_neg due

/-! ### The statement -/

/-- Settles O55: a case for each command. -/
theorem thermalAndTray : Obligations.ThermalAndTray := by
  unfold Obligations.ThermalAndTray
  intro s
  refine ⟨?sample, fun up due => ⟨_, rfl, doLifeSave_of_due up due⟩, ?forecast, fun t temp cell => ⟨?hot, ?cool⟩,
    fun up => ⟨congrArg Host.Outcome.next (if_neg (by omega)), congrArg Host.Outcome.next (if_neg (by omega))⟩, ?trip, ?restart, ?button,
    fun opened late => congrArg Host.Outcome.next (if_pos ⟨opened, late⟩)⟩
  case sample =>
    rintro x live _ vlnk alive some_ rfl
    obtain ⟨temps, runs⟩ := doThermalSample_of_live vlnk alive some_
    obtain ⟨temp, peak⟩ := rd_sampled s x.tile.val (live.foldl (fun m i => max m (x.readings.getD i 0)) 0) temps
    obtain ⟨mem, sameTemp, samePeak⟩ := lifePoint_sameTemps (s.sampled x.tile.val (live.foldl (fun m i => max m (x.readings.getD i 0)) 0) temps)
      x.tile.val (live.foldl (fun m i => max m (x.readings.getD i 0)) 0)
    exact ⟨_, congrArg Host.Outcome.next runs, mem, sameTemp.trans temp, samePeak.trans peak⟩
  case forecast =>
    exact fun up inlet outlet flow flows flowSmall inletSmall outletSmall =>
      ⟨_, rfl, doThermalForecast_spec up flows flowSmall inletSmall outletSmall⟩
  case hot =>
    intro hot cool
    obtain ⟨pwr, limiting, events⟩ := showLimiting_spec (State.bump { s with pwr := { s.pwr with hot := [t.val] } } Reg.PW_POWER_LIMIT_EVENTS t.val) t.val
    refine ⟨_, congrArg Host.Outcome.next (doDieTemp_of_hot cell hot cool), congrArg Power.hot pwr, limiting.trans ?_, events.trans (rd_bump_self ..)⟩
    simp [b2n]
  case cool =>
    intro below hot free
    obtain ⟨pwr, limiting, -⟩ := showLimiting_spec { s with pwr := { s.pwr with hot := [] } } t.val
    refine ⟨_, congrArg Host.Outcome.next (doDieTemp_of_cool cell below hot), congrArg Power.hot pwr, limiting.trans ?_⟩
    simp [b2n, free]
  case trip =>
    intro live
    obtain ⟨efuse, cause, cut, vats⟩ := comparatorCut_spec (openFuse_opened s 0 5).powerDirty 2
    exact ⟨_, congrArg Host.Outcome.next (doComparator_of_outlet live), efuse, cause, cut, vats⟩
  case restart =>
    intro t outlet cut late cool
    have runs := doComparatorRestart_of_cool cut late cool
    constructor
    · rintro _ rfl many
      exact congrArg Host.Outcome.next (runs.trans (if_pos many))
    · intro few pin input ov sound efuse lockout phase
      have may : State.mayPrecharge { s with tray := { s.tray with cutAt := none } } = true := by
        simp [State.mayPrecharge, rd_with_tray, pin, input, ov, sound, efuse, lockout, phase]
      have begins := runs.trans ((if_neg (by omega)).trans (if_neg (by simp [may])))
      exact ⟨_, congrArg Host.Outcome.next begins, restarting_spec s⟩
  case button =>
    intro mated ms
    have held (short : 50 ≤ ms) : s.doButton ms = if ms < 5000 then s.removeRequest else
        let u := (s.bump Reg.TR_FP_GESTURES 0).wr Reg.TR_FP_PRESENCE_OPEN 0 1
        { u with mgmt := { u.mgmt with presenceEnd := u.age + secs 60 } } := if_neg (by simp [mated, short])
    refine ⟨fun long short => congrArg Host.Outcome.next ((held long).trans (if_pos short)), fun long => ?_⟩
    refine ⟨_, congrArg Host.Outcome.next ((held (by omega)).trans (if_neg (by omega))), rfl, ?_, rfl⟩
    exact rd_wr_self (s.bump Reg.TR_FP_GESTURES 0) Reg.TR_FP_PRESENCE_OPEN 0 1 0

end Sys2Proof.Machine
end

section
/-! PROOFS. The energy ledger (12.6, 12.7, R366): a state in which vat 0's entry of the ledger names another vat. -/

namespace Sys2Proof.Machine

/-- Vat 0's entry of the ledger carries the number 5, a step of it has been over its claim since time 0, and 10 ms have passed. -/
def strayLedger : State :=
  { State.reset with
    now := 9000000
    pwr := { State.reset.pwr with vat0 := { State.reset.pwr.vat0 with id := 5, overSince := some 0 } } }

/-- The throttle of the entry that `led?` gives for vat 0 goes to vat 5, which is not placed: what a throttle starts with is lost. -/
theorem doOverClaim_strayLedger : (strayLedger.doOverClaim 0).pwr = strayLedger.pwr := by
  have runs : strayLedger.doOverClaim 0 = (((strayLedger.setLed { strayLedger.pwr.vat0 with
      clus := strayLedger.reservedClus, level := 2, raisedAt := strayLedger.now }).wr Reg.LG_VAT_OVER 0 1 0).bump
        Reg.LG_VAT_THROTTLES 0 1 0).showLevels := rfl
  obtain ⟨⟨r, only⟩, -⟩ := showLevels_spec (((strayLedger.setLed { strayLedger.pwr.vat0 with
      clus := strayLedger.reservedClus, level := 2, raisedAt := strayLedger.now }).wr Reg.LG_VAT_OVER 0 1 0).bump
        Reg.LG_VAT_THROTTLES 0 1 0) 0
  rw [runs, only]
  rfl

/-- Refutes O41: the throttle clause is stated of every state, and in `strayLedger` the entry that `led?` answers for vat 0 carries
another number, so that OVER_CLAIM sets OVER but leaves the entry's level at 0. -/
theorem not_energyLedger : ¬ Obligations.EnergyLedger := by
  unfold Obligations.EnergyLedger
  intro h
  obtain ⟨-, -, -, -, -, overClaim, -⟩ := h strayLedger
  obtain ⟨starts, -⟩ := overClaim 0 { strayLedger.pwr.vat0 with clus := strayLedger.reservedClus } rfl
  obtain ⟨u, runs, -, level, -⟩ := starts rfl 0 rfl (by decide)
  obtain rfl : strayLedger.doOverClaim 0 = u := by
    injection runs
  have shown : ((strayLedger.doOverClaim 0).led? (0 : BitVec 8).toNat).map Vat.level = some (strayLedger.doOverClaim 0).pwr.vat0.level := rfl
  rw [shown, doOverClaim_strayLedger] at level
  exact absurd level (by decide)

end Sys2Proof.Machine
end

section
/-! PROOFS. The bring-up up to the training of the links (15.1, R430 to R432, R441): what leaves its state as it is, and the
states from SVC_BOOT to LINK_TRAIN. -/

namespace Sys2Proof.Machine

/-! ### The state of the bring-up under writes -/

/-- Fields of different blocks lie apart. -/
theorem rd_wr_of_blk_ne (s : State) (f g : Fld) {i j : Nat} (v k m : Nat) (hf : (f.off + f.step * k) * 64 + f.lo < 2 ^ 26)
    (hg : (g.off + g.step * m) * 64 + g.lo < 2 ^ 26) (hi : i < 2 ^ 16) (hj : j < 2 ^ 16) (ne : blkNum f.blk ≠ blkNum g.blk) :
    (s.wr f i v k).rd g j m = s.rd g j m := by
  apply rd_wr_ne
  unfold fkey
  generalize blkNum f.blk = a at ne ⊢
  generalize blkNum g.blk = b at ne ⊢
  generalize f.step * k = x at hf ⊢
  generalize g.step * m = y at hg ⊢
  omega

/-- A write to another block, in a unit that there is, leaves the state of the bring-up. -/
theorem buSt_wr (s : State) (f : Fld) {i : Nat} (v k : Nat) (place : (f.off + f.step * k) * 64 + f.lo < 2 ^ 26) (small : i < 2 ^ 16)
    (other : blkNum f.blk ≠ 29) : (s.wr f i v k).buSt = s.buSt :=
  rd_wr_of_blk_ne s f Reg.BU_STATUS_STATE v k 0 place (by decide) small (by decide) other

/-- So does one to a field that does not begin at bit 0. -/
theorem buSt_wr_of_bit (s : State) (f : Fld) (i v k : Nat) (bit : f.lo < 64 ∧ f.lo ≠ 0) : (s.wr f i v k).buSt = s.buSt :=
  rd_wr_of_bit_ne s f Reg.BU_STATUS_STATE i v k 0 0 bit.1 (by decide) bit.2

/-- And one to a word at another offset. -/
theorem buSt_wr_of_word (s : State) (f : Fld) (i v : Nat) (word : f.off < 2 ^ 20 ∧ f.lo < 64 ∧ f.off ≠ 0) : (s.wr f i v).buSt = s.buSt :=
  rd_wr_of_word_ne s f Reg.BU_STATUS_STATE i v 0 ⟨word.1, word.2.1⟩ (by decide) word.2.2

theorem buSt_enterBu (s : State) (k : Nat) : (s.enterBu k).buSt = k % 16 := (rd_with_boot ..).trans (rd_wr_self ..)

theorem each_keeps_of_mem {α : Type} (P : State → Prop) (f : State → α → State) (l : List α) (h : ∀ x ∈ l, ∀ s, P s → P (f s x)) (s : State)
    (start : P s) : P (s.each l f) :=
  List.foldlRecOn l f (motive := P) start fun u hu x hx => h x hx u hu

/-! ### SVC_BOOT (R441, R484) -/

/-- The slots' verdicts are noted, the service image is chosen and the laser cartridges go on. -/
def State.svcChosen (v : State) (b : BootIn) : State :=
  let w : State := { v with boot := { v.boot with svc := verdicts v.boot.svc b.svcA b.svcB, cul := verdicts v.boot.cul b.culA b.culB } }
  let x : State := { w with boot := { w.boot with svcInUse := (pickSlot w.boot.svc w.svcOk).getD w.boot.svcInUse } }
  x.each x.baysIn State.cartOn

/-- A boot takes the culture slot that verifies, or fails. -/
def State.cultureTaken (v : State) : State :=
  let (u, ok) := v.chooseCulture
  if ok then u else u.failBu

/-- The state in which SVC_BOOT has begun. -/
def State.svcBegun (s : State) : State := ((s.coldRegs).wr Reg.BU_STATUS_FALLBACK 0 0).enterBu 2

theorem doSvcBoot_of_clean {s : State} (at1 : s.atBu [1] = true) (live : s.rd Reg.IN_STATUS_EFUSE 0 = 2)
    (cool : s.rd Reg.IN_STATUS_COOLANT_WAIT 0 = 0) (kept : s.mgmt.eraseDue = false) (noCut : s.tray.cutDue = false) (b : BootIn) :
    s.doSvcBoot b = (s.svcBegun.svcChosen b).cultureTaken := by
  have runs : s.doSvcBoot b = if !s.atBu [1] || s.rd Reg.IN_STATUS_EFUSE 0 != 2 || s.rd Reg.IN_STATUS_COOLANT_WAIT 0 == 1 then s else
      let v := if s.svcBegun.mgmt.eraseDue then s.svcBegun.eraseOwner else s.svcBegun
      let w := if v.tray.cutDue then State.faultRec { v with tray := { v.tray with cutDue := false } }
        { type := evThermalCut, d0 := State.rd { v with tray := { v.tray with cutDue := false } } Reg.TR_CMP_LAST_CUT 0 } else v
      (w.svcChosen b).cultureTaken := rfl
  have noReport : ¬s.svcBegun.tray.cutDue = true := Bool.not_eq_true _ |>.mpr noCut
  have noErase : (if s.svcBegun.mgmt.eraseDue then s.svcBegun.eraseOwner else s.svcBegun) = s.svcBegun :=
    if_neg (Bool.not_eq_true _ |>.mpr kept)
  rw [runs, if_neg (by simp [at1, live, cool]), noErase]
  dsimp only
  rw [if_neg noReport]

theorem cultureTaken_of_choice {v y : State} (chosen : v.chooseCulture = (y, true)) : v.cultureTaken = y := by
  rw [State.cultureTaken, chosen]
  rfl

/-! ### TILE_POWER (R349, R431) -/

/-- A tile's cell and VLNK are up. -/
def State.Powered (t : Nat) (u : State) : Prop := u.vlnk t = true ∧ u.cellOn t = true

theorem powered_iff (t : Nat) (u : State) : State.Powered t u ↔ u.rd Reg.PW_STATUS_VLNK_GOOD t = 1 ∧ u.rd Reg.PW_STATUS_CELL t = 2 := by
  simp [State.Powered, State.vlnk, State.cellOn]

theorem powerTile_eq (s : State) (t : Nat) : s.powerTile t =
    ((((s.wr Reg.PW_STATUS_CELL t 2).wr Reg.PW_STATUS_VLNK_GOOD t 1).wr Reg.PW_STATUS_FEED_OWN t 1).wr
      Reg.PW_STATUS_FEED_ALT t 1).showVoltage t := rfl

theorem powerTile_powers (s : State) (t : Nat) : State.Powered t (s.powerTile t) := by
  rw [powered_iff, powerTile_eq]
  unfold State.showVoltage
  simp (disch := decide) only [rd_wr_of_key_ne, rd_wr_self]
  decide

theorem powerTile_of_ne {s : State} {t u : Nat} (ne : u ≠ t) (h : State.Powered t s) : State.Powered t (s.powerTile u) := by
  rw [powered_iff] at h ⊢
  have apart (v : State) (f g : Fld) (x k : Nat) (blk : f.blk = g.blk) (hf : (f.off + f.step * k) * 64 + f.lo < 2 ^ 26)
      (hg : (g.off + g.step * 0) * 64 + g.lo < 2 ^ 26) : (v.wr f u x k).rd g t = v.rd g t := rd_wr_of_inst_ne v f g x k 0 blk hf hg ne
  rw [powerTile_eq]
  unfold State.showVoltage
  simp (disch := decide) only [apart]
  exact h

theorem ramp_powered {s : State} {t : Nat} (h : State.Powered t s) (u waited : Nat) (slow : Bool) : State.Powered t (s.ramp u waited slow) := by
  rw [powered_iff] at h ⊢
  unfold State.ramp State.bump
  simp (disch := decide) only [rd_wr_of_word_ne]
  exact h

theorem buSt_powerTile (s : State) {t : Nat} (small : t < 2 ^ 16) : (s.powerTile t).buSt = s.buSt := by
  have kept (v : State) (f : Fld) (x k : Nat) (place : (f.off + f.step * k) * 64 + f.lo < 2 ^ 26) (other : blkNum f.blk ≠ 29) :
      (v.wr f t x k).buSt = v.buSt := buSt_wr v f x k place small other
  rw [powerTile_eq]
  unfold State.showVoltage
  simp (disch := decide) only [kept]

theorem buSt_ramp (s : State) (t waited : Nat) (slow : Bool) : (s.ramp t waited slow).buSt = s.buSt := by
  unfold State.ramp State.bump
  simp (disch := decide) only [buSt_wr_of_word]

/-- The state in which every tile and every present die has its power. -/
def State.tilesPowered (s : State) (dies : List DiePower) : State :=
  (((s.enterBu 3).takeTorus).each (List.range 36) State.powerTile).each dies fun u d => u.ramp d.tile.val 0 false

theorem tilesPowered_spec (s : State) (dies : List DiePower) : (s.tilesPowered dies).mem = s.mem ∧ (s.tilesPowered dies).buSt = 3 ∧
    ∀ t < 36, State.Powered t (s.tilesPowered dies) := by
  have torus : ((s.enterBu 3).takeTorus).buSt = 3 := (buSt_wr_of_word _ Reg.FN_SYS_EXPECTED _ _ (by decide)).trans (buSt_enterBu s 3)
  have tiles := each_keeps_of_mem (fun u : State => u.mem = s.mem ∧ u.buSt = 3) State.powerTile (List.range 36)
    (fun t ht u h => ⟨h.1, (buSt_powerTile u (by have := List.mem_range.1 ht; omega)).trans h.2⟩) ((s.enterBu 3).takeTorus) ⟨rfl, torus⟩
  obtain ⟨mem, state⟩ := each_keeps (fun u : State => u.mem = s.mem ∧ u.buSt = 3) (fun u (d : DiePower) => u.ramp d.tile.val 0 false)
    (fun u d h => ⟨h.1, (buSt_ramp u _ _ _).trans h.2⟩) dies _ tiles
  refine ⟨mem, state, fun t small => ?_⟩
  refine each_keeps (State.Powered t) _ (fun u d h => ramp_powered h _ _ _) dies _ ?_
  exact each_once (P := fun _ => True) (fun u _ => powerTile_powers u t) (fun _ _ _ _ => trivial) (fun u y ne h => powerTile_of_ne ne h)
    List.nodup_range (List.mem_range.2 small) trivial

/-! ### CLOCK_FWD (R376, R377) -/

/-- The bring-up stands at CLOCK_FWD, and tile (0, 0) is on its PLL. -/
def State.FirstClock (u : State) : Prop := u.buSt = 4 ∧ u.rd Reg.CK_STATUS_SOURCE 0 = 0 ∧ u.rd Reg.CK_STATUS_PLL_LOCK 0 = 1

theorem showChains_firstClock {u : State} (h : u.FirstClock) : u.showChains.FirstClock :=
  each_keeps State.FirstClock _ (fun v t ⟨state, source, lock⟩ => ⟨(buSt_wr_of_bit v Reg.CK_STATUS_CHAIN _ _ _ (by decide)).trans state,
    (rd_wr_of_bit_ne v Reg.CK_STATUS_CHAIN Reg.CK_STATUS_SOURCE _ _ _ _ _ (by decide) (by decide) (by decide)).trans source,
    (rd_wr_of_bit_ne v Reg.CK_STATUS_CHAIN Reg.CK_STATUS_PLL_LOCK _ _ _ _ _ (by decide) (by decide) (by decide)).trans lock⟩) _ u h

theorem takeSource_firstClock {u : State} {t : Nat} (other : t ≠ 0) (small : t < 36) (h : u.FirstClock) : (u.takeSource t).FirstClock := by
  obtain ⟨state, source, lock⟩ := h
  exact ⟨(buSt_wr _ _ _ _ (by decide) (by omega) (by decide)).trans state,
    (rd_wr_of_inst_ne _ _ _ _ _ _ rfl (by decide) (by decide) other).trans source,
    (rd_wr_of_inst_ne u Reg.CK_STATUS_SOURCE Reg.CK_STATUS_PLL_LOCK _ 0 0 rfl (by decide) (by decide) other).trans lock⟩

theorem begun_firstClock (v : State) : State.FirstClock (((v.enterBu 4).wr Reg.CK_STATUS_SOURCE 0 0).wr Reg.CK_STATUS_PLL_LOCK 0 1) := by
  refine ⟨?_, ?_, rd_wr_self ..⟩
  · exact (buSt_wr_of_bit _ _ _ _ _ (by decide)).trans ((buSt_wr _ _ _ _ (by decide) (by decide) (by decide)).trans (buSt_enterBu v 4))
  · exact (rd_wr_of_key_ne _ _ _ _ _ _ _ (by decide)).trans (rd_wr_self ..)

theorem otherTiles_spec : ∀ t ∈ (List.range 36).tail, t ≠ 0 ∧ t < 36 := by decide

theorem doClockFwd_spec {s : State} (at3 : s.atBu [3] = true) (bases : s.boot.baseUp ≠ []) : s.doClockFwd.FirstClock := by
  unfold State.doClockFwd
  rw [if_neg (by simp [at3, bases])]
  refine showChains_firstClock (each_keeps_of_mem State.FirstClock _ _ (fun t ht u h => ?_) _ (begun_firstClock _))
  obtain ⟨other, small⟩ := otherTiles_spec t ht
  exact takeSource_firstClock other small h

/-! ### LINK_TRAIN (R432) -/

/-- The link records that LINK_TRAIN writes are those of edges, below 2^16, and those of dies, whose numbers in their tiles are 4 to 11. -/
theorem trainedLinks_spec (s : State) (dies : List Nat) : ∀ i ∈ s.edgeLinks ++ linksOf dies, i ≠ 12 * 2 ^ 16 := by
  intro i hi
  rcases List.mem_append.1 hi with edge | die
  · simp only [State.edgeLinks, List.mem_flatMap, List.mem_range, List.mem_map, List.mem_filter] at edge
    obtain ⟨t, tile, e, ⟨port, -⟩, rfl⟩ := edge
    unfold linkInst
    omega
  · obtain ⟨k, -, rfl⟩ := List.mem_map.1 die
    unfold dieLink linkInst
    omega

theorem edge_mem {s : State} {t e n : Nat} (tile : t < 36) (edge : e < 4) (next : neighbour t e = some n) (near : s.vlnk t = true)
    (far : s.vlnk n = true) : linkInst t e ∈ s.edgeLinks := by
  refine List.mem_flatMap.2 ⟨t, List.mem_range.2 tile, List.mem_map.2 ⟨e, List.mem_filter.2 ⟨List.mem_range.2 edge, ?_⟩, rfl⟩⟩
  simp [near, next, far]

/-- The state in which the links of tiles and dies train. -/
def State.linksTraining (s : State) : State :=
  (s.enterBu 5).each (s.edgeLinks ++ linksOf (s.boot.present.filter fun k => !s.boot.condemned.contains k)) fun u i => u.wr Reg.LK_STATUS_STATE i 1

theorem linksTraining_spec (s : State) : s.linksTraining.buSt = 5 ∧ s.linksTraining.host = s.host ∧
    ∀ i ∈ s.edgeLinks, s.linksTraining.rd Reg.LK_STATUS_STATE i = 1 := by
  refine ⟨?_, ?_, fun i hi => ?_⟩
  · refine each_keeps_of_mem (fun u : State => u.buSt = 5) _ _ (fun i hi u h => ?_) _ (buSt_enterBu s 5)
    have apart := trainedLinks_spec s _ i hi
    refine Eq.trans (rd_wr_ne _ _ _ _ _ _ _ _ ?_) h
    simp only [fkey, Reg.LK_STATUS_STATE, Reg.BU_STATUS_STATE, blkNum]
    omega
  · exact each_keeps (fun u : State => u.host = s.host) (fun u i => u.wr Reg.LK_STATUS_STATE i 1) (fun u i h => h) _ (s.enterBu 5) rfl
  · exact rd_each_wr_of_mem (by decide) 1 (List.mem_append_left _ hi) _

theorem doLinkTrain_spec {s : State} (at4 : s.atBu [4] = true) (alone : s.host.inSystem = false) : s.doLinkTrain.buSt = 5 ∧
    ∀ t < 36, ∀ e < 4, ∀ n, neighbour t e = some n → s.vlnk t = true → s.vlnk n = true →
      s.doLinkTrain.rd Reg.LK_STATUS_STATE (linkInst t e) = 1 := by
  obtain ⟨state, host, edges⟩ := linksTraining_spec s
  have expresses (P : State → Prop) (start : P s.linksTraining)
      (keeps : ∀ u : State, P u → ∀ j < 2 ^ 16, ∀ v, P (u.wr Reg.XP_STATUS_STATE j v)) : P s.doLinkTrain := by
    have runs : s.doLinkTrain = if !s.atBu [4] then s else
        let u := s.linksTraining.each ((List.range 36).filter s.linksTraining.vlnk) fun u t => u.each (List.range 4) fun u p =>
          u.wr Reg.XP_STATUS_STATE (xpInst t p) (if u.lit (p / 2 * 2) || u.lit (p / 2 * 2 + 1) then 1 else 4)
        if u.host.inSystem then
          u.each ((List.range 32).filter fun p => u.rd Reg.RP_CTL_ENABLE p == 1 && u.vlnk (reachHost p)) fun u p => u.wr Reg.RP_STATUS_STATE p 1
        else u := rfl
    obtain ⟨kept, same⟩ := each_keeps_of_mem (fun u : State => P u ∧ u.host = s.host)
      (fun u t => u.each (List.range 4) fun u p =>
        u.wr Reg.XP_STATUS_STATE (xpInst t p) (if u.lit (p / 2 * 2) || u.lit (p / 2 * 2 + 1) then 1 else 4))
      ((List.range 36).filter s.linksTraining.vlnk)
      (fun t ht u hu => each_keeps_of_mem (fun u : State => P u ∧ u.host = s.host)
        (fun u p => u.wr Reg.XP_STATUS_STATE (xpInst t p) (if u.lit (p / 2 * 2) || u.lit (p / 2 * 2 + 1) then 1 else 4))
        (List.range 4) (fun p hp v hv => ⟨keeps v hv.1 _ (by
        have tile := List.mem_range.1 (List.mem_filter.1 ht).1
        have port := List.mem_range.1 hp
        unfold xpInst
        omega) _, hv.2⟩) u hu) s.linksTraining ⟨start, host⟩
    rw [runs, if_neg (by simp [at4])]
    dsimp only
    rw [if_neg (by rw [same, alone]; decide)]
    exact kept
  refine ⟨expresses (fun u => u.buSt = 5) state fun u h j small v =>
    (buSt_wr _ _ _ _ (by decide) small (by decide)).trans h, fun t tile e edge n next near far => ?_⟩
  exact expresses (fun u => u.rd Reg.LK_STATUS_STATE (linkInst t e) = 1) (edges _ (edge_mem tile edge next near far)) fun u h j small v =>
    (rd_wr_of_blk_ne _ _ _ _ _ _ (by decide) (by decide) small (linkInst_lt tile (by omega)) (by decide)).trans h

end Sys2Proof.Machine
end

section
/-! PROOFS. The bring-up from SELF_TEST to READY and the bound of a state (15.1, R433 to R439, R449). -/

namespace Sys2Proof.Machine

/-! ### What fault records leave of the bring-up -/

/-- `t` stands where `s` does in the bring-up, with the same dies condemned. -/
def State.SameBringUp (s t : State) : Prop :=
  t.buSt = s.buSt ∧ t.boot.condemned = s.boot.condemned ∧ t.boot.enteredAt = s.boot.enteredAt

namespace State.SameBringUp

variable {s t u : State}

theorem refl (s : State) : s.SameBringUp s := ⟨rfl, rfl, rfl⟩

theorem trans (h : s.SameBringUp t) (g : t.SameBringUp u) : s.SameBringUp u :=
  ⟨g.1.trans h.1, g.2.1.trans h.2.1, g.2.2.trans h.2.2⟩

theorem of_ite {p : Prop} [Decidable p] (h : s.SameBringUp t) (g : s.SameBringUp u) : s.SameBringUp (if p then t else u) := by
  split
  · exact h
  · exact g

/-- A step that leaves the registers and the bring-up's own part of the state. -/
theorem of_regs (regs : t.regs = s.regs) (boot : t.boot = s.boot) : s.SameBringUp t :=
  ⟨congrArg (mget 0 · (fkey Reg.BU_STATUS_STATE 0 0)) regs, congrArg Boot.condemned boot, congrArg Boot.enteredAt boot⟩

/-- The registers of functions and queues lie above those of the bring-up. -/
theorem wr_above (s : State) (f : Fld) (i v k : Nat) (above : 30 ≤ blkNum f.blk) : s.SameBringUp (s.wr f i v k) := by
  refine ⟨rd_wr_ne _ _ _ _ _ _ _ _ ?_, rfl, rfl⟩
  have own : fkey Reg.BU_STATUS_STATE 0 0 = 29 * 2 ^ 42 := by decide
  rw [own, fkey]
  generalize blkNum f.blk = b at above
  omega

/-- Those of the fault log, each of which there is once, lie below. -/
theorem wr_log (s : State) (f : Fld) (v : Nat) (place : (f.off + f.step * 0) * 64 + f.lo < 2 ^ 26) (other : blkNum f.blk ≠ 29) :
    s.SameBringUp (s.wr f 0 v) := ⟨buSt_wr s f v 0 place (by decide) other, rfl, rfl⟩

theorem wr_bit (s : State) (f : Fld) (i v k : Nat) (bit : f.lo < 64 ∧ f.lo ≠ 0) : s.SameBringUp (s.wr f i v k) :=
  ⟨buSt_wr_of_bit s f i v k bit, rfl, rfl⟩

theorem bump_log (s : State) (f : Fld) (n : Nat) (place : (f.off + f.step * 0) * 64 + f.lo < 2 ^ 26) (other : blkNum f.blk ≠ 29) :
    s.SameBringUp (s.bump f 0 n) := wr_log s f _ place other

theorem bumpW_log (s : State) (f : Fld) (n : Nat) (place : (f.off + f.step * 0) * 64 + f.lo < 2 ^ 26) (other : blkNum f.blk ≠ 29) :
    s.SameBringUp (s.bumpW f 0 n) := wr_log s f _ place other

theorem bump_bit (s : State) (f : Fld) (i n k : Nat) (bit : f.lo < 64 ∧ f.lo ≠ 0) : s.SameBringUp (s.bump f i n k) := wr_bit s f i _ k bit

theorem stBytes (s : State) (a : Nat) (bs : List Byte) : s.SameBringUp (s.stBytes a bs) := of_regs rfl rfl

theorem hostWrite (s : State) (a : Nat) (bs : List Byte) : s.SameBringUp (s.hostWrite a bs) :=
  of_ite (of_regs rfl rfl) (wr_above _ _ _ _ _ (by decide))

/-- A completion (R468). -/
theorem writeComp (s : State) (c : HComp) : s.SameBringUp (s.writeComp c) := by
  unfold State.writeComp
  refine trans (trans (trans (trans (trans (hostWrite s _ _) (hostWrite _ _ _)) (wr_above _ _ _ _ _ ?tail)) (wr_above _ _ _ _ _ ?completed))
    (of_ite (wr_above _ _ _ _ _ ?aborted) (refl _))) (of_regs rfl rfl)
  all_goals decide

theorem endCmd (s : State) (c : HCmd) (status result : Nat) : s.SameBringUp (s.endCmd c status result) :=
  trans (t := { s with host := { s.host with cmds := s.host.cmds.filter fun d => d.id != c.id } }) (of_regs rfl rfl)
    (of_ite (of_regs rfl rfl) (writeComp _ _))

/-- An event (R472). -/
theorem event (s : State) (w : Nat) : s.SameBringUp (s.event w) := by
  unfold State.event
  split
  · exact endCmd _ _ _ _
  · exact trans (trans (of_ite (wr_above _ _ _ _ _ (by decide)) (refl s)) (of_regs rfl rfl)) (wr_above _ _ _ _ _ (by decide))

theorem logRecord (s : State) (ty : Nat) (ws : List Word) : s.SameBringUp (s.logRecord ty ws) := by
  unfold State.logRecord
  refine of_ite (of_ite (trans (of_regs rfl rfl) (wr_log _ _ _ ?_ ?_)) (wr_log _ _ _ ?_ ?_))
    (of_ite (trans (of_regs rfl rfl) (wr_log _ _ _ ?_ ?_)) (trans (of_regs rfl rfl) (wr_log _ _ _ ?_ ?_)))
  all_goals decide

theorem stain (s : State) : s.SameBringUp s.stain := ⟨rfl, rfl, rfl⟩

/-- A fault record (R397, R426). -/
theorem faultRec (s : State) (r : FRec) : s.SameBringUp (s.faultRec r) := by
  unfold State.faultRec
  refine trans (trans (trans (trans (wr_log s _ _ ?_ ?_) (logRecord _ _ _)) (of_ite (stain _) (refl _)))
    (of_ite (bump_log _ _ _ ?_ ?_) (trans (stBytes _ _ _) (bumpW_log _ _ _ ?_ ?_)))) (event _ _)
  all_goals decide

/-- The self-test of a die (R415, R424, R433). -/
theorem selfTestDie (s : State) (r : SelfTestIn) (k : Nat) : s.SameBringUp (s.selfTestDie r k) := by
  have noted (l : FMap Nat) : s.SameBringUp { s with flt := { s.flt with lastTest := l } } := of_regs rfl rfl
  have suspected (u : State) (x : FRec) : u.SameBringUp (if u.fuseUnread r k then u.faultRec x else u) := of_ite (faultRec _ _) (refl _)
  have judged (u : State) (bad : Bool) (x : FRec) : u.SameBringUp (if !bad && u.fuseCallsBad r k then u.bump Reg.FT_CNT_FUSE_PASS (k / 8)
      else if bad && !u.fuseCallsBad r k then u.faultRec x else u) := of_ite (bump_bit _ _ _ _ _ (by decide)) (of_ite (faultRec _ _) (refl _))
  exact (((noted _).trans (faultRec _ _)).trans (suspected _ _)).trans (judged _ _ _)

theorem each {α : Type} {f : State → α → State} (step : ∀ (s : State) x, s.SameBringUp (f s x)) (l : List α) (s : State) :
    s.SameBringUp (s.each l f) :=
  each_keeps s.SameBringUp f (fun _ x h => h.trans (step _ x)) l s (refl s)

end State.SameBringUp

/-! ### SELF_TEST (R433) -/

/-- The dies of the self-test, tested. -/
def State.selfTested (s : State) (r : SelfTestIn) : State :=
  ((s.enterBu 6).addHistory r.badLanes r.badGroups).each (s.boot.present.filter fun k => !s.boot.condemned.contains k) fun u k =>
    u.selfTestDie r k

theorem selfTested_spec (s : State) (r : SelfTestIn) : (s.selfTested r).buSt = 6 ∧
    (s.selfTested r).boot.condemned = s.boot.condemned ∧ (s.selfTested r).boot.enteredAt = s.age := by
  obtain ⟨state, condemned, entered⟩ := State.SameBringUp.each (fun u k => State.SameBringUp.selfTestDie u r k)
    (s.boot.present.filter fun k => !s.boot.condemned.contains k) ((s.enterBu 6).addHistory r.badLanes r.badGroups)
  exact ⟨state.trans (buSt_enterBu s 6), condemned, entered⟩

theorem doSelfTest_spec {s : State} (at5 : s.atBu [5] = true) (trained : s.linksTrain = false) (r : SelfTestIn) (bases : r.baseFail = []) :
    let live := s.boot.present.filter fun k => !s.boot.condemned.contains k
    (s.doSelfTest r).buSt = 6 ∧ (s.doSelfTest r).boot.digest = r.digest ∧ (s.doSelfTest r).boot.enteredAt = s.age ∧
      (s.doSelfTest r).boot.condemned = s.boot.condemned ++ live.filter r.bistFail.contains := by
  intro live
  obtain ⟨state, condemned, entered⟩ := selfTested_spec s r
  have runs : ∃ linkBad fuseBad suspect n, s.doSelfTest r = ((State.wr { s.selfTested r with boot := { (s.selfTested r).boot with
      condemned := (s.selfTested r).boot.condemned ++ live.filter r.bistFail.contains, linkBad := linkBad, fuseBad := fuseBad
      suspect := suspect, digest := r.digest } } Reg.BU_TEST_CONDEMNED 0 n).each
      ((List.range 36).filter r.baseFail.contains) fun s t => s.tileDown t 4 0 evTestFail) :=
    ⟨_, _, _, _, if_neg (by simp [at5, trained])⟩
  obtain ⟨linkBad, fuseBad, suspect, n, runs⟩ := runs
  have none_ : (List.range 36).filter r.baseFail.contains = [] := by simp [bases]
  rw [runs, none_, each_nil]
  exact ⟨(buSt_wr_of_bit _ _ _ _ _ (by decide)).trans state, rfl, entered, congrArg (· ++ _) condemned⟩

/-! ### NEIGHBOUR_TEST (R434, R435) -/

theorem doNeighbour_of_at {s : State} (at6 : s.atBu [6] = true) (r : NeighbourIn) : ∃ a, s.doNeighbour r =
    (let u := (s.enterBu 7).each (r.accuse1 ++ r.accuse2).dedup fun v x => v.judgeUnit r x
     { u with boot := { u.boot with testedAt := a } }) ∧
    a = ((s.enterBu 7).each (r.accuse1 ++ r.accuse2).dedup fun v x => v.judgeUnit r x).age :=
  ⟨_, if_neg (by simp [at6]), rfl⟩

/-- A die of which its fuses know is condemned without a record. -/
theorem condemnDie_of_fuseBad {s : State} {k : Nat} (known : s.boot.fuseBad.contains k = true) :
    (s.condemnDie k).buSt = s.buSt ∧ (s.condemnDie k).boot.condemned = (s.boot.condemned ++ [k]).dedup := by
  have runs : s.condemnDie k = let u := if s.boot.fuseBad.contains k || s.boot.condemned.contains k then s.bump Reg.BU_TEST_CONDEMNED 0
      else (s.bump Reg.BU_TEST_CONDEMNED 0).faultRec { type := evFuseDiscrepancy, tile := k / 8, psite := k % 8 }
    { u with boot := { u.boot with condemned := (u.boot.condemned ++ [k]).dedup } } := rfl
  rw [runs, if_pos (by rw [known]; rfl)]
  exact ⟨buSt_wr_of_bit _ _ _ _ _ (by decide), rfl⟩

/-- A scratch memory that two testers accuse is condemned with its die. -/
theorem judgeUnit_of_accused {s : State} {r : NeighbourIn} {c : Core} (first : r.accuse1 = [.scratch c]) (second : r.accuse2 = [.scratch c])
    (present : s.boot.present.contains (dieKey c.tile.val c.site.val) = true) (good : s.boot.condemned = []) :
    s.judgeUnit r (.scratch c) = s.condemnDie (dieKey c.tile.val c.site.val) := by
  have testers : 2 < (s.testers (.scratch c)).length := by
    unfold State.testers
    rw [List.length_replicate]
    split <;> decide
  have one : 0 < (s.testers (.scratch c)).length := by omega
  have two : 1 < (s.testers (.scratch c)).length := by omega
  unfold State.judgeUnit
  dsimp only
  rw [if_neg (by rw [unitDie, present, good]; simp), if_pos (by simp [first, second, one, two])]
  rfl

theorem doNeighbour_of_accused {s : State} (at6 : s.atBu [6] = true) {r : NeighbourIn} {c : Core} (first : r.accuse1 = [.scratch c])
    (second : r.accuse2 = [.scratch c]) (present : s.boot.present.contains (dieKey c.tile.val c.site.val) = true)
    (good : s.boot.condemned = []) (known : s.boot.fuseBad.contains (dieKey c.tile.val c.site.val) = true) :
    (s.doNeighbour r).buSt = 7 ∧ (s.doNeighbour r).boot.condemned = [dieKey c.tile.val c.site.val] := by
  have units : (r.accuse1 ++ r.accuse2).dedup = [.scratch c] := by rw [first, second]; simp
  obtain ⟨a, runs, -⟩ := doNeighbour_of_at at6 r
  rw [units, each_singleton, judgeUnit_of_accused (s := s.enterBu 7) first second present good] at runs
  obtain ⟨state, condemned⟩ := condemnDie_of_fuseBad (s := s.enterBu 7) known
  rw [runs]
  refine ⟨state.trans (buSt_enterBu s 7), condemned.trans ?_⟩
  have none_ : (s.enterBu 7).boot.condemned = [] := good
  rw [none_]
  simp

/-! ### MAP_RECONCILE (R436, R437) -/

/-- The maps are written to the stored state, with the fuse digest. -/
def State.mapsStored (v : State) : State :=
  { v with boot := { v.boot with stored := { v.boot.stored with
      valid := true, digest := v.boot.digest, testedAt := v.boot.testedAt, training := false } }
           mgmt := { v.mgmt with fuseDigest := v.boot.digest } }

theorem doReconcile_of_at {s : State} (at7 : s.atBu [7] = true) : s.doReconcile =
    let w := (((s.enterBu 8).each ((List.range 36).filter s.vlnk) State.reconcile).saveStored).mapsStored
    if w.cellOn 0 ∧ w.psite 0 0 ≠ 7 then w else w.failBu := if_neg (by simp [at7])

/-! ### CLOCK_MESH (R393, R438) -/

/-- A tile is on its PLL. -/
def State.OnPll (t : Nat) (u : State) : Prop := u.rd Reg.CK_STATUS_SOURCE t = 0 ∧ u.rd Reg.CK_STATUS_PLL_LOCK t = 1

def State.onPll (u : State) (t : Nat) : State := (u.wr Reg.CK_STATUS_SOURCE t 0).wr Reg.CK_STATUS_PLL_LOCK t 1

theorem onPll_self (u : State) (t : Nat) : State.OnPll t (u.onPll t) :=
  ⟨(rd_wr_of_lo_ne _ Reg.CK_STATUS_PLL_LOCK Reg.CK_STATUS_SOURCE _ _ _ rfl rfl rfl (by decide)).trans (rd_wr_self ..), rd_wr_self ..⟩

theorem onPll_of_ne {u : State} {t x : Nat} (ne : x ≠ t) (h : State.OnPll t u) : State.OnPll t (u.onPll x) := by
  have apart (v : State) (f g : Fld) (n : Nat) (blk : f.blk = g.blk) (hf : (f.off + f.step * 0) * 64 + f.lo < 2 ^ 26)
      (hg : (g.off + g.step * 0) * 64 + g.lo < 2 ^ 26) : (v.wr f x n).rd g t = v.rd g t := rd_wr_of_inst_ne v f g n 0 0 blk hf hg ne
  unfold State.OnPll State.onPll
  simp (disch := decide) only [apart]
  exact h

theorem showChains_onPll {u : State} {t : Nat} (h : State.OnPll t u) : State.OnPll t u.showChains :=
  each_keeps (State.OnPll t) _ (fun v x ⟨source, lock⟩ =>
    ⟨(rd_wr_of_bit_ne v Reg.CK_STATUS_CHAIN Reg.CK_STATUS_SOURCE _ _ _ _ _ (by decide) (by decide) (by decide)).trans source,
      (rd_wr_of_bit_ne v Reg.CK_STATUS_CHAIN Reg.CK_STATUS_PLL_LOCK _ _ _ _ _ (by decide) (by decide) (by decide)).trans lock⟩) _ u h

/-- The state in which CLOCK_MESH has begun: frame 0 and slot 0, and CK_T runs. -/
def State.meshBegun (s : State) : State :=
  { (s.enterBu 9) with
    sch := { s.sch with slots := 0, inHeld := false, stage := [], stageIn := [], arrivals := [], holdAt := none, events := [], evWait := [] }
    clk := { s.clk with started := true } }

theorem rd_meshBegun (s : State) (f : Fld) (i k : Nat) : s.meshBegun.rd f i k = (s.wr Reg.BU_STATUS_STATE 0 9).rd f i k := rfl

theorem buSt_meshBegun (s : State) : s.meshBegun.buSt = 9 := (rd_meshBegun ..).trans (rd_wr_self ..)

theorem vlnk_meshBegun (s : State) (t : Nat) : s.meshBegun.vlnk t = s.vlnk t := by
  unfold State.vlnk
  rw [rd_meshBegun, rd_wr_of_bit_ne _ _ _ _ _ _ _ _ (by decide) (by decide) (by decide)]

/-- Every tile with VLNK takes its PLL. -/
def State.meshed (u : State) : State := (u.each ((List.range 36).filter u.vlnk) State.onPll).showChains

/-- Module 0 has the time, others wait for theirs. -/
def State.timeRole (u : State) : State :=
  ((u.wr Reg.TM_STATUS_MASTER 0 (b2n (u.ownMod == 0))).wr Reg.TM_STATUS_LOCKED 0 (b2n (u.ownMod == 0))).wr Reg.TM_STATUS_MASTER_MODULE 0 0

theorem meshed_onlyRegs (u : State) : u.OnlyRegs u.meshed :=
  (State.OnlyRegs.each (fun v x => (State.OnlyRegs.wr v _ x 0 0).trans (.wr _ _ x 1 0)) _ u).trans
    (State.OnlyRegs.each (fun v x => .wr v _ x _ 0) _ _)

theorem timeRole_onlyRegs (u : State) : u.OnlyRegs u.timeRole := ((State.OnlyRegs.wr ..).trans (.wr ..)).trans (.wr ..)

theorem buSt_meshed (u : State) : u.meshed.buSt = u.buSt := by
  have plls : (u.each ((List.range 36).filter u.vlnk) State.onPll).buSt = u.buSt :=
    each_keeps_of_mem (fun v : State => v.buSt = u.buSt) State.onPll _ (fun t ht v h => by
      have tile := List.mem_range.1 (List.mem_filter.1 ht).1
      exact (buSt_wr _ _ _ _ (by decide) (by omega) (by decide)).trans ((buSt_wr _ _ _ _ (by decide) (by omega) (by decide)).trans h)) u rfl
  exact each_keeps (fun v : State => v.buSt = u.buSt) _ (fun v t h => (buSt_wr_of_bit v Reg.CK_STATUS_CHAIN _ _ _ (by decide)).trans h) _ _ plls

theorem buSt_timeRole (u : State) : u.timeRole.buSt = u.buSt := by
  have kept (v : State) (f : Fld) (x : Nat) (place : (f.off + f.step * 0) * 64 + f.lo < 2 ^ 26) (other : blkNum f.blk ≠ 29) :
      (v.wr f 0 x).buSt = v.buSt := buSt_wr v f x 0 place (by decide) other
  unfold State.timeRole
  simp (disch := decide) only [kept]

theorem meshed_onPll {u : State} {t : Nat} (tile : t < 36) (near : u.vlnk t = true) : State.OnPll t u.meshed :=
  showChains_onPll (each_once (P := fun _ => True) (fun v _ => onPll_self v t) (fun _ _ _ _ => trivial) (fun _ _ ne h => onPll_of_ne ne h)
    (List.nodup_range.filter _) (List.mem_filter.2 ⟨List.mem_range.2 tile, near⟩) trivial)

theorem timeRole_onPll {u : State} {t : Nat} (tile : t < 36) (h : State.OnPll t u) : State.OnPll t u.timeRole := by
  have small : t < 2 ^ 16 := by omega
  have apart (v : State) (f g : Fld) (x : Nat) (hf : (f.off + f.step * 0) * 64 + f.lo < 2 ^ 26)
      (hg : (g.off + g.step * 0) * 64 + g.lo < 2 ^ 26) (ne : blkNum f.blk ≠ blkNum g.blk) : (v.wr f 0 x).rd g t = v.rd g t :=
    rd_wr_of_blk_ne v f g x 0 0 hf hg (by decide) small ne
  unfold State.OnPll State.timeRole
  simp (disch := decide) only [apart]
  exact h

/-- The time itself stands at 0, and is not yet steered. -/
def State.timeAtZero (u : State) : State := { u with now := 0, clk := { u.clk with rateAcc := 0, synced := false } }

theorem rd_timeAtZero (u : State) (f : Fld) (i k : Nat) : u.timeAtZero.rd f i k = u.rd f i k := rfl

theorem buSt_timeAtZero (u : State) : u.timeAtZero.buSt = u.buSt := rfl

theorem clk_timeAtZero (u : State) : u.timeAtZero.clk.started = u.clk.started := rfl

theorem sch_timeAtZero (u : State) : u.timeAtZero.sch = u.sch := rfl

theorem doClockMesh_of_cold {s : State} (at8 : s.atBu [8, 14] = true) (cold : s.buSt = 8) : s.doClockMesh = s.meshBegun.meshed.timeRole.timeAtZero := by
  have runs : s.doClockMesh = if !s.atBu [8, 14] then s else if !(s.buSt == 8) then s.meshBegun else
    s.meshBegun.meshed.timeRole.timeAtZero := rfl
  rw [runs, if_neg (by rw [at8]; decide), if_neg (by rw [cold]; decide)]

theorem doClockMesh_spec {s : State} (at8 : s.atBu [8, 14] = true) (cold : s.buSt = 8) : s.doClockMesh.buSt = 9 ∧
    s.doClockMesh.clk.started = true ∧ s.doClockMesh.sch.slots = 0 ∧ s.doClockMesh.now = 0 ∧
      ∀ t < 36, s.vlnk t = true → State.OnPll t s.doClockMesh := by
  obtain ⟨r, only⟩ := (meshed_onlyRegs s.meshBegun).trans (timeRole_onlyRegs _)
  rw [doClockMesh_of_cold at8 cold, buSt_timeAtZero, buSt_timeRole, buSt_meshed, buSt_meshBegun, clk_timeAtZero, sch_timeAtZero]
  refine ⟨rfl, ?_, ?_, rfl, fun t tile near => ?_⟩
  · rw [only]
    rfl
  · rw [only]
    rfl
  · unfold State.OnPll
    rw [rd_timeAtZero, rd_timeAtZero]
    exact timeRole_onPll tile (meshed_onPll tile ((vlnk_meshBegun s t).trans near))

/-! ### MEM_TRAIN (R439) -/

theorem trainPort_boot (s : State) (sum p : Nat) (x : Option T3In) : (s.trainPort sum p x).1.boot = s.boot := by
  unfold State.trainPort
  dsimp only
  split
  next =>
    split
    · rfl
    · rfl
  · rfl
  · rfl

theorem trainPorts_boot (s : State) (l : List T3In) : (s.trainPorts l).boot = s.boot := by
  unfold State.trainPorts
  generalize List.range 8 = ports
  refine List.foldlRecOn (motive := fun r : State × Nat => r.1.boot = s.boot) ports _ rfl ?_
  intro r kept p _
  exact (trainPort_boot ..).trans kept

theorem markTrained_onlyRegs (s : State) (r : MemTrainIn) : s.OnlyRegs (s.markTrained r) :=
  (State.OnlyRegs.each (fun v x => (State.OnlyRegs.wr v _ x _ 0).trans (.wr _ _ x _ 0)) _ s).trans
    (State.OnlyRegs.each (fun v x => (State.OnlyRegs.wr v _ x _ 0).trans (.wr _ _ x _ 0)) _ _)

/-- T1 and T2 hold zeros, and the stored training data are those of this bring-up. -/
def State.tiersZeroed (s : State) : State :=
  { s with
    mem := s.mem.filter fun e => e.1 / 2 ^ 52 != 1 && e.1 / 2 ^ 52 != 2
    tier := { s.tier with poison := [] }
    boot := { s.boot with reload := [], stored := { s.boot.stored with training := true } } }

theorem byte_tiersZeroed (s : State) {k : Nat} (tier : k / 2 ^ 52 = 1 ∨ k / 2 ^ 52 = 2) : s.tiersZeroed.byte k = 0 := by
  refine (mget_filter 0 (fun k => k / 2 ^ 52 != 1 && k / 2 ^ 52 != 2) s.mem k).trans (if_neg ?_)
  rcases tier with h | h
  · rw [h]
    decide
  · rw [h]
    decide

theorem doMemTrain_spec {s : State} (at9 : s.atBu [9] = true) (cold : s.boot.warm = 0) (r : MemTrainIn) :
    (s.doMemTrain r).boot.stored.training = true ∧
      ∀ k, k / 2 ^ 52 = 1 ∨ k / 2 ^ 52 = 2 → (s.doMemTrain r).byte k = 0 := by
  have runs : s.doMemTrain r = (((s.enterBu 10).each s.moduleCores State.zeroFill).tiersZeroed.markTrained r).trainPorts r.ports :=
    if_neg (by simp [at9, cold])
  generalize (s.enterBu 10).each s.moduleCores State.zeroFill = z at runs
  obtain ⟨_, only⟩ := markTrained_onlyRegs z.tiersZeroed r
  rw [runs]
  constructor
  · rw [trainPorts_boot, only]
    rfl
  · intro k tier
    rw [State.byte, trainPorts_mem, only]
    exact byte_tiersZeroed z tier

/-! ### READY (R449) -/

/-- A reset that has begun the bring-up ends with it. -/
def State.resetEnded (u : State) : State := if u.rd Reg.RST_STATUS_BUSY 0 = 1 then (u.endRst 0).wr Reg.RST_STATUS_BUSY 0 0 else u

/-- READY as the bring-up's registers show it. -/
def State.readyEntered (s : State) : State :=
  ((s.enterBu 12).wr Reg.BU_STATUS_WARM 0 (b2n (s.boot.warm != 0))).wr Reg.BU_STATUS_ELAPSED 0
    (min ((s.age - s.boot.beganAt) / us 1000) (2 ^ 23 - 1))

/-- The state in which READY has begun. -/
def State.readyShown (s : State) : State := s.readyEntered.resetEnded

/-- A module that forms no system is its own lead. -/
def State.ownLead (u : State) : State := ((u.wr Reg.FN_SYS_LEAD 0 0).wr Reg.FN_SYS_MODULES 0 1).wr Reg.FN_SYS_FORMED 0 1

theorem resetEnded_spec (u : State) : u.resetEnded.buSt = u.buSt ∧ u.resetEnded.mem = u.mem ∧ u.resetEnded.host = u.host ∧
    u.resetEnded.age = u.age := by
  unfold State.resetEnded
  split
  · refine ⟨?_, rfl, rfl, rfl⟩
    exact (buSt_wr_of_word _ _ _ _ (by decide)).trans ((buSt_wr_of_word _ _ _ _ (by decide)).trans (buSt_wr_of_word _ _ _ _ (by decide)))
  · exact ⟨rfl, rfl, rfl, rfl⟩

theorem readyEntered_spec (s : State) : s.readyEntered.buSt = 12 ∧ s.readyEntered.mem = s.mem ∧ s.readyEntered.host = s.host ∧
    s.readyEntered.age = s.age := by
  refine ⟨?_, rfl, rfl, rfl⟩
  unfold State.readyEntered
  exact (buSt_wr_of_bit _ _ _ _ _ (by decide)).trans ((buSt_wr_of_bit _ _ _ _ _ (by decide)).trans (buSt_enterBu s 12))

theorem readyShown_spec (s : State) : s.readyShown.buSt = 12 ∧ s.readyShown.mem = s.mem ∧ s.readyShown.host = s.host ∧
    s.readyShown.age = s.age := by
  obtain ⟨state, mem, host, age⟩ := readyEntered_spec s
  obtain ⟨state', mem', host', age'⟩ := resetEnded_spec s.readyEntered
  exact ⟨state'.trans state, mem'.trans mem, host'.trans host, age'.trans age⟩

theorem ownLead_spec (u : State) : u.ownLead.buSt = u.buSt ∧ u.ownLead.rd Reg.FN_SYS_FORMED 0 = 1 ∧ u.ownLead.rd Reg.FN_SYS_LEAD 0 = 0 := by
  have kept (v : State) (f : Fld) (x : Nat) (place : (f.off + f.step * 0) * 64 + f.lo < 2 ^ 26) (other : blkNum f.blk ≠ 29) :
      (v.wr f 0 x).buSt = v.buSt := buSt_wr v f x 0 place (by decide) other
  unfold State.ownLead
  refine ⟨?_, rd_wr_self .., ?_⟩
  · simp (disch := decide) only [kept]
  · simp (disch := decide) only [rd_wr_of_key_ne, rd_wr_self]
    rfl

theorem doReady_of_alone {s : State} (at11 : s.atBu [11] = true) (cultured : s.culKeys.all s.culDone = true) (vat0 : s.vat0Up = true)
    (die : s.dieActive 0 (s.psite 0 0) = true) (alone : s.host.inSystem = false) : s.doReady =
    let u := (State.freshForecast { s.readyShown with
      boot := { s.readyShown.boot with warm := 0 }, host := { s.readyShown.host with readyAt := s.readyShown.age } }).ownLead
    { u with host := { u.host with up := true } } := by
  have runs : s.doReady = if !s.atBu [11] || !s.culKeys.all s.culDone || !s.vat0Up || !s.dieActive 0 (s.psite 0 0) then s else
      let v := State.freshForecast { s.readyShown with
        boot := { s.readyShown.boot with warm := 0 }, host := { s.readyShown.host with readyAt := s.readyShown.age } }
      if v.host.inSystem then
        let w := v.each ((List.range 32).filter fun p =>
            v.rd Reg.RP_CTL_ENABLE p == 1 && v.rd Reg.RP_STATUS_STATE p == 0 && v.vlnk (reachHost p)) fun w p => w.wr Reg.RP_STATUS_STATE p 1
        { w with host := { w.host with announced := (w.host.announced ++ [w.ownMod]).dedup } }
      else
        let u := v.ownLead
        { u with host := { u.host with up := true } } := rfl
  obtain ⟨-, -, host, -⟩ := readyShown_spec s
  have single (x : Boot) (n : Nat) : (State.freshForecast { s.readyShown with
      boot := x, host := { s.readyShown.host with readyAt := n } }).host.inSystem = false :=
    (congrArg HostPort.inSystem host).trans alone
  rw [runs, if_neg (by rw [at11, cultured, vat0, die]; decide)]
  dsimp only
  rw [if_neg (by rw [single]; decide)]

theorem doReady_spec {s : State} (at11 : s.atBu [11] = true) (cultured : s.culKeys.all s.culDone = true) (vat0 : s.vat0Up = true)
    (die : s.dieActive 0 (s.psite 0 0) = true) (alone : s.host.inSystem = false) : s.doReady.mem = s.mem ∧ s.doReady.buSt = 12 ∧
      s.doReady.host.up = true ∧ s.doReady.host.readyAt = s.age ∧ s.doReady.boot.warm = 0 ∧ s.doReady.rd Reg.FN_SYS_FORMED 0 = 1 ∧
        s.doReady.rd Reg.FN_SYS_LEAD 0 = 0 := by
  obtain ⟨state, mem, -, age⟩ := readyShown_spec s
  rw [doReady_of_alone at11 cultured vat0 die alone]
  generalize hv : State.freshForecast { s.readyShown with
    boot := { s.readyShown.boot with warm := 0 }, host := { s.readyShown.host with readyAt := s.readyShown.age } } = v
  obtain ⟨kept, formed, lead⟩ := ownLead_spec v
  refine ⟨?_, kept.trans ?_, rfl, ?_, ?_, formed, lead⟩
  · exact (congrArg State.mem hv).symm.trans mem
  · exact (congrArg State.buSt hv).symm.trans state
  · exact (congrArg (fun u : State => u.host.readyAt) hv).symm.trans age
  · exact (congrArg (fun u : State => u.boot.warm) hv).symm

/-! ### The bound of a state (R449) -/

theorem doBuTimeout_of_cold {s : State} (sound : s.rd Reg.BU_STATUS_FAILED 0 = 0) (input : s.pwr.lossAt = none) (least : 2 ≤ s.buSt)
    (most : s.buSt ≤ 11) (cold : s.boot.warm = 0) (late : s.boot.enteredAt + 900000 * stateBound s.buSt 0 < s.age) :
    s.doBuTimeout = s.failBu := by
  have inState : s.atBu [2, 3, 4, 5, 6, 7, 8, 9, 10, 11, 13, 14, 15] = true := by
    refine atBu_of_mem input sound ?_
    simp only [List.mem_cons, List.not_mem_nil, or_false]
    omega
  have bound : us (1000 * stateBound s.buSt s.boot.warm) = 900000 * stateBound s.buSt 0 := by
    rw [cold, us]
    ring
  have over_ : ¬s.age ≤ s.boot.enteredAt + us (1000 * stateBound s.buSt s.boot.warm) := by omega
  unfold State.doBuTimeout
  rw [if_neg (by simp [inState, over_]), if_neg (by simp [State.inWarm, cold])]

/-! ### The obligation -/

/-- Settles O46: a cold bring-up state by state. No state's own writes reach BU_STATUS.STATE, which its entry has written. -/
theorem bringUp : Obligations.BringUp := by
  unfold Obligations.BringUp
  intro s sound input
  have stands {k : Nat} (state : s.buSt = k) {l : List Nat} (mem : k ∈ l) : s.atBu l = true :=
    atBu_of_mem input sound (by rw [state]; exact mem)
  refine ⟨?svcBoot, ?tilePower, ?clockFwd, ?linkTrain, ?selfTest, ?neighbour, ?reconcile, ?mesh, ?memTrain, ?ready, ?timeout⟩
  case svcBoot =>
    rintro b y state live cool kept noCut v w x rfl rfl rfl chosen
    exact congrArg Host.Outcome.next
      ((doSvcBoot_of_clean (stands state (by decide)) live cool kept noCut b).trans (cultureTaken_of_choice chosen))
  case tilePower =>
    intro dies state life
    have at2 : s.atBu [2] = true := stands state (by decide)
    obtain ⟨mem, three, powered⟩ := tilesPowered_spec s dies
    have runs : ∃ x : List Nat, s.doTilePower dies = { s.tilesPowered dies with boot := { (s.tilesPowered dies).boot with
        baseUp := List.range 36, present := (dies.map fun d => dieKey d.tile.val d.site.val).dedup, suspect := [], fuseBad := [], linkBad := []
        condemned := x } } := ⟨_, if_neg (by simp [at2, life])⟩
    obtain ⟨x, runs⟩ := runs
    exact ⟨_, congrArg Host.Outcome.next runs, mem, three, rfl, rfl, fun t => powered t.val t.isLt⟩
  case clockFwd =>
    intro state bases
    exact ⟨_, rfl, doClockFwd_spec (stands state (by decide)) bases⟩
  case linkTrain =>
    intro state alone
    obtain ⟨five, train⟩ := doLinkTrain_spec (stands state (by decide)) alone
    exact ⟨_, rfl, five, fun t e n => train t.val t.isLt e.val e.isLt n⟩
  case selfTest =>
    intro r state trained bases
    exact ⟨_, rfl, doSelfTest_spec (stands state (by decide)) trained r bases⟩
  case neighbour =>
    intro r state
    have at6 : s.atBu [6] = true := stands state (by decide)
    refine ⟨?unaccused, ?accused⟩
    · intro first second
      obtain ⟨a, runs, age⟩ := doNeighbour_of_at at6 r
      have units : (r.accuse1 ++ r.accuse2).dedup = [] := by rw [first, second]; rfl
      rw [units, each_nil] at runs age
      exact ⟨_, congrArg Host.Outcome.next runs, buSt_enterBu s 7, age, rfl⟩
    · intro c first second k present good known
      exact ⟨_, rfl, doNeighbour_of_accused at6 first second present good known⟩
  case reconcile =>
    rintro state v w rfl rfl
    have runs := doReconcile_of_at (stands state (by decide) : s.atBu [7] = true)
    exact ⟨fun cell site => congrArg Host.Outcome.next (runs.trans (if_pos ⟨cell, site⟩)),
      fun site => congrArg Host.Outcome.next (runs.trans (if_neg fun h => h.2 site))⟩
  case mesh =>
    intro state
    obtain ⟨nine, started, slots, now, plls⟩ := doClockMesh_spec (stands state (by decide)) state
    exact ⟨_, rfl, nine, started, slots, now, fun t => plls t.val t.isLt⟩
  case memTrain =>
    intro r state cold
    obtain ⟨training, zeros⟩ := doMemTrain_spec (stands state (by decide)) cold r
    refine ⟨_, rfl, training, fun off small => zeros _ (.inl ?_), fun t off small => zeros _ (.inr ?_)⟩
    · unfold t1Key
      omega
    · have tile := t.isLt
      unfold t2Key
      omega
  case ready =>
    intro state cultured vat0 die alone
    exact ⟨_, rfl, doReady_spec (stands state (by decide)) cultured vat0 die alone⟩
  case timeout =>
    intro least most cold late
    exact congrArg Host.Outcome.next (doBuTimeout_of_cold sound input least most cold late)

end Sys2Proof.Machine
end
